-- ==== Sys2Proof/Word.lean ====
section
/-! DEFINITION. Bytes and byte strings, and the plainest conversions between byte strings and numbers. -/

namespace Sys2Proof

/-- One byte. -/
abbrev Byte := BitVec 8

/-- A byte string, first byte first. -/
abbrev Bytes := List Byte

end Sys2Proof
end

