-- ==== Sys2Proof/Syntax.lean ====
section
/-! DEFINITION. The commands of the module (spec/opcode_table.json), one constructor of Instr for each row, and the
types of their operands. -/

namespace Sys2Proof

/-- A submission cell as fetched (R64, Table 3.3). AREA is bytes 40 to 63. -/
structure Cell where
  version  : BitVec 8
  flags    : BitVec 8
  opcode   : BitVec 16
  tag      : BitVec 32
  inLen    : BitVec 32
  outCap   : BitVec 32
  sglAddr  : BitVec 64
  sglCount : BitVec 16
  flowId   : BitVec 16
  keyA     : BitVec 40
  keyB     : BitVec 40
  rsvd     : BitVec 16
  area     : Bytes
deriving DecidableEq, Repr

/-- A scatter-list entry as read (R69, Table 3.5). -/
structure SgEntry where
  addr : BitVec 64
  len  : BitVec 32
  ctl  : BitVec 32
deriving DecidableEq, Repr

/-- What the NOR flash does with the chunk of an IMAGE_WRITE (R380, R381). -/
inductive NorWrite where
  /-- It reads back as written. -/
  | kept
  /-- It reads back as these bytes. -/
  | reads (found : Bytes)
  /-- It is still being programmed when the next command comes. -/
  | lasts
deriving DecidableEq, Repr

/-- A measurement of the hold-up bank: the drop in mV that 200 mA for 5 ms make, and its voltage in units of 10 mV (R470). -/
structure BankSample where
  drop : Nat
  volt : BitVec 16
deriving DecidableEq, Repr

/-- A fetched message: the cell, its scatter list as the DMA read returns it (or the entry whose read failed), its input bytes, from
continuation cells (R66) or from the input entries (R69), for IMAGE_WRITE what the flash does with them, and for LC_TRANSITION what its
gate's measurement of the bank finds: nothing new where it finds what the last one did. A DEBUG_AUTHORIZE can come over the UART of
the service port instead, as CHAL or RESP (R405). -/
structure Msg where
  inst   : Fin 256
  cell   : Cell
  sgl    : List SgEntry
  sglErr : Option Nat
  input  : Bytes
  nor    : NorWrite := .kept
  bank   : Option BankSample := none
  uart   : Bool := false
deriving DecidableEq, Repr

/-- What the input stage samples (R469): the mean input power of the last 10 ms in units of 10 mW, and the 1 ms means of voltage, in
units of 10 mV, and of current in mA. -/
structure InputSample where
  power   : Nat
  voltage : BitVec 16
  current : BitVec 16
deriving DecidableEq, Repr

/-- How long the hold-up bank lasts in an input loss (R395, R472): for the whole sequence; not beyond step 3; or, with a life-cycle
transition under way, until its row is being programmed, with these bits of it done. -/
inductive HoldUp where
  | whole
  | short
  | inRow (bits : BitVec 64)
deriving DecidableEq, Repr

/-- What a start finds (steps 7 and 8 of Table 15.1): the clusters whose program store fails its read-back (R160)
and those whose self-check fails (R124, R152, R187, R211). -/
structure BootEnv where
  storeFail : List (Fin 16)
  selfFail  : List (Fin 16)
deriving DecidableEq, Repr

/-- The link as trained (R32, R33): CXL accepted, rate code of LNK_STAT, lanes, Cache_Enable. -/
structure LinkParams where
  cxl   : Bool
  rate  : Fin 6
  width : Fin 9
  cache : Bool
deriving DecidableEq, Repr

/-- The partner violations of Table 2.10 that have no row of their own. -/
inductive ViolKind where
  | unmapped
  | unaligned
  | noFunction
  | malformed
  | unexpectedCompletion
  | poisonedWrite
  | barDisabled
  | doorbellAbsent
deriving DecidableEq, Repr

/-- What a failed DMA read was for (R47, R52). -/
inductive DmaTarget where
  | ring (inst : Fin 256)
  | input (msg : Nat) (entry : Nat)
  | bitmap (inst : Fin 256)
deriving DecidableEq, Repr

/-- The issuer of a register access: a host instance, an internal unit at a level, or the hardware of the custody world that has no unit
of its own, the response controller and the island spoke (R429). -/
inductive Master where
  | host (inst : Fin 256)
  | unit (unit : Fin 21) (level : Fin 4)
  | custody
deriving DecidableEq, Repr

/-- Where a register lies: the window in BAR0 of a function, the component registers in BAR2 or the MSI-X structures in BAR4
of the physical function, or the configuration space of a function (Table 2.2). -/
inductive RegSpace where
  | bar0
  | bar2
  | bar4
  | config
deriving DecidableEq, Repr


/-- A register read of 1, 2, 4 or 8 bytes (R6). -/
structure RegRead where
  space  : RegSpace := .bar0
  offset : BitVec 32
  size   : Nat := 4
deriving DecidableEq, Repr

/-- Kinds of access (R431, Table 18.4). -/
inductive AccKind where
  | read
  | write
  | fetch
deriving DecidableEq, Repr

/-- An access of an internal master (R429 to R433). -/
structure Access where
  unit  : Fin 21
  level : Fin 4
  kind  : AccKind
  start : BitVec 48
  len   : Nat
deriving DecidableEq, Repr

/-- A register write of 1, 2, 4 or 8 bytes (R6). Again holds the bits of R11 in the cycle of the write: the write-one-to-clear bits that
the module sets and the write-one-to-set bits that it clears; capture is the refused access that sets ACU_CAP_INFO.VALID in that
cycle. -/
structure RegWrite where
  master  : Master
  space   : RegSpace := .bar0
  offset  : BitVec 32
  size    : Nat := 4
  value   : BitVec 64
  again   : BitVec 64 := 0
  capture : Option Access := none
deriving DecidableEq, Repr

/-- What CLUSTER_FAULT reports: a cause of CLU_FAULT (1 to 7, Table 4.10), or a correctable error of a staging or operand memory, which
is no fault and counts in CLU_CE.STAGE (R126, R196). -/
inductive FaultCause where
  | corrected
  | stagingEcc
  | storeEcc
  | lockstep
  | engineWatchdog
  | clusterWatchdog
  | spokeCode
  | selfCheck
deriving DecidableEq, Repr

/-- What one read of a NAND record delivers (R244, R250): the stored bytes, the stored bytes with one of them changed, or
a page that its ECC cannot recover. -/
inductive NandRead where
  | clean
  | changed (off : Nat) (mask : BitVec 8)
  | unreadable
deriving DecidableEq, Repr

/-- One attempt of a vault read: the nodes of levels 2 and 1 above the vault page, and its leaf record. -/
structure PageRead where
  node2 : NandRead
  node1 : NandRead
  leaf  : NandRead
deriving DecidableEq, Repr

/-- What a vault read and its one retry find in the page of the object and in its handle's other candidate page, which is read beside it
(R249, R250). -/
structure VaultRead where
  first      : PageRead
  retry      : PageRead
  other      : PageRead
  otherRetry : PageRead
deriving DecidableEq, Repr

/-- What a mount finds in NAND (R257): the root node, the nodes of levels 3 to 6 that are not delivered as stored (level,
index), and the commit records. -/
structure MountRead where
  root    : NandRead
  nodes   : List (Nat × Nat × NandRead)
  records : NandRead
deriving DecidableEq, Repr

/-- A request on the DOE mailbox, plain or secured (R37). -/
structure SpdmReq where
  secured : Bool
  message : Bytes
deriving DecidableEq, Repr

/-- What the programming of a batch came to: whether every page reads back, and the blocks whose program status failed
(R246, R247). -/
structure BatchEnd where
  readBack : Bool
  failed   : List Nat
deriving DecidableEq, Repr

/-- The region a QDR error falls in (R254, Table 10.9). -/
inductive QdrRegion where
  | keyCache (handle : BitVec 40)
  | treeNode (level index : Nat)
  | derailleur
  | template (index : Nat)
  | message (msg : Nat)
  | stream (inst : Fin 256) (flow : BitVec 16)
  | chainHead (domain : Fin 1024) (chain : Fin 64)
deriving DecidableEq, Repr

/-- Flipped bits in a QDR block of a region (R252, R254). -/
structure QdrHit where
  region : QdrRegion
  flips  : List (Fin 576)
deriving DecidableEq, Repr

/-- What a monitor finds (R410): the monitor, the detectors that raise its alarm, and, for a temperature or cell-voltage
monitor, whether the value is above its range; with no detector, that the monitor reads normal (R422, R428). It is detected a number
of ms after what went before. For monitor 120 it names the machine, 1 the response controller, 2 the life-cycle sequencer, 3 the vault
commit machine, 4 the tandem machine, 5 the key-load machine (numbers: DESIGN CHOICE, log 98), and the code found (R415). -/
structure Alarm where
  monitor : Fin 128
  atlas   : Bool
  luna    : Bool
  high    : Bool
  after   : Nat := 0
  machine : Fin 6 := 0
  code    : BitVec 16 := 0
deriving DecidableEq, Repr

/-- The measurements of an operating hour (R444, R456, R470, R471): the slowdown of each cluster's ring oscillator in ppm,
the voltage drop of the bank in mV and its voltage, the charge in µAh drawn from the cell since the last report and its
mean current, the converter temperatures, and the one-minute means of the four sensors in each minute of the hour, four bytes as in
PWR_CONV. -/
structure HourReport where
  drift   : List Nat
  dropMv  : Nat
  volt    : BitVec 16
  cellUse : Nat
  cell    : BitVec 16
  conv    : BitVec 32
  minutes : List (BitVec 32)
deriving DecidableEq, Repr

/-- The higher of two temperatures in two's complement. -/
def hotter (a b : BitVec 8) : BitVec 8 := if a.slt b then b else a

/-- T of indicator 21: the highest one-minute mean of any of the four sensors in the hour (R471). -/
def HourReport.hottest (r : HourReport) : BitVec 8 :=
  (r.minutes.flatMap (fun m => (List.range 4).map (fun i => m.extractLsb' (8 * i) 8))).foldl hotter 0x80

/-- The opcodes of Amiuri messages (R90, Table 3.10 and the opcode chapters), one for each message row. -/
inductive Op where
  | nop
  | flowOpen
  | flowClose
  | cancel
  | ecbEncrypt
  | ecbDecrypt
  | cbcEncrypt
  | cbcDecrypt
  | cfbEncrypt
  | cfbDecrypt
  | ofbCrypt
  | ctrCrypt
  | xtsEncrypt
  | xtsDecrypt
  | gcmEncrypt
  | gcmDecrypt
  | ccmEncrypt
  | ccmDecrypt
  | dataWrap
  | dataUnwrap
  | cmacGenerate
  | cmacVerify
  | iso9797Generate
  | iso9797Verify
  | sha224
  | sha256
  | sha384
  | sha512
  | sha3_224
  | sha3_256
  | sha3_384
  | sha3_512
  | shake128
  | shake256
  | hmacGenerate
  | hmacVerify
  | digestResult
  | rsaSign
  | rsaVerify
  | rsaEncrypt
  | rsaDecrypt
  | ecdsaSign
  | ecdsaVerify
  | ecdh
  | x25519
  | ed25519Sign
  | ed25519Verify
  | mlkemEncaps
  | mlkemDecaps
  | mldsaSign
  | mldsaVerify
  | randomGenerate
  | randomReseed
  | objectInfo
  | objectDelete
  | objectRestrict
  | vaultUsage
  | keyGenerate
  | keyUpdate
  | receiveKeyGet
  | keyComponent
  | keyExport
  | keyRestore
  | publicKeyGet
  | identityGet
  | pinTranslate
  | pinVerify
  | pinReference
  | dukptInitialKey
  | dukptMac
  | dukptCrypt
  | keyBlockWrap
  | keyBlockCheck
  | keyBlockTranslate
  | tandemBegin
  | tandemSign
  | tandemStatus
  | domainInfo
  | policySet
  | rosterSet
  | domainPurge
  | domainCreate
  | domainDelete
  | domainQuota
  | ledgerChainOpen
  | ledgerPost
  | ledgerCheckpoint
  | ledgerStatus
  | ledgerCheckpointGet
  | ledgerChainClose
  | instanceBind
  | instanceUnbind
  | instanceQuota
  | imageWrite
  | imageAccept
  | recorderRead
  | recorderFreeze
  | lcTransition
  | debugAuthorize
  | healthRead
  | zrmRecord
  | labelSet
  | labelDelete
  | labelLookup
deriving DecidableEq, Repr

/-- The 16-bit OPCODE of each message (R64, R90). -/
def Op.code : Op → BitVec 16
  | .nop => 0x0100
  | .flowOpen => 0x0101
  | .flowClose => 0x0102
  | .cancel => 0x0110
  | .ecbEncrypt => 0x0201
  | .ecbDecrypt => 0x0202
  | .cbcEncrypt => 0x0203
  | .cbcDecrypt => 0x0204
  | .cfbEncrypt => 0x0205
  | .cfbDecrypt => 0x0206
  | .ofbCrypt => 0x0207
  | .ctrCrypt => 0x0208
  | .xtsEncrypt => 0x0209
  | .xtsDecrypt => 0x020A
  | .gcmEncrypt => 0x0210
  | .gcmDecrypt => 0x0211
  | .ccmEncrypt => 0x0212
  | .ccmDecrypt => 0x0213
  | .dataWrap => 0x0220
  | .dataUnwrap => 0x0221
  | .cmacGenerate => 0x0230
  | .cmacVerify => 0x0231
  | .iso9797Generate => 0x0232
  | .iso9797Verify => 0x0233
  | .sha224 => 0x0301
  | .sha256 => 0x0302
  | .sha384 => 0x0303
  | .sha512 => 0x0304
  | .sha3_224 => 0x0305
  | .sha3_256 => 0x0306
  | .sha3_384 => 0x0307
  | .sha3_512 => 0x0308
  | .shake128 => 0x0309
  | .shake256 => 0x030A
  | .hmacGenerate => 0x0310
  | .hmacVerify => 0x0311
  | .digestResult => 0x0330
  | .rsaSign => 0x0401
  | .rsaVerify => 0x0402
  | .rsaEncrypt => 0x0403
  | .rsaDecrypt => 0x0404
  | .ecdsaSign => 0x0410
  | .ecdsaVerify => 0x0411
  | .ecdh => 0x0412
  | .x25519 => 0x0420
  | .ed25519Sign => 0x0421
  | .ed25519Verify => 0x0422
  | .mlkemEncaps => 0x0430
  | .mlkemDecaps => 0x0431
  | .mldsaSign => 0x0440
  | .mldsaVerify => 0x0441
  | .randomGenerate => 0x0501
  | .randomReseed => 0x0502
  | .objectInfo => 0x0601
  | .objectDelete => 0x0602
  | .objectRestrict => 0x0603
  | .vaultUsage => 0x0604
  | .keyGenerate => 0x0610
  | .keyUpdate => 0x0611
  | .receiveKeyGet => 0x0612
  | .keyComponent => 0x0613
  | .keyExport => 0x0614
  | .keyRestore => 0x0615
  | .publicKeyGet => 0x0616
  | .identityGet => 0x0617
  | .pinTranslate => 0x0701
  | .pinVerify => 0x0702
  | .pinReference => 0x0703
  | .dukptInitialKey => 0x0710
  | .dukptMac => 0x0711
  | .dukptCrypt => 0x0712
  | .keyBlockWrap => 0x0720
  | .keyBlockCheck => 0x0721
  | .keyBlockTranslate => 0x0722
  | .tandemBegin => 0x0801
  | .tandemSign => 0x0802
  | .tandemStatus => 0x0803
  | .domainInfo => 0x0810
  | .policySet => 0x0811
  | .rosterSet => 0x0812
  | .domainPurge => 0x0813
  | .domainCreate => 0x0820
  | .domainDelete => 0x0821
  | .domainQuota => 0x0822
  | .ledgerChainOpen => 0x0901
  | .ledgerPost => 0x0902
  | .ledgerCheckpoint => 0x0903
  | .ledgerStatus => 0x0904
  | .ledgerCheckpointGet => 0x0905
  | .ledgerChainClose => 0x0906
  | .instanceBind => 0x0A01
  | .instanceUnbind => 0x0A02
  | .instanceQuota => 0x0A03
  | .imageWrite => 0x0A10
  | .imageAccept => 0x0A11
  | .recorderRead => 0x0A20
  | .recorderFreeze => 0x0A21
  | .lcTransition => 0x0A30
  | .debugAuthorize => 0x0A31
  | .healthRead => 0x0A40
  | .zrmRecord => 0x0F01
  | .labelSet => 0x0F02
  | .labelDelete => 0x0F03
  | .labelLookup => 0x0F04

/-- A cell with every field zero, for the records that need one. -/
def Cell.empty : Cell :=
  { version := 0, flags := 0, opcode := 0, tag := 0, inLen := 0, outCap := 0, sglAddr := 0, sglCount := 0,
    flowId := 0, keyA := 0, keyB := 0, rsvd := 0, area := [] }

/-- A message with an empty cell. -/
def Msg.empty : Msg := { inst := 0, cell := Cell.empty, sgl := [], sglErr := none, input := [] }

/-- The commands of spec/opcode_table.json, one constructor for each row. -/
inductive Instr where
  /-- POWER_UP (R368). -/
  | powerUp (env : BootEnv)
  /-- UNDERVOLTAGE_LOCKOUT (R370). -/
  | undervoltageLockout
  /-- LINK_READY (R368). -/
  | linkReady (link : LinkParams)
  /-- SERVICE_READY (R368). -/
  | serviceReady
  /-- BANK_CHARGED (R465). -/
  | bankCharged
  /-- INPUT_LOSS (R472). -/
  | inputLoss (completes : HoldUp) (time : BitVec 16)
  /-- CFG_CTL_COLD (R385). -/
  | cfgCtlCold (value : BitVec 32) (env : BootEnv)
  /-- COLD_RST_PIN (R477). -/
  | coldRstPin (ms : Nat)
  /-- PERST (R476). -/
  | perst (us : Nat)
  /-- SURPRISE_LINK_LOSS (R54). -/
  | surpriseLinkLoss
  /-- HOT_RESET (R54). -/
  | hotReset
  /-- IDE_CHECK_FAILURE (R38). -/
  | ideCheckFailure (cache : Bool)
  /-- SPDM_REQUEST (R37). -/
  | spdmRequest (req : SpdmReq)
  /-- IDE_KM (R38). -/
  | ideKm (cache : Bool) (key : Bytes)
  /-- CACHE_ENABLE (R33). -/
  | cacheEnable (on : Bool)
  /-- NUMVFS_WRITE (R36). -/
  | numvfsWrite (n : Nat)
  /-- VF_ENABLE (R36). -/
  | vfEnable (ari : Bool)
  /-- VF_DISABLE (R36). -/
  | vfDisable
  /-- POWER_STATE_CHANGE (R35). -/
  | powerStateChange (inst : Fin 256) (d3hot : Bool)
  /-- INITIATE_FLR (R49). -/
  | initiateFlr (inst : Fin 256)
  /-- FLR_DRAIN_COMPLETE (R49). -/
  | flrDrainComplete (inst : Fin 256)
  /-- PF_FLR (R51). -/
  | pfFlr
  /-- PROTOCOL_VIOLATION (R46). -/
  | protocolViolation (inst : Fin 256) (kind : ViolKind) (addr : BitVec 64)
  /-- DMA_ERROR (R47). -/
  | dmaError (target : DmaTarget)
  /-- SNOOP (R43). -/
  | snoop (inst : Fin 256) (invalidates : Bool)
  /-- TAIL_LINE_READ (R59). -/
  | tailLineRead (inst : Fin 256) (sqTail cqHead : BitVec 16)
  /-- TAIL_LINE_POLL (R43). -/
  | tailLinePoll
  /-- GO_ERR (R44). -/
  | goErr (inst : Fin 256)
  /-- VF_SQ_DB (R44). -/
  | vfSqDb (inst : Fin 256) (value : BitVec 32)
  /-- VF_CQ_DB (R59). -/
  | vfCqDb (inst : Fin 256) (value : BitVec 32)
  /-- RING_ENABLE (R41). -/
  | ringEnable (inst : Fin 256)
  /-- RING_DISABLE (R41). -/
  | ringDisable (inst : Fin 256)
  /-- RING_DRAINED (R41). -/
  | ringDrained (inst : Fin 256)
  /-- DIRTY_LOG_ENABLE (R52). -/
  | dirtyLogEnable (inst : Fin 256) (on : Bool)
  /-- SWAP (R53). -/
  | swap (inst : Fin 256)
  /-- LNK_VIOL_CLR_ALL (R56). -/
  | lnkViolClrAll
  /-- LNK_VIOL_CLR_INSTANCE (R56). -/
  | lnkViolClrInstance (inst : Fin 256)
  /-- COUNTER_PAIR_READ (R15). -/
  | counterPairRead (inst : Fin 256) (r : RegRead)
  /-- REGISTER_WRITE (R16). -/
  | registerWrite (w : RegWrite)
  /-- PRS_USER_WRITE (R384). -/
  | prsUserWrite (i : Fin 8) (value : BitVec 32)
  /-- RETEST (R225). -/
  | retest
  /-- CHECKPOINT (R270). -/
  | checkpoint
  /-- DBG_CLOSE (R406). -/
  | dbgClose
  /-- RECOMMISSION (R427). -/
  | recommission (value : BitVec 32)
  /-- ACTIVATE (R435). -/
  | activate (unit : Fin 21) (master : Master)
  /-- CLOSE (R436). -/
  | close (unit : Fin 21) (master : Master)
  /-- ACU_CAPTURE_CLEAR (R439). -/
  | acuCaptureClear (unit : Fin 21) (captureNow : Option Access)
  /-- RECOMPUTE (R457). -/
  | recompute (report : HourReport)
  /-- CELL_NEW (R459). -/
  | cellNew
  /-- MEASURE (R470). -/
  | measure (dropMv : Nat) (volt : BitVec 16)
  /-- ACCESS_VIOLATION (R433). -/
  | accessViolation (a : Access)
  /-- DEBUG_ACCESS (R404). -/
  | debugAccess (kind : AccKind) (start : BitVec 48) (len : Nat)
  /-- SMB_STATUS (R479). -/
  | smbStatus
  /-- SMB_INPUT_VOLTAGE (R479). -/
  | smbInputVoltage
  /-- SMB_INPUT_POWER (R479). -/
  | smbInputPower
  /-- SMB_FABRIC_TEMPERATURE (R479). -/
  | smbFabricTemperature
  /-- SMB_CONTROL_TEMPERATURE (R479). -/
  | smbControlTemperature
  /-- SMB_BANK_ENERGY (R479). -/
  | smbBankEnergy
  /-- SMB_EOL (R479). -/
  | smbEol
  /-- SMB_INCIDENT (R479). -/
  | smbIncident
  /-- NOP (R90). -/
  | nop (m : Msg)
  /-- FLOW_OPEN (R98). -/
  | flowOpen (m : Msg)
  /-- FLOW_CLOSE (R102). -/
  | flowClose (m : Msg)
  /-- CANCEL (R88). -/
  | cancel (m : Msg)
  /-- ECB_ENCRYPT (R138). -/
  | ecbEncrypt (m : Msg)
  /-- ECB_DECRYPT (R136). -/
  | ecbDecrypt (m : Msg)
  /-- CBC_ENCRYPT (R138). -/
  | cbcEncrypt (m : Msg)
  /-- CBC_DECRYPT (R136). -/
  | cbcDecrypt (m : Msg)
  /-- CFB_ENCRYPT (R138). -/
  | cfbEncrypt (m : Msg)
  /-- CFB_DECRYPT (R138). -/
  | cfbDecrypt (m : Msg)
  /-- OFB_CRYPT (R138). -/
  | ofbCrypt (m : Msg)
  /-- CTR_CRYPT (R143). -/
  | ctrCrypt (m : Msg)
  /-- XTS_ENCRYPT (R144). -/
  | xtsEncrypt (m : Msg)
  /-- XTS_DECRYPT (R144). -/
  | xtsDecrypt (m : Msg)
  /-- GCM_ENCRYPT (R145). -/
  | gcmEncrypt (m : Msg)
  /-- GCM_DECRYPT (R149). -/
  | gcmDecrypt (m : Msg)
  /-- CCM_ENCRYPT (R145). -/
  | ccmEncrypt (m : Msg)
  /-- CCM_DECRYPT (R149). -/
  | ccmDecrypt (m : Msg)
  /-- DATA_WRAP (R146). -/
  | dataWrap (m : Msg)
  /-- DATA_UNWRAP (R146). -/
  | dataUnwrap (m : Msg)
  /-- CMAC_GENERATE (R147). -/
  | cmacGenerate (m : Msg)
  /-- CMAC_VERIFY (R148). -/
  | cmacVerify (m : Msg)
  /-- ISO9797_GENERATE (R147). -/
  | iso9797Generate (m : Msg)
  /-- ISO9797_VERIFY (R148). -/
  | iso9797Verify (m : Msg)
  /-- SHA224 (R176). -/
  | sha224 (m : Msg)
  /-- SHA256 (R176). -/
  | sha256 (m : Msg)
  /-- SHA384 (R176). -/
  | sha384 (m : Msg)
  /-- SHA512 (R176). -/
  | sha512 (m : Msg)
  /-- SHA3_224 (R176). -/
  | sha3_224 (m : Msg)
  /-- SHA3_256 (R176). -/
  | sha3_256 (m : Msg)
  /-- SHA3_384 (R176). -/
  | sha3_384 (m : Msg)
  /-- SHA3_512 (R176). -/
  | sha3_512 (m : Msg)
  /-- SHAKE128 (R176). -/
  | shake128 (m : Msg)
  /-- SHAKE256 (R176). -/
  | shake256 (m : Msg)
  /-- HMAC_GENERATE (R183). -/
  | hmacGenerate (m : Msg)
  /-- HMAC_VERIFY (R180). -/
  | hmacVerify (m : Msg)
  /-- DIGEST_RESULT (R182). -/
  | digestResult (m : Msg)
  /-- RSA_SIGN (R202). -/
  | rsaSign (m : Msg)
  /-- RSA_VERIFY (R202). -/
  | rsaVerify (m : Msg)
  /-- RSA_ENCRYPT (R202). -/
  | rsaEncrypt (m : Msg)
  /-- RSA_DECRYPT (R201). -/
  | rsaDecrypt (m : Msg)
  /-- ECDSA_SIGN (R202). -/
  | ecdsaSign (m : Msg)
  /-- ECDSA_VERIFY (R202). -/
  | ecdsaVerify (m : Msg)
  /-- ECDH (R203). -/
  | ecdh (m : Msg)
  /-- X25519 (R203). -/
  | x25519 (m : Msg)
  /-- ED25519_SIGN (R202). -/
  | ed25519Sign (m : Msg)
  /-- ED25519_VERIFY (R202). -/
  | ed25519Verify (m : Msg)
  /-- MLKEM_ENCAPS (R203). -/
  | mlkemEncaps (m : Msg)
  /-- MLKEM_DECAPS (R203). -/
  | mlkemDecaps (m : Msg)
  /-- MLDSA_SIGN (R206). -/
  | mldsaSign (m : Msg)
  /-- MLDSA_VERIFY (R202). -/
  | mldsaVerify (m : Msg)
  /-- RANDOM_GENERATE (R228). -/
  | randomGenerate (m : Msg)
  /-- RANDOM_RESEED (R229). -/
  | randomReseed (m : Msg)
  /-- OBJECT_INFO (R265). -/
  | objectInfo (m : Msg)
  /-- OBJECT_DELETE (R266). -/
  | objectDelete (m : Msg)
  /-- OBJECT_RESTRICT (R267). -/
  | objectRestrict (m : Msg)
  /-- VAULT_USAGE (R268). -/
  | vaultUsage (m : Msg)
  /-- KEY_GENERATE (R286). -/
  | keyGenerate (m : Msg)
  /-- KEY_UPDATE (R291). -/
  | keyUpdate (m : Msg)
  /-- RECEIVE_KEY_GET (R288). -/
  | receiveKeyGet (m : Msg)
  /-- KEY_COMPONENT (R295). -/
  | keyComponent (m : Msg)
  /-- KEY_EXPORT (R297). -/
  | keyExport (m : Msg)
  /-- KEY_RESTORE (R298). -/
  | keyRestore (m : Msg)
  /-- PUBLIC_KEY_GET (R287). -/
  | publicKeyGet (m : Msg)
  /-- IDENTITY_GET (R287). -/
  | identityGet (m : Msg)
  /-- PIN_TRANSLATE (R330). -/
  | pinTranslate (m : Msg)
  /-- PIN_VERIFY (R332). -/
  | pinVerify (m : Msg)
  /-- PIN_REFERENCE (R332). -/
  | pinReference (m : Msg)
  /-- DUKPT_INITIAL_KEY (R338). -/
  | dukptInitialKey (m : Msg)
  /-- DUKPT_MAC (R337). -/
  | dukptMac (m : Msg)
  /-- DUKPT_CRYPT (R337). -/
  | dukptCrypt (m : Msg)
  /-- KEY_BLOCK_WRAP (R340). -/
  | keyBlockWrap (m : Msg)
  /-- KEY_BLOCK_CHECK (R342). -/
  | keyBlockCheck (m : Msg)
  /-- KEY_BLOCK_TRANSLATE (R342). -/
  | keyBlockTranslate (m : Msg)
  /-- TANDEM_BEGIN (R309). -/
  | tandemBegin (m : Msg)
  /-- TANDEM_SIGN (R312). -/
  | tandemSign (m : Msg)
  /-- TANDEM_STATUS (R312). -/
  | tandemStatus (m : Msg)
  /-- DOMAIN_INFO (R323). -/
  | domainInfo (m : Msg)
  /-- POLICY_SET (R317). -/
  | policySet (m : Msg)
  /-- ROSTER_SET (R319). -/
  | rosterSet (m : Msg)
  /-- DOMAIN_PURGE (R320). -/
  | domainPurge (m : Msg)
  /-- DOMAIN_CREATE (R321). -/
  | domainCreate (m : Msg)
  /-- DOMAIN_DELETE (R321). -/
  | domainDelete (m : Msg)
  /-- DOMAIN_QUOTA (R322). -/
  | domainQuota (m : Msg)
  /-- LEDGER_CHAIN_OPEN (R345). -/
  | ledgerChainOpen (m : Msg)
  /-- LEDGER_POST (R346). -/
  | ledgerPost (m : Msg)
  /-- LEDGER_CHECKPOINT (R347). -/
  | ledgerCheckpoint (m : Msg)
  /-- LEDGER_STATUS (R351). -/
  | ledgerStatus (m : Msg)
  /-- LEDGER_CHECKPOINT_GET (R347). -/
  | ledgerCheckpointGet (m : Msg)
  /-- LEDGER_CHAIN_CLOSE (R348). -/
  | ledgerChainClose (m : Msg)
  /-- INSTANCE_BIND (R304). -/
  | instanceBind (m : Msg)
  /-- INSTANCE_UNBIND (R305). -/
  | instanceUnbind (m : Msg)
  /-- INSTANCE_QUOTA (R119). -/
  | instanceQuota (m : Msg)
  /-- IMAGE_WRITE (R380). -/
  | imageWrite (m : Msg)
  /-- IMAGE_ACCEPT (R382). -/
  | imageAccept (m : Msg)
  /-- RECORDER_READ (R455). -/
  | recorderRead (m : Msg)
  /-- RECORDER_FREEZE (R451). -/
  | recorderFreeze (m : Msg)
  /-- LC_TRANSITION (R393). -/
  | lcTransition (m : Msg)
  /-- DEBUG_AUTHORIZE (R405). -/
  | debugAuthorize (m : Msg)
  /-- HEALTH_READ (R460). -/
  | healthRead (m : Msg)
  /-- ZRM_RECORD (R361). -/
  | zrmRecord (m : Msg)
  /-- LABEL_SET (R365). -/
  | labelSet (m : Msg)
  /-- LABEL_DELETE (R365). -/
  | labelDelete (m : Msg)
  /-- LABEL_LOOKUP (R365). -/
  | labelLookup (m : Msg)
  /-- TEMPLATE_BUILD_COMPLETE (R104). -/
  | templateBuildComplete (inst : Fin 256) (op : Op) (keyA keyB : BitVec 40)
  /-- NEGATIVE_TEMPLATE_EXPIRY (R105). -/
  | negativeTemplateExpiry (inst : Fin 256) (op : Op) (keyA keyB : BitVec 40)
  /-- LAP_COMPLETE (R25). -/
  | lapComplete (engine : Fin 192)
  /-- PK_OPERATION_COMPLETE (R192). -/
  | pkOperationComplete (engine : Fin 192)
  /-- FREEWHEEL_ENTRY (R124). -/
  | freewheelEntry (cluster : Fin 16)
  /-- CLUSTER_FAULT (R28). -/
  | clusterFault (cluster : Fin 16) (cause : FaultCause) (engine : Option (Fin 192))
  /-- HUB_FAULT (R27). -/
  | hubFault (hub : Fin 4)
  /-- HUB_RESET_COMPLETE (R22). -/
  | hubResetComplete (hub : Fin 4)
  /-- SPOKE_FAULT (R27). -/
  | spokeFault (hubA hubB : Fin 4)
  /-- CONTROL_PAIR_RESTART (R23). -/
  | controlPairRestart
  /-- CONTROL_RESTART_COMPLETE (R23). -/
  | controlRestartComplete
  /-- PROGRAM_STORE_SCRUB (R161). -/
  | programStoreScrub (cluster : Fin 16) (corrected : Nat) (uncorrectable : Bool)
  /-- THROTTLE_EVALUATION (R468). -/
  | throttleEvaluation (fabric control : Int) (power : InputSample)
  /-- NOISE_WINDOW (R216). -/
  | noiseWindow (cells : List (Nat × Nat)) (katPass : Bool)
  /-- OSCILLATOR_RESTART (R224). -/
  | oscillatorRestart
  /-- CONDITIONED_BLOCK (R217). -/
  | conditionedBlock (raw : Bytes)
  /-- DRBG_RESEED_DUE (R219). -/
  | drbgReseedDue (gen : Fin 260)
  /-- QUEUE_REFILL (R221). -/
  | queueRefill (gen : Fin 260)
  /-- RNG_WAIT_EXPIRY (R223). -/
  | rngWaitExpiry (msg : Nat)
  /-- VAULT_READ_COMPLETE (R249). -/
  | vaultReadComplete (handle : BitVec 40) (result : VaultRead)
  /-- BATCH_CLOSE (R246). -/
  | batchClose
  /-- COMMIT_SWITCH (R246). -/
  | commitSwitch (result : BatchEnd)
  /-- VAULT_CONTROLLER_RESTART (R248). -/
  | vaultControllerRestart
  /-- VAULT_MOUNT (R257). -/
  | vaultMount (result : MountRead)
  /-- GARBAGE_COLLECTION (R260). -/
  | garbageCollection (refresh : List Nat)
  /-- SUPERSEDED_ERASE (R261). -/
  | supersededErase (count : Nat)
  /-- QDR_ERROR (R254). -/
  | qdrError (hit : QdrHit)
  /-- QDR_SCRUB_COMPLETE (R255). -/
  | qdrScrubComplete
  /-- TANDEM_EXPIRY (R313). -/
  | tandemExpiry (tid : BitVec 32)
  /-- COMPONENT_SESSION_EXPIRY (R296). -/
  | componentSessionExpiry (inst : Fin 256)
  /-- TAMPER_ALARM (R417). -/
  | tamperAlarm (alarm : Alarm)
  /-- MONITOR_DISAGREEMENT (R412). -/
  | monitorDisagreement (monitor : Fin 128) (atlasAlarmed : Bool)
  /-- INCIDENT_END (R422). -/
  | incidentEnd
  /-- RECORDER_BATCH_CLOSE (R448). -/
  | recorderBatchClose
  /-- FREEZE_EXPIRY (R451). -/
  | freezeExpiry
  /-- OPERATING_HOUR (R444). -/
  | operatingHour (report : HourReport)
  /-- PRF_COUNT_SAVE (R384). -/
  | prfCountSave
  /-- PERST_DEASSERTION (R476). -/
  | perstDeassertion
  /-- COLD_RST_RELEASE (R477). -/
  | coldRstRelease (env : BootEnv)
  /-- UNDERVOLTAGE_EVENT (R469). -/
  | undervoltageEvent
  /-- CELL_FITTED (R480). -/
  | cellFitted
  /-- GENERATE_CALL_COMPLETE (R221). -/
  | generateCallComplete (msg : Nat)
  /-- UNPARK_COMPLETE (R466). -/
  | unparkComplete (cluster : Fin 16) (pass : Bool)
deriving DecidableEq, Repr

end Sys2Proof
end

