-- ==== Sys2Proof/WellFormed.lean ====
section
/-! DEFINITION. Which commands are well formed: the operands a row of spec/opcode_table.json can carry. exec gives every
command a meaning; a command that is not well formed is one that no sender can send. -/

namespace Sys2Proof

/-- A fetched message as the hardware can read it: 24 bytes of AREA (R64), continuation cells holding exactly IN_LEN
bytes when INLINE_IN is set (R66), and the list read in whole unless its read failed (R82). -/
def Msg.wf (m : Msg) : Bool :=
  m.cell.area.length == 24 && (!m.cell.flags.getLsbD 1 || m.cell.inLen.toNat > 256 || m.input.length == m.cell.inLen.toNat)
    && (m.sglErr.isSome || m.sgl.length == m.cell.sglCount.toNat || m.cell.sglCount.toNat > 4096)

/-- Only an IMAGE_WRITE programs flash, and its chunk is read back whole (R380). -/
def Msg.norWf (op : Op) (m : Msg) : Bool :=
  match m.nor with
  | .kept => true
  | .reads b => op == .imageWrite && b.length == m.cell.inLen.toNat
  | .lasts => op == .imageWrite

/-- Only an LC_TRANSITION measures the bank, and a measurement drops it (R470). -/
def Msg.bankWf (op : Op) (m : Msg) : Bool :=
  match m.bank with
  | some b => op == .lcTransition && 0 < b.drop
  | none => true

/-- Monitor 120 names a machine, and no other monitor does (R415). -/
def Alarm.wf (a : Alarm) : Bool := if a.monitor == 120 then a.machine != 0 else a.machine == 0 && a.code == 0

/-- Only a DEBUG_AUTHORIZE comes over the UART: the two commands carry what its mode byte, its SCOPE and its input are (R405). -/
def Msg.uartWf (op : Op) (m : Msg) : Bool := !m.uart || (op == .debugAuthorize && m.inst == 0 && m.input.length == m.cell.inLen.toNat)

/-- A message whose cell carries the row's opcode. -/
def Msg.wfFor (op : Op) (m : Msg) : Bool := m.wf && m.cell.opcode == op.code && m.norWf op && m.bankWf op && m.uartWf op

/-- The opcodes of the message rows (R90). -/
def Op.all : List Op :=
  [.nop, .flowOpen, .flowClose, .cancel, .ecbEncrypt, .ecbDecrypt, .cbcEncrypt, .cbcDecrypt, .cfbEncrypt,
   .cfbDecrypt, .ofbCrypt, .ctrCrypt, .xtsEncrypt, .xtsDecrypt, .gcmEncrypt, .gcmDecrypt, .ccmEncrypt,
   .ccmDecrypt, .dataWrap, .dataUnwrap, .cmacGenerate, .cmacVerify, .iso9797Generate, .iso9797Verify,
   .sha224, .sha256, .sha384, .sha512, .sha3_224, .sha3_256, .sha3_384, .sha3_512, .shake128, .shake256,
   .hmacGenerate, .hmacVerify, .digestResult, .rsaSign, .rsaVerify, .rsaEncrypt, .rsaDecrypt, .ecdsaSign,
   .ecdsaVerify, .ecdh, .x25519, .ed25519Sign, .ed25519Verify, .mlkemEncaps, .mlkemDecaps, .mldsaSign,
   .mldsaVerify, .randomGenerate, .randomReseed, .objectInfo, .objectDelete, .objectRestrict, .vaultUsage,
   .keyGenerate, .keyUpdate, .receiveKeyGet, .keyComponent, .keyExport, .keyRestore, .publicKeyGet,
   .identityGet, .pinTranslate, .pinVerify, .pinReference, .dukptInitialKey, .dukptMac, .dukptCrypt,
   .keyBlockWrap, .keyBlockCheck, .keyBlockTranslate, .tandemBegin, .tandemSign, .tandemStatus,
   .domainInfo, .policySet, .rosterSet, .domainPurge, .domainCreate, .domainDelete, .domainQuota,
   .ledgerChainOpen, .ledgerPost, .ledgerCheckpoint, .ledgerStatus, .ledgerCheckpointGet,
   .ledgerChainClose, .instanceBind, .instanceUnbind, .instanceQuota, .imageWrite, .imageAccept,
   .recorderRead, .recorderFreeze, .lcTransition, .debugAuthorize, .healthRead, .zrmRecord, .labelSet,
   .labelDelete, .labelLookup]

/-- The opcode value names no member of R90. -/
def Op.unknown (c : BitVec 16) : Bool := Op.all.all (fun o => o.code != c)

/-- The levels that the master of a unit issues (Table 18.1). -/
def unitLevels (u : Fin 21) : List Nat :=
  match u.val with
  | 0 => [0]
  | 1 => [1, 2]
  | 2 => [1]
  | 3 => [2, 3]
  | 20 => [1, 2]
  | _ => [3]

/-- An access of 1 to 256 bytes (R433) at a level that the unit's master issues; units 0 and 1 alone fetch (R429). -/
def Access.wf (a : Access) : Bool :=
  1 ≤ a.len && a.len ≤ 256 && (unitLevels a.unit).contains a.level.val && (a.kind != .fetch || a.unit.val ≤ 1)

/-- A master at a level that it issues (R429). -/
def Master.wf (m : Master) : Bool :=
  match m with
  | .unit u l => (unitLevels u).contains l.val
  | _ => true

/-- The report of an operating hour names all 16 clusters, and the bank's voltage falls (R456, R470). -/
def HourReport.wf (r : HourReport) : Bool := r.drift.length == 16 && 0 < r.dropMv && r.minutes.length == 60

/-- The operands a sender of the command can give. -/
def Instr.wf : Instr → Bool
  | .powerUp _ => true
  | .undervoltageLockout => true
  | .linkReady link =>
    (link.width.val == 1 || link.width.val == 2 || link.width.val == 4 || link.width.val == 8) && 1 ≤ link.rate.val
      && (!link.cxl || 3 ≤ link.rate.val)
  | .serviceReady => true
  | .bankCharged => true
  | .inputLoss _ _ => true
  | .cfgCtlCold _ _ => true
  | .coldRstPin _ => true
  | .perst _ => true
  | .surpriseLinkLoss => true
  | .hotReset => true
  | .ideCheckFailure _ => true
  | .spdmRequest req => 4 ≤ req.message.length
  | .ideKm _ key => key.length == 32
  | .cacheEnable _ => true
  | .numvfsWrite n => n < 65536
  | .vfEnable _ => true
  | .vfDisable => true
  | .powerStateChange _ _ => true
  | .initiateFlr _ => true
  | .flrDrainComplete _ => true
  | .pfFlr => true
  | .protocolViolation _ _ _ => true
  | .dmaError _ => true
  | .snoop _ _ => true
  | .tailLineRead _ _ _ => true
  | .tailLinePoll => true
  | .goErr _ => true
  | .vfSqDb _ _ => true
  | .vfCqDb _ _ => true
  | .ringEnable _ => true
  | .ringDisable _ => true
  | .ringDrained _ => true
  | .dirtyLogEnable _ _ => true
  | .swap _ => true
  | .lnkViolClrAll => true
  | .lnkViolClrInstance _ => true
  | .counterPairRead _ r => r.size == 1 || r.size == 2 || r.size == 4 || r.size == 8
  | .registerWrite w => (w.size == 1 || w.size == 2 || w.size == 4 || w.size == 8) && w.master.wf && w.capture.all Access.wf
  | .prsUserWrite _ _ => true
  | .retest => true
  | .checkpoint => true
  | .dbgClose => true
  | .recommission _ => true
  | .activate _ master => master.wf
  | .close _ master => master.wf
  | .acuCaptureClear _ captureNow => captureNow.all Access.wf
  | .recompute report => report.wf
  | .cellNew => true
  | .measure _ _ => true
  | .accessViolation a => a.wf
  | .debugAccess kind _ len => kind != .fetch && 1 ≤ len && len ≤ 256
  | .smbStatus => true
  | .smbInputVoltage => true
  | .smbInputPower => true
  | .smbFabricTemperature => true
  | .smbControlTemperature => true
  | .smbBankEnergy => true
  | .smbEol => true
  | .smbIncident => true
  | .nop m => m.wf && m.norWf .nop && m.bankWf .nop && m.uartWf .nop && (m.cell.opcode == Op.nop.code || Op.unknown m.cell.opcode)
  | .flowOpen m => m.wfFor .flowOpen
  | .flowClose m => m.wfFor .flowClose
  | .cancel m => m.wfFor .cancel
  | .ecbEncrypt m => m.wfFor .ecbEncrypt
  | .ecbDecrypt m => m.wfFor .ecbDecrypt
  | .cbcEncrypt m => m.wfFor .cbcEncrypt
  | .cbcDecrypt m => m.wfFor .cbcDecrypt
  | .cfbEncrypt m => m.wfFor .cfbEncrypt
  | .cfbDecrypt m => m.wfFor .cfbDecrypt
  | .ofbCrypt m => m.wfFor .ofbCrypt
  | .ctrCrypt m => m.wfFor .ctrCrypt
  | .xtsEncrypt m => m.wfFor .xtsEncrypt
  | .xtsDecrypt m => m.wfFor .xtsDecrypt
  | .gcmEncrypt m => m.wfFor .gcmEncrypt
  | .gcmDecrypt m => m.wfFor .gcmDecrypt
  | .ccmEncrypt m => m.wfFor .ccmEncrypt
  | .ccmDecrypt m => m.wfFor .ccmDecrypt
  | .dataWrap m => m.wfFor .dataWrap
  | .dataUnwrap m => m.wfFor .dataUnwrap
  | .cmacGenerate m => m.wfFor .cmacGenerate
  | .cmacVerify m => m.wfFor .cmacVerify
  | .iso9797Generate m => m.wfFor .iso9797Generate
  | .iso9797Verify m => m.wfFor .iso9797Verify
  | .sha224 m => m.wfFor .sha224
  | .sha256 m => m.wfFor .sha256
  | .sha384 m => m.wfFor .sha384
  | .sha512 m => m.wfFor .sha512
  | .sha3_224 m => m.wfFor .sha3_224
  | .sha3_256 m => m.wfFor .sha3_256
  | .sha3_384 m => m.wfFor .sha3_384
  | .sha3_512 m => m.wfFor .sha3_512
  | .shake128 m => m.wfFor .shake128
  | .shake256 m => m.wfFor .shake256
  | .hmacGenerate m => m.wfFor .hmacGenerate
  | .hmacVerify m => m.wfFor .hmacVerify
  | .digestResult m => m.wfFor .digestResult
  | .rsaSign m => m.wfFor .rsaSign
  | .rsaVerify m => m.wfFor .rsaVerify
  | .rsaEncrypt m => m.wfFor .rsaEncrypt
  | .rsaDecrypt m => m.wfFor .rsaDecrypt
  | .ecdsaSign m => m.wfFor .ecdsaSign
  | .ecdsaVerify m => m.wfFor .ecdsaVerify
  | .ecdh m => m.wfFor .ecdh
  | .x25519 m => m.wfFor .x25519
  | .ed25519Sign m => m.wfFor .ed25519Sign
  | .ed25519Verify m => m.wfFor .ed25519Verify
  | .mlkemEncaps m => m.wfFor .mlkemEncaps
  | .mlkemDecaps m => m.wfFor .mlkemDecaps
  | .mldsaSign m => m.wfFor .mldsaSign
  | .mldsaVerify m => m.wfFor .mldsaVerify
  | .randomGenerate m => m.wfFor .randomGenerate
  | .randomReseed m => m.wfFor .randomReseed
  | .objectInfo m => m.wfFor .objectInfo
  | .objectDelete m => m.wfFor .objectDelete
  | .objectRestrict m => m.wfFor .objectRestrict
  | .vaultUsage m => m.wfFor .vaultUsage
  | .keyGenerate m => m.wfFor .keyGenerate
  | .keyUpdate m => m.wfFor .keyUpdate
  | .receiveKeyGet m => m.wfFor .receiveKeyGet
  | .keyComponent m => m.wfFor .keyComponent
  | .keyExport m => m.wfFor .keyExport
  | .keyRestore m => m.wfFor .keyRestore
  | .publicKeyGet m => m.wfFor .publicKeyGet
  | .identityGet m => m.wfFor .identityGet
  | .pinTranslate m => m.wfFor .pinTranslate
  | .pinVerify m => m.wfFor .pinVerify
  | .pinReference m => m.wfFor .pinReference
  | .dukptInitialKey m => m.wfFor .dukptInitialKey
  | .dukptMac m => m.wfFor .dukptMac
  | .dukptCrypt m => m.wfFor .dukptCrypt
  | .keyBlockWrap m => m.wfFor .keyBlockWrap
  | .keyBlockCheck m => m.wfFor .keyBlockCheck
  | .keyBlockTranslate m => m.wfFor .keyBlockTranslate
  | .tandemBegin m => m.wfFor .tandemBegin
  | .tandemSign m => m.wfFor .tandemSign
  | .tandemStatus m => m.wfFor .tandemStatus
  | .domainInfo m => m.wfFor .domainInfo
  | .policySet m => m.wfFor .policySet
  | .rosterSet m => m.wfFor .rosterSet
  | .domainPurge m => m.wfFor .domainPurge
  | .domainCreate m => m.wfFor .domainCreate
  | .domainDelete m => m.wfFor .domainDelete
  | .domainQuota m => m.wfFor .domainQuota
  | .ledgerChainOpen m => m.wfFor .ledgerChainOpen
  | .ledgerPost m => m.wfFor .ledgerPost
  | .ledgerCheckpoint m => m.wfFor .ledgerCheckpoint
  | .ledgerStatus m => m.wfFor .ledgerStatus
  | .ledgerCheckpointGet m => m.wfFor .ledgerCheckpointGet
  | .ledgerChainClose m => m.wfFor .ledgerChainClose
  | .instanceBind m => m.wfFor .instanceBind
  | .instanceUnbind m => m.wfFor .instanceUnbind
  | .instanceQuota m => m.wfFor .instanceQuota
  | .imageWrite m => m.wfFor .imageWrite
  | .imageAccept m => m.wfFor .imageAccept
  | .recorderRead m => m.wfFor .recorderRead
  | .recorderFreeze m => m.wfFor .recorderFreeze
  | .lcTransition m => m.wfFor .lcTransition
  | .debugAuthorize m => m.wfFor .debugAuthorize
  | .healthRead m => m.wfFor .healthRead
  | .zrmRecord m => m.wfFor .zrmRecord
  | .labelSet m => m.wfFor .labelSet
  | .labelDelete m => m.wfFor .labelDelete
  | .labelLookup m => m.wfFor .labelLookup
  | .templateBuildComplete _ _ _ _ => true
  | .negativeTemplateExpiry _ _ _ _ => true
  | .lapComplete _ => true
  | .pkOperationComplete _ => true
  | .freewheelEntry _ => true
  | .clusterFault cluster _ engine => engine.all (fun e => e.val / 12 == cluster.val)
  | .hubFault _ => true
  | .hubResetComplete _ => true
  | .spokeFault hubA hubB => hubA != hubB
  | .controlPairRestart => true
  | .controlRestartComplete => true
  | .programStoreScrub _ _ _ => true
  | .throttleEvaluation _ _ _ => true
  | .noiseWindow cells _ => cells.length == 8
  | .oscillatorRestart => true
  | .conditionedBlock raw => raw.length == 160
  | .drbgReseedDue _ => true
  | .queueRefill _ => true
  | .rngWaitExpiry _ => true
  | .vaultReadComplete _ _ => true
  | .batchClose => true
  | .commitSwitch _ => true
  | .vaultControllerRestart => true
  | .vaultMount _ => true
  | .garbageCollection refresh => refresh.all (· < 557056 * 256)
  | .supersededErase _ => true
  | .qdrError hit => hit.flips.length != 0 && hit.flips.eraseDups.length == hit.flips.length
  | .qdrScrubComplete => true
  | .tandemExpiry _ => true
  | .componentSessionExpiry _ => true
  | .tamperAlarm alarm => alarm.wf
  | .monitorDisagreement _ _ => true
  | .incidentEnd => true
  | .recorderBatchClose => true
  | .freezeExpiry => true
  | .operatingHour report => report.wf
  | .prfCountSave => true
  | .perstDeassertion => true
  | .coldRstRelease _ => true
  | .undervoltageEvent => true
  | .cellFitted => true
  | .generateCallComplete _ => true
  | .unparkComplete _ _ => true

end Sys2Proof
end

