-- ==== Sys2Proof/Config.lean ====
section
/-! DEFINITION. What the specification leaves to the unit or leaves open, as constants with no body: free values and
per-unit identity (log entries 1, 7, 8, 14, 28, 40 and 55). -/

namespace Sys2Proof

/-- QUEUE_WAIT of a completion, in µs (R71): the specification bounds times and fixes none; the counter picks a fresh
value each time. Free value, log 1. -/
opaque Config.freeQueueWait : Nat → BitVec 32

/-- What R193 leaves open of an RSA generation: the bound of the small primes that the sieve divides by, and the base of a
Miller-Rabin round by candidate and round. Free values, log 7. -/
opaque Config.sieveBound : Nat
opaque Config.millerRabinBase : Nat → Nat → Nat

/-- The characters of a PB block of a key block, by their number (R341 gives its length alone). Free value, log 14. -/
opaque Config.padBlockChars : Nat → List Byte

/-- Engine time of the key-block programs by opcode and input length (R342 says it is fixed and gives no figure). Free
value, log 14. -/
opaque Config.keyBlockCycles : Nat → Nat → Nat

/-- Boot ROM digest and Jenaro firmware digest, SPDM measurements 1 and 2 (R37). Per unit, log 8. -/
opaque Config.romDigest : List Byte
opaque Config.firmwareDigest : List Byte

/-- The two image-signing public keys in the boot ROM (R372): ML-DSA-87 and P-384. Per unit, log 8. -/
opaque Config.imageKeyMldsa : List Byte
opaque Config.imageKeyEc : List Byte

/-- Kosuotte's authority keys for the moves of the unit before IMAGO (R391): ML-DSA-87 and P-384. Per unit, log 8. -/
opaque Config.makerKeyMldsa : List Byte
opaque Config.makerKeyEc : List Byte

/-- The link of a batch not yet closed (R455): RECORDER_READ returns l[FIRST - 1] and the specification states none
beyond the newest batch. Free value, log 28. -/
opaque Config.noLink : Nat → List Byte

/-- The signature of a unit with no identity (R455 asks for one; R390 answers the read). Free value, log 28. -/
opaque Config.noSignature : List Byte → List Byte

/-- Where a built-in program begins, how many words it has, and the words of all of them (R160 gives the store's halves and
no program's own figures). Per firmware package, log 8. -/
opaque Config.builtinStart : Nat → BitVec 13
opaque Config.builtinLength : Nat → BitVec 13
opaque Config.builtinWords : BitVec 11

/-- What a triplicated field reads while all three copies differ (R9 gives no value). Free value, log 55. -/
opaque Config.splitField : Nat → Nat → Nat → Nat

/-- Bytes of output that the lap or operation of an engine has written to staging, and bytes of input staged in a cluster for laps that
wait to run, at the moment CLU_STAGE is read (R126 counts both; the specification does not say when they arrive). Free values, log 40. -/
opaque Config.stagedOutput : Nat → Nat → Nat
opaque Config.stagedWaiting : Nat → Nat → Nat

/-- What a bit of a dirty-page bitmap in host memory reads that the module has not set itself since logging began or the bitmap became
active (R55 counts the bits that change; the host owns the memory). Free value, log 54. -/
opaque Config.bitmapBit : Nat → Nat → Bool

/-- What an internal master reads at an address of a memory (R402, R404): the specification gives most memories no byte layout. Free
value, log 86. -/
opaque Config.memoryRead : Nat → Nat → BitVec 64

/-- The intermediates that the operation of a number leaves in operand memory while it runs (R196). No value is stated; a replay of the
operation has the same (R207, log 53). -/
opaque Config.intermediates : Nat → List (BitVec 8)

end Sys2Proof
end

