-- ==== Sys2Proof/Machine/Bits.lean ====
section
/-! DEFINITION. Byte strings as numbers, in the byte orders the specification uses, and the cuts, pads and saturating
sums the other files share. -/

namespace Sys2Proof.Machine

/-- The number a little-endian byte string holds. -/
def leNat : Bytes → Nat
  | [] => 0
  | b :: r => b.toNat + 256 * leNat r

/-- The number a big-endian byte string holds. -/
def beNat (b : Bytes) : Nat := b.foldl (fun a x => a * 256 + x.toNat) 0

/-- The n low bytes of v, least significant first. -/
def leBytes : Nat → Nat → Bytes
  | 0, _ => []
  | n + 1, v => BitVec.ofNat 8 v :: leBytes n (v / 256)

/-- The n low bytes of v, most significant first. -/
def beBytes (n v : Nat) : Bytes := (leBytes n v).reverse

/-- n bytes of zero. -/
def zeros (n : Nat) : Bytes := List.replicate n 0

/-- Bytes off to off + n - 1, as far as the string reaches. -/
def slice (b : Bytes) (off n : Nat) : Bytes := (b.drop off).take n

/-- Byte i, 0 beyond the end. -/
def byteAt (b : Bytes) (i : Nat) : Nat := (b.getD i 0).toNat

/-- The little-endian field of n bytes at an offset. -/
def leAt (b : Bytes) (off n : Nat) : Nat := leNat (slice b off n)

/-- Exactly n bytes: cut, or filled up with zeros on the right. -/
def fit (n : Nat) (b : Bytes) : Bytes := b.take n ++ zeros (n - b.length)

/-- Byte-wise exclusive or, as long as the shorter string. -/
def xorB (a b : Bytes) : Bytes := List.zipWith (· ^^^ ·) a b

/-- Cuts of n bytes, the last one shorter when n does not divide the length; fuel bounds their number. -/
def chunksF (n : Nat) : Nat → Bytes → List Bytes
  | 0, _ => []
  | f + 1, b => if b.isEmpty then [] else b.take n :: chunksF n f (b.drop n)

/-- Cuts of n bytes. -/
def chunks (n : Nat) (b : Bytes) : List Bytes := chunksF n b.length b

/-- The ASCII bytes of a text. -/
def ascii (s : String) : Bytes := s.toList.map (fun c => BitVec.ofNat 8 c.toNat)

/-- True when every byte is 0. -/
def allZero (b : Bytes) : Bool := b.all (· == 0)

/-- Counter + n, held at the largest value of w bits. -/
def satAdd (w v n : Nat) : Nat := min (v + n) (2 ^ w - 1)

/-- x rounded up to whole multiples of n, in multiples. -/
def ceilDiv (x n : Nat) : Nat := (x + n - 1) / n

/-- A bit as a number. -/
def bit (b : Bool) : Nat := if b then 1 else 0

/-- The offset of the first byte at or after off, below off + n, that is not 0. -/
def firstNonZero (b : Bytes) (off n : Nat) : Option Nat :=
  ((List.range n).find? (fun i => byteAt b (off + i) != 0)).map (off + ·)

/-- Base to the power e modulo m, by the bits of e from the least significant; fuel bounds the bits. -/
def powModF (m : Nat) : Nat → Nat → Nat → Nat → Nat
  | 0, _, _, acc => acc
  | f + 1, b, e, acc =>
    if e == 0 then acc else powModF m f (b * b % m) (e / 2) (if e % 2 == 1 then acc * b % m else acc)

/-- Base to the power e modulo m. -/
def powMod (b e m : Nat) : Nat := powModF m (Nat.log2 e + 1) (b % m) e (1 % m)

/-- Extended Euclid: (r0, s0), (r1, s1) with r_i = s_i times a modulo m. -/
def invF (m : Nat) : Nat → Nat → Nat → Nat → Nat → Nat
  | 0, _, _, _, _ => 0
  | f + 1, r0, s0, r1, s1 =>
    if r1 == 0 then s0 else invF m f r1 s1 (r0 % r1) ((s0 + (m - r0 / r1 % m) * s1) % m)

/-- The inverse of a modulo m (for a prime to m). -/
def invMod (a m : Nat) : Nat := invF m (3 * Nat.log2 m + 8) m 0 (a % m) 1

/-- Replace the element at an index of a list by a function of it. -/
def modAt {α : Type} (l : List α) (i : Nat) (f : α → α) : List α := l.modify i f

/-- The value of a key in an association list, 0 when it has none. -/
def lookup0 (l : List (Nat × Nat)) (k : Nat) : Nat := ((l.find? (fun p => p.1 == k)).map (·.2)).getD 0

/-- The association list with a key's value replaced. -/
def assign {α : Type} (l : List (Nat × α)) (k : Nat) (v : α) : List (Nat × α) :=
  if l.any (fun p => p.1 == k) then l.map (fun p => if p.1 == k then (k, v) else p) else l ++ [(k, v)]

/-- The lowest number that is not in a list, from n on; fuel bounds the numbers. -/
def lowestFree (used : List Nat) : Nat → Nat → Nat
  | 0, n => n
  | f + 1, n => if used.contains n then lowestFree used f (n + 1) else n

/-- Insert before the first element of a greater key. -/
def insertKey {α : Type} (f : α → Nat) (a : α) : List α → List α
  | [] => [a]
  | b :: r => if f a ≤ f b then a :: b :: r else b :: insertKey f a r

/-- Sorted by a key, equal keys in their order. -/
def sortKey {α : Type} (f : α → Nat) (l : List α) : List α := l.foldr (insertKey f) []

end Sys2Proof.Machine
end

