-- ==== Sys2Proof/Machine/State.lean ====
section
/-! DEFINITION. The state of the module: every register, queue, memory, key store and mode the specification gives
it, as plain data, with its value at reset. INVENTORY.md lists each field with its rule, width and reset value. -/

namespace Sys2Proof.Machine

/-- What can stop the module. The specification gives every command an effect in every state (a command the module
cannot take leaves it unchanged), so there is no constructor: exec never faults. -/
inductive Fault
deriving DecidableEq, Repr

/-- Why a command has no meaning in this model. -/
inductive Refusal where
  /-- Raised by exec for a command with no meaning yet. Safe: the run stops there. -/
  | notModelled (mnemonic : String)
deriving DecidableEq, Repr

/-- A triplicated field (R9): its three copies. -/
structure Triple (α : Type) where
  a : α
  b : α
  c : α
deriving DecidableEq, Repr

/-- How an instance's rings learn of new cells (R43). -/
inductive Watch where
  | off
  | coherent
  | doorbell
deriving DecidableEq, Repr

/-- INS_STATE.STATE (R55). -/
inductive InsState where
  | absent
  | ringsOff
  | ringsOn
  | resetting
deriving DecidableEq, Repr

/-- CLU_STAT.STATE (R126). -/
inductive CluState where
  | disabled
  | freewheel
  | running
  | fenced
  | parked
deriving DecidableEq, Repr

/-- Where a fetched message is (R78, R88, R104, R114). -/
inductive Phase where
  /-- Between steps 7 and 8: held for the control path, service ready, the vault, a fence or an earlier act. -/
  | wait
  /-- Between steps 7 and 8: its template is being built (R104). -/
  | building
  /-- Needs objects that are being read from the vault, by handle (R106, R129, R249). -/
  | vaultRead (handles : List Nat)
  /-- Admitted, not started. -/
  | ready
  /-- A lap or operation is running on an engine. -/
  | running
  /-- Between two laps. -/
  | between
  /-- Its lap or operation is in the replay queue (R28). -/
  | replay
  /-- Waits for the random source (R223). -/
  | rngWait
  /-- A generate call of its random request is running (R221, R228). -/
  | genCall
  /-- Its commit is accepted (R246). -/
  | commit
  /-- It runs on the custody pair (LC_TRANSITION under way, R394). -/
  | custody
  /-- Its chunk is being programmed into NOR flash, since an operating time (R380, R381). -/
  | flash (since : Nat)
deriving DecidableEq, Repr

/-- How a message ends: what its completion says beyond what the message record holds. -/
structure Final where
  status : BitVec 16
  detail : BitVec 32
  /-- Status detail placed in RESULT (R487). -/
  info   : Bytes
  /-- Output released with the completion. -/
  output : Bytes
  closed : Bool
  discard : Bool
deriving DecidableEq, Repr

/-- What a control-path message whose commit ended during a control-pair restart does when the pair is back (R23, R248). -/
inductive HeldEnd where
  | done (f : Final)
  | failed (f : Final)
  | refused (f : Final)
  /-- Its next batch (R298). -/
  | goesOn
deriving DecidableEq, Repr

/-- A completion cell (R71); the phase bit and the flags are CFLAGS. -/
structure Compl where
  tag     : BitVec 32
  status  : BitVec 16
  cflags  : BitVec 8
  busy    : BitVec 8
  written : BitVec 32
  wait    : BitVec 32
  sqHead  : BitVec 16
  engine  : BitVec 8
  detail  : BitVec 32
  result  : Bytes
deriving DecidableEq, Repr

/-- A memory write the module issues on the host link. -/
inductive HostWrite where
  /-- Output bytes of a message (R69), with the relaxed-ordering attribute or without (R42). -/
  | data (inst : Nat) (addr : BitVec 64) (bytes : Bytes) (relaxed : Bool)
  /-- A completion cell (R71). -/
  | cell (inst : Nat) (addr : BitVec 64) (c : Compl)
  /-- A ring-state line (R60). -/
  | line (inst : Nat) (addr : BitVec 64) (head tail state fetched completed : Nat)
  /-- A dirty-page bit set (R52): bit n of the bitmap at the address. -/
  | mark (inst : Nat) (map : BitVec 64) (page : Nat)
deriving DecidableEq, Repr

/-- One key object: its unsealed record (Table 10.4) and where its sealed image lies. -/
structure Obj where
  /-- Handle. -/
  handle     : Nat
  /-- ALG. -/
  alg        : BitVec 16
  /-- USAGE. -/
  usage      : BitVec 32
  /-- WORLD. -/
  world      : Nat
  /-- LCMASK. -/
  lcmask     : BitVec 8
  /-- FLAGS.PAIR. -/
  pair       : Bool
  /-- FLAGS.EXPORTABLE. -/
  exportable : Bool
  /-- ORIGIN. -/
  origin     : Nat
  /-- VERSION. -/
  version    : Nat
  /-- VALID_FROM. -/
  validFrom  : Nat
  /-- VALID_UNTIL. -/
  validUntil : Nat
  /-- KCV. -/
  kcv        : Bytes
  /-- INSTANCES. -/
  insts      : BitVec 256
  /-- CREATED. -/
  created    : Nat
  /-- MATERIAL. -/
  material   : Bytes
  /-- Vault page that holds the image. -/
  page       : Nat
  /-- SEQ of the commit that sealed the image. -/
  seq        : Nat
  /-- INDEX within that commit. -/
  index      : Nat
deriving DecidableEq, Repr

/-- Obj at reset. -/
def Obj.reset : Obj :=
  { handle := 0,
    alg := 0,
    usage := 0,
    world := 0,
    lcmask := 0,
    pair := false,
    exportable := false,
    origin := 0,
    version := 0,
    validFrom := 0,
    validUntil := 0,
    kcv := [],
    insts := 0,
    created := 0,
    material := [],
    page := 0,
    seq := 0,
    index := 0 }

/-- One ledger seal chain. -/
structure Chain where
  /-- CHAIN. -/
  num         : Nat
  /-- N (QDR head). -/
  count       : Nat
  /-- T[n]. -/
  time        : Nat
  /-- H[n] (QDR head). -/
  head        : Bytes
  /-- COMMITTED counter. -/
  commCount   : Nat
  /-- COMMITTED time. -/
  commTime    : Nat
  /-- COMMITTED head. -/
  commHead    : Bytes
  /-- RESUMES. -/
  resumes     : Nat
  /-- COMMITTED RESUMES. -/
  commResumes : Nat
  /-- Instance bitmap. -/
  insts       : BitVec 256
  /-- Handle of the seal key. -/
  sealKey     : Nat
  /-- Latest committed checkpoint body. -/
  body        : Bytes
  /-- Its SEAL. -/
  sealVal     : Bytes
  /-- Counter of the latest checkpoint. -/
  prevCount   : Nat
  /-- Head of the latest checkpoint. -/
  prevHead    : Bytes
  /-- A KIND 3 checkpoint is owed before the next posting. -/
  resumeDue   : Bool
  /-- Status that blocks its checkpoints. -/
  blocked     : Option (BitVec 16)
  /-- Counters, times and heads of the periodic checkpoints not yet committed, oldest first. -/
  due         : List (Nat × Nat × Bytes)
deriving DecidableEq, Repr

/-- Chain at reset. -/
def Chain.reset : Chain :=
  { num := 0,
    count := 0,
    time := 0,
    head := [],
    commCount := 0,
    commTime := 0,
    commHead := [],
    resumes := 0,
    commResumes := 0,
    insts := 0,
    sealKey := 0,
    body := [],
    sealVal := [],
    prevCount := 0,
    prevHead := [],
    resumeDue := false,
    blocked := none,
    due := [] }

/-- One roster entry (Table 12.2). -/
structure RosterEntry where
  /-- KEYDIGEST. -/
  digest : Bytes
  /-- KEYALG, 0 empty. -/
  keyAlg : Nat
  /-- ROLES. -/
  roles  : BitVec 8
deriving DecidableEq, Repr

/-- RosterEntry at reset. -/
def RosterEntry.reset : RosterEntry :=
  { digest := [],
    keyAlg := 0,
    roles := 0 }

/-- The record of one domain (internal objects 0x3FFF_FF00, FF01, label table, chains). -/
structure DomRec where
  /-- Roster. -/
  roster    : List RosterEntry
  /-- PROHIBIT. -/
  prohibit  : BitVec 32
  /-- AUTHKIND in force. -/
  authKind  : Nat
  /-- Authority public key. -/
  authKey   : Bytes
  /-- UNIT_QUOTA. -/
  unitQuota : Nat
  /-- FLOW_LIMIT. -/
  flowLimit : Nat
  /-- Label table. -/
  labels    : List (Bytes × Nat)
  /-- Ledger seal chains. -/
  chains    : List Chain
  /-- DRK_d has been derived since the mount. -/
  drk       : Bool
deriving DecidableEq, Repr

/-- DomRec at reset. -/
def DomRec.reset : DomRec :=
  { roster := [],
    prohibit := 0,
    authKind := 0,
    authKey := [],
    unitQuota := 0,
    flowLimit := 65535,
    labels := [],
    chains := [],
    drk := false }

/-- A root record (BBRAM slot or PRF checkpoint). -/
structure RootRec where
  /-- Commit sequence number. -/
  seq    : Nat
  /-- Digest of the root node. -/
  digest : Bytes
  /-- NAND location of the root node. -/
  loc    : Nat
deriving DecidableEq, Repr

/-- RootRec at reset. -/
def RootRec.reset : RootRec :=
  { seq := 0,
    digest := [],
    loc := 0 }

/-- One island journal record (Table 17.7). -/
structure JournalRec where
  /-- SEQ. -/
  seq      : BitVec 32
  /-- TICK. -/
  tick     : BitVec 32
  /-- MONITOR. -/
  monitor  : Nat
  /-- CLASS. -/
  cls      : Nat
  /-- DET. -/
  det      : Nat
  /-- FLAGS. -/
  flags    : Nat
  /-- LCSTATE. -/
  lcstate  : Nat
  /-- ISLAND_UP. -/
  islandUp : Nat
deriving DecidableEq, Repr

/-- JournalRec at reset. -/
def JournalRec.reset : JournalRec :=
  { seq := 0,
    tick := 0,
    monitor := 0,
    cls := 0,
    det := 0,
    flags := 0,
    lcstate := 0,
    islandUp := 0 }

/-- The DIAPAUSE transport record in the PRF. -/
structure TransportRec where
  /-- TRIP k. -/
  trip    : Nat
  /-- Envelope key and its check wrapped under TK. -/
  wrapped : Bytes
deriving DecidableEq, Repr

/-- TransportRec at reset. -/
def TransportRec.reset : TransportRec :=
  { trip := 0,
    wrapped := [] }

/-- One entry of CFG_REP. -/
structure CfgReport where
  /-- FIELD. -/
  field    : Nat
  /-- REASON. -/
  reason   : Nat
  /-- SUPPLIED. -/
  supplied : Nat
  /-- APPLIED. -/
  applied  : Nat
  /-- INDEX. -/
  index    : Nat
deriving DecidableEq, Repr

/-- CfgReport at reset. -/
def CfgReport.reset : CfgReport :=
  { field := 0,
    reason := 0,
    supplied := 0,
    applied := 0,
    index := 0 }

/-- One event record (Table 19.1). -/
structure EvRecord where
  /-- TYPE. -/
  type     : Nat
  /-- SEQ. -/
  seq      : BitVec 32
  /-- CYCLE. -/
  cycle    : Nat
  /-- Operating time (HOURS and MS). -/
  time     : Nat
  /-- SOURCE. -/
  source   : Nat
  /-- SEVERITY. -/
  severity : Nat
  /-- FLAGS. -/
  flags    : Nat
  /-- Payload from byte 24. -/
  payload  : Bytes
deriving DecidableEq, Repr

/-- EvRecord at reset. -/
def EvRecord.reset : EvRecord :=
  { type := 0,
    seq := 0,
    cycle := 0,
    time := 0,
    source := 0,
    severity := 0,
    flags := 0,
    payload := [] }

/-- One closed recorder batch. -/
structure Batch where
  /-- BATCH. -/
  num     : Nat
  /-- SHORT. -/
  short   : Bool
  /-- RECORDS. -/
  count   : Nat
  /-- SEQ after that of its last record. -/
  seqNext : BitVec 32
  /-- L[b - 1]. -/
  prev    : Bytes
  /-- L[b]. -/
  link    : Bytes
  /-- Its sealed image in the partition: header and records under AES-256-GCM, then the tag. -/
  image   : Bytes
deriving DecidableEq, Repr

/-- Batch at reset. -/
def Batch.reset : Batch :=
  { num := 0,
    short := false,
    count := 0,
    seqNext := 0,
    prev := [],
    link := [],
    image := [] }

/-- One object held in the QDR key cache. -/
structure KcLine where
  /-- Handle. -/
  handle  : Nat
  /-- VERSION. -/
  version : Nat
  /-- Lines filled. -/
  units   : Nat
  /-- Flows that pin it. -/
  pins    : Nat
deriving DecidableEq, Repr

/-- KcLine at reset. -/
def KcLine.reset : KcLine :=
  { handle := 0,
    version := 0,
    units := 0,
    pins := 0 }

/-- One open tandem. -/
structure Tandem where
  /-- TID. -/
  tid       : Nat
  /-- Domain. -/
  domain    : Nat
  /-- ACT. -/
  act       : Nat
  /-- D. -/
  digest    : Bytes
  /-- Challenge (Table 12.4). -/
  challenge : Bytes
  /-- EXPIRES. -/
  expires   : Nat
  /-- First officer accepted. -/
  off1      : Option Nat
  /-- Second officer accepted. -/
  off2      : Option Nat
  /-- Tokens refused with TOKEN_INVALID. -/
  invalids  : Nat
  /-- Order of completion among tandems. -/
  doneAt    : Nat
  /-- Act that reserved it. -/
  reserved  : Option Nat
deriving DecidableEq, Repr

/-- Tandem at reset. -/
def Tandem.reset : Tandem :=
  { tid := 0,
    domain := 0,
    act := 0,
    digest := [],
    challenge := [],
    expires := 0,
    off1 := none,
    off2 := none,
    invalids := 0,
    doneAt := 0,
    reserved := none }

/-- A key as a flow, template or message holds it. -/
structure KeyRef where
  /-- Handle. -/
  handle     : Nat
  /-- Version at the check. -/
  version    : Nat
  /-- Validity window. -/
  validFrom  : Nat
  /-- Validity window. -/
  validUntil : Nat
  /-- Algorithm. -/
  alg        : BitVec 16
  /-- Usage bits at the check. -/
  usage      : BitVec 32
  /-- Instance list at the check. -/
  insts      : BitVec 256
  /-- Key the message was admitted with (key-cache copy). -/
  material   : Bytes
deriving DecidableEq, Repr

/-- KeyRef at reset. -/
def KeyRef.reset : KeyRef :=
  { handle := 0,
    version := 0,
    validFrom := 0,
    validUntil := 0,
    alg := 0,
    usage := 0,
    insts := 0,
    material := [] }

/-- Context record of a message or stream (R25, R142, R153, R173). -/
structure Ctx where
  /-- R0 to r15. -/
  regs    : List (BitVec 128)
  /-- Chaining block, counter block, output block, tweak or MAC state. -/
  chain   : Bytes
  /-- GHASH accumulator, CBC-MAC state of CCM. -/
  acc     : Bytes
  /-- Input bytes taken so far (region pointers). -/
  pos     : Nat
  /-- AAD or text bytes not yet forming a block. -/
  aadHeld : Bytes
  /-- Held final block, or tag bytes not yet told from text. -/
  held    : Bytes
  /-- Digest state register. -/
  hash    : List (BitVec 64)
  /-- Digest held-input buffer. -/
  buf     : Bytes
  /-- Generated IV. -/
  iv      : Bytes
  /-- Fill bytes. -/
  fill    : Bytes
  /-- Verify flag. -/
  fail    : Bool
  /-- AAD blocks and text blocks loaded, output bytes stored and input counted by an image program. -/
  ptrs    : List Nat
  /-- Total input declared. -/
  total   : Nat
deriving DecidableEq, Repr

/-- Ctx at reset. -/
def Ctx.reset : Ctx :=
  { regs := [],
    chain := [],
    acc := [],
    pos := 0,
    aadHeld := [],
    held := [],
    hash := [],
    buf := [],
    iv := [],
    fill := [],
    fail := false,
    ptrs := [],
    total := 0 }

/-- The open stream of a flow. -/
structure Stream where
  /-- STREAM_LEN. -/
  declared : Nat
  /-- Sum of IN_LEN of accepted segments. -/
  accepted : Nat
  /-- An earlier segment wrote output. -/
  wrote    : Bool
  /-- Parameter block P of the first segment. -/
  params   : Bytes
  /-- Context kept in QDR between segments. -/
  ctx      : Ctx
  /-- Key the first segment was admitted with. -/
  keyA     : Option KeyRef
  /-- Key the first segment was admitted with. -/
  keyB     : Option KeyRef
  /-- Reserved handle of a ROUTE 1 stream. -/
  reserved : Option Nat
deriving DecidableEq, Repr

/-- Stream at reset. -/
def Stream.reset : Stream :=
  { declared := 0,
    accepted := 0,
    wrote := false,
    params := [],
    ctx := Ctx.reset,
    keyA := none,
    keyB := none,
    reserved := none }

/-- One open flow. -/
structure Flow where
  /-- Instance. -/
  inst    : Nat
  /-- FLOW_ID. -/
  id      : Nat
  /-- OP. -/
  op      : Op
  /-- 0 cipher, 1 digest, 2 public-key. -/
  kind    : Nat
  /-- Program slot in use. -/
  slot    : Nat
  /-- PAD. -/
  pad     : Nat
  /-- ROUTE. -/
  route   : Nat
  /-- FPARAM. -/
  fparam  : Bytes
  /-- Lap length. -/
  lap     : Nat
  /-- KEY_A. -/
  keyA    : Option KeyRef
  /-- KEY_B. -/
  keyB    : Option KeyRef
  /-- Status that refuses messages of a stale flow. -/
  stale   : Option (BitVec 16)
  /-- Open stream. -/
  stream  : Option Stream
  /-- Result slot of a HOLD flow. -/
  result  : Option Bytes
  /-- Its keys are pinned. -/
  pinned  : Bool
  /-- FLOW_CLOSE under way. -/
  closing : Option Nat
deriving DecidableEq, Repr

/-- Flow at reset. -/
def Flow.reset : Flow :=
  { inst := 0,
    id := 0,
    op := .nop,
    kind := 0,
    slot := 0,
    pad := 0,
    route := 0,
    fparam := [],
    lap := 0,
    keyA := none,
    keyB := none,
    stale := none,
    stream := none,
    result := none,
    pinned := false,
    closing := none }

/-- One template, positive or negative. -/
structure Template where
  /-- Instance. -/
  inst     : Nat
  /-- OPCODE. -/
  op       : Op
  /-- KEY_A. -/
  keyA     : Nat
  /-- KEY_B. -/
  keyB     : Nat
  /-- ALG, PAD and TAG_LEN of record-mode codes 2010 and 2020. -/
  extra    : Bytes
  /-- KEY_A as checked. -/
  refA     : Option KeyRef
  /-- KEY_B as checked. -/
  refB     : Option KeyRef
  /-- 0 positive; refusal status of a negative template. -/
  status   : BitVec 16
  /-- DETAIL of that refusal. -/
  detail   : BitVec 32
  /-- Operating time at which a negative template ends. -/
  expires  : Nat
  /-- The control pair is building it. -/
  building : Bool
deriving DecidableEq, Repr

/-- Template at reset. -/
def Template.reset : Template :=
  { inst := 0,
    op := .nop,
    keyA := 0,
    keyB := 0,
    extra := [],
    refA := none,
    refB := none,
    status := 0,
    detail := 0,
    expires := 0,
    building := false }

/-- What a RECORDER_READ has read (R453, R455). -/
structure RecRead where
  /-- The read header. -/
  header : Bytes
  /-- The batches, each with its link. -/
  body   : Bytes
  /-- The last link. -/
  last   : Bytes
  /-- The batch whose tag failed. -/
  bad    : Option Nat
deriving DecidableEq, Repr

/-- RecRead at reset. -/
def RecRead.reset : RecRead :=
  { header := [],
    body := [],
    last := [],
    bad := none }

/-- A fetched message that has no completion yet. -/
structure MsgRec where
  /-- MODEL'S OWN number. -/
  id       : Nat
  /-- Opcode. -/
  op       : Op
  /-- Domain of its instance when it passed step 4. -/
  domain   : Nat
  /-- The cell and what the fetch read. -/
  m        : Msg
  /-- Where the message is. -/
  phase    : Phase
  /-- Where the message goes on once its keys are read from the vault. -/
  back     : Phase
  /-- Address of its header cell. -/
  addr     : Nat
  /-- Check step at which a waiting message goes on. -/
  step     : Nat
  /-- MODEL'S OWN: place in the order in which messages reach step 8, 0 for one that has not waited there. -/
  reached  : Nat
  /-- MODEL'S OWN order in the replay queue. -/
  stamp    : Nat
  /-- Flow it names. -/
  flow     : Option Nat
  /-- Key it was admitted with. -/
  keyA     : Option KeyRef
  /-- Key it was admitted with. -/
  keyB     : Option KeyRef
  /-- Status its flow opens stale with: a key changed between its step 8 and its installation. -/
  stale    : Option (BitVec 16)
  /-- Parameter block P in force. -/
  params   : Bytes
  /-- Context of the last lap boundary. -/
  ctx      : Ctx
  /-- Input bytes of completed laps. -/
  done_    : Nat
  /-- Output bytes released. -/
  written  : Nat
  /-- Output released so far, for RESULT or the next entry. -/
  output   : Bytes
  /-- Random bytes drawn before the first lap or at dispatch. -/
  random   : Bytes
  /-- Generator whose bytes it waits for. -/
  gen      : Nat
  /-- Bytes it waits for. -/
  want     : Nat
  /-- Engine of its last lap or operation. -/
  engine   : Nat
  /-- Operating time at which a held random request ends. -/
  deadline : Nat
  /-- Reserved handle. -/
  reserved : Option Nat
  /-- Tandem reserved for the act. -/
  tandem   : Option Nat
  /-- The request record, in ASCII, when it came as ZRM_RECORD. -/
  zrm      : Option Bytes
  /-- CODEPAGE of the record. -/
  zrmPage  : Nat
  /-- A transition whose instance was reset or whose link was lost: its completion is not written. -/
  mute     : Bool
  /-- What a RECORDER_READ that has begun has read. -/
  read     : Option RecRead
deriving DecidableEq, Repr

/-- MsgRec at reset. -/
def MsgRec.reset : MsgRec :=
  { id := 0,
    op := .nop,
    domain := 0,
    m := Msg.empty,
    phase := .ready,
    back := .ready,
    addr := 0,
    step := 8,
    reached := 0,
    stamp := 0,
    flow := none,
    keyA := none,
    keyB := none,
    stale := none,
    params := [],
    ctx := Ctx.reset,
    done_ := 0,
    written := 0,
    output := [],
    random := [],
    gen := 0,
    want := 0,
    engine := 0xFF,
    deadline := 0,
    reserved := none,
    tandem := none,
    zrm := none,
    zrmPage := 0,
    mute := false,
    read := none }

/-- An open key-component session. -/
structure CompSession where
  /-- OBJECT. -/
  object : Nat
  /-- PARTS. -/
  parts  : Nat
  /-- Attribute block. -/
  attr   : Bytes
  /-- Components received. -/
  comps  : List Bytes
  /-- Operating time at which it ends. -/
  until_ : Nat
deriving DecidableEq, Repr

/-- CompSession at reset. -/
def CompSession.reset : CompSession :=
  { object := 0,
    parts := 0,
    attr := [],
    comps := [],
    until_ := 0 }

/-- One image program in the program stores. -/
structure Program where
  /-- SLOT. -/
  slot    : Nat
  /-- PROGRAM_ID. -/
  id      : Nat
  /-- VERSION. -/
  version : Nat
  /-- KIND. -/
  kind    : Nat
  /-- ALG. -/
  alg     : Nat
  /-- INIT. -/
  init    : Nat
  /-- DERIVE. -/
  derive  : Nat
  /-- KEYS. -/
  keys    : Nat
  /-- Code. -/
  words   : List (BitVec 64)
  /-- Constants. -/
  consts  : List (BitVec 128)
  /-- OPCODES. -/
  opcodes : List Nat
  /-- First word in the store. -/
  start   : Nat
  /-- CLU_SLOT_LAP_A. -/
  lapA    : Nat
  /-- CLU_SLOT_LAP_T. -/
  lapT    : Nat
deriving DecidableEq, Repr

/-- Program at reset. -/
def Program.reset : Program :=
  { slot := 0,
    id := 0,
    version := 0,
    kind := 0,
    alg := 0,
    init := 0,
    derive := 0,
    keys := 0,
    words := [],
    consts := [],
    opcodes := [],
    start := 0,
    lapA := 0,
    lapT := 0 }

/-- One instance's ring registers and the module's own ring position (VF BAR0, or the MBX ring for instance 0). -/
structure Rings where
  /-- VF_SQ_BASE_LO/HI, [5:0] read 0. -/
  sqBase    : BitVec 64
  /-- VF_SQ_SIZE.LOG2. -/
  sqLog2    : BitVec 5
  /-- VF_CQ_BASE_LO/HI, [5:0] read 0. -/
  cqBase    : BitVec 64
  /-- VF_CQ_SIZE.LOG2. -/
  cqLog2    : BitVec 5
  /-- VF_RING_CTL.EN. -/
  en        : Bool
  /-- VF_STAT.RING_ON. -/
  ringOn    : Bool
  /-- VF_STAT.WATCH and INS_STATE.WATCH. -/
  watch     : Watch
  /-- VF_STAT.CFG_ERR. -/
  cfgErr    : Bool
  /-- VF_STAT.RING_FAULT. -/
  ringFault : Bool
  /-- SQ_HEAD: next submission index the module will fetch. -/
  head      : Nat
  /-- Submission tail last taken. -/
  tail      : Nat
  /-- CQ_TAIL: next completion index the module will write. -/
  cqTail    : Nat
  /-- Completion head last taken. -/
  cqHead    : Nat
  /-- Completion phase of the present pass. -/
  phase     : Bool
  /-- FETCHED of the ring-state line. -/
  fetched   : Nat
  /-- COMPLETED of the ring-state line. -/
  completed : Nat
  /-- Out-of-range SQ_TAIL already counted. -/
  badTail   : Option Nat
  /-- Out-of-range CQ_HEAD already counted. -/
  badHead   : Option Nat
  /-- The tail line is held Shared. -/
  shared    : Bool
  /-- A read of the tail line is issued and has not returned. -/
  reread    : Bool
  /-- After a ring fault or reset no further completion is written. -/
  silenced  : Bool
deriving DecidableEq, Repr

/-- Rings at reset. -/
def Rings.reset : Rings :=
  { sqBase := 0,
    sqLog2 := 0,
    cqBase := 0,
    cqLog2 := 0,
    en := false,
    ringOn := false,
    watch := .off,
    cfgErr := false,
    ringFault := false,
    head := 0,
    tail := 0,
    cqTail := 0,
    cqHead := 0,
    phase := true,
    fetched := 0,
    completed := 0,
    badTail := none,
    badHead := none,
    shared := false,
    reread := false,
    silenced := false }

/-- Dirty-page logging of one instance (INS_DIRTY_*). -/
structure Dirty where
  /-- INS_DIRTY_CTL.EN. -/
  en       : Bool
  /-- INS_DIRTY_CTL.ACTIVE, false bitmap A. -/
  active   : Bool
  /-- INS_DIRTY_CTL.OVERFLOW. -/
  overflow : Bool
  /-- INS_DIRTY_CTL.ERROR. -/
  error    : Bool
  /-- INS_DIRTY_CTL.SWAP. -/
  swap     : Bool
  /-- INS_DIRTY_A_LO/HI. -/
  mapA     : BitVec 64
  /-- INS_DIRTY_B_LO/HI. -/
  mapB     : BitVec 64
  /-- INS_DIRTY_BASE_LO/HI. -/
  base     : BitVec 64
  /-- INS_DIRTY_PAGES. -/
  pages    : BitVec 32
  /-- INS_DIRTY_COUNT. -/
  count    : Nat
  /-- Pages whose bit is 1 in the active bitmap as the module knows it. -/
  marked   : List Nat
deriving DecidableEq, Repr

/-- Dirty at reset. -/
def Dirty.reset : Dirty :=
  { en := false,
    active := false,
    overflow := false,
    error := false,
    swap := false,
    mapA := 0,
    mapB := 0,
    base := 0,
    pages := 0,
    count := 0,
    marked := [] }

/-- The configuration registers that a function keeps (Table 2.2). Their layouts are those of PCIe (PRESUMED, log 9). -/
structure FnCfg where
  /-- Command register: bit 1 Memory Space Enable, bit 2 Bus Master Enable. -/
  command    : BitVec 16
  /-- Device Control: bit 4 Enable Relaxed Ordering, bits [7:5] Max Payload Size, bits [14:12] Max Read Request Size. -/
  devCtl     : BitVec 16
  /-- Device Status: correctable, non-fatal and fatal error, unsupported request detected. -/
  devStat    : BitVec 4
  /-- Device Control 2: bits [3:0] completion timeout range, bit 12 10-bit tag requester enable. -/
  devCtl2    : BitVec 16
  /-- AER uncorrectable error status. -/
  aerUnc     : BitVec 32
  /-- AER uncorrectable error mask. -/
  aerUncMask : BitVec 32
  /-- AER uncorrectable error severity. -/
  aerUncSev  : BitVec 32
  /-- AER correctable error status. -/
  aerCor     : BitVec 32
  /-- AER correctable error mask. -/
  aerCorMask : BitVec 32
  /-- AER capabilities and control: bits [4:0] first error pointer. -/
  aerCtl     : BitVec 32
  /-- MSI-X Enable. -/
  msixEnable : Bool
  /-- MSI-X Function Mask. -/
  msixMask   : Bool
deriving DecidableEq, Repr

/-- FnCfg at reset. -/
def FnCfg.reset : FnCfg :=
  { command := 0,
    devCtl := 0x2810,
    devStat := 0,
    devCtl2 := 0,
    aerUnc := 0,
    aerUncMask := 0,
    aerUncSev := 0x00462030,
    aerCor := 0,
    aerCorMask := 0x00002000,
    aerCtl := 0,
    msixEnable := false,
    msixMask := false }

/-- Everything the module holds for one instance. -/
structure InstRec where
  /-- The function exists (instance 0 always while powered). -/
  exists_     : Bool
  /-- INS_STATE.STATE. -/
  state       : InsState
  /-- Bound domain (PRF binding table, VF_DOMAIN, INS_STATE.DOMAIN). -/
  domain      : Option Nat
  /-- Ring registers. -/
  rings       : Rings
  /-- INS_WATCH.FORCE_DB. -/
  forceDb     : Bool
  /-- INS_TAIL_HPA_LO/HI. -/
  tailHpa     : BitVec 64
  /-- Dirty-page logging. -/
  dirty       : Dirty
  /-- Power state D3hot. -/
  d3hot       : Bool
  /-- Configuration registers. -/
  cfg         : FnCfg
  /-- A function-level reset waits for its drain read. -/
  flrDrain    : Bool
  /-- LNK_VIOL_REG(n).REG. -/
  violReg     : Nat
  /-- LNK_VIOL_LINK(n).LINK. -/
  violLink    : Nat
  /-- LNK_VIOL_LINK(n).DMA. -/
  violDma     : Nat
  /-- LNK_VIOL_AMP(n).RING. -/
  violRing    : Nat
  /-- LNK_VIOL_AMP(n).AMP. -/
  violAmp     : Nat
  /-- Last second in which each violation kind was recorded. -/
  violSec     : List (Nat × Nat)
  /-- SCH_I_SHARE(n).WEIGHT. -/
  weight      : Nat
  /-- SCH_I_SHARE(n).CIPHER. -/
  guarCipher  : Nat
  /-- SCH_I_SHARE(n).DIGEST. -/
  guarDigest  : Nat
  /-- SCH_I_SHARE(n).PK. -/
  guarPk      : Nat
  /-- SCH_I_FLOWLIM(n).LIMIT. -/
  flowLimit   : Nat
  /-- SCH_I_OUTLIM(n).LIMIT. -/
  outLimit    : Nat
  /-- SCH_I_BUSY(n).DEVICE. -/
  busyDevice  : Nat
  /-- SCH_I_BUSY(n).QUOTA. -/
  busyQuota   : Nat
  /-- SCH_I_WAIT(n).MAX. -/
  maxWait     : Nat
  /-- Deficit-round-robin credit for each engine kind. -/
  credit      : List Int
  /-- RNG_WAIT(n).LIMIT. -/
  rngWait     : Nat
  /-- Open key-component session. -/
  compSession : Option CompSession
  /-- Upper halves latched for this instance, by lower offset. -/
  latches     : List (Nat × BitVec 32)
  /-- MSI-X table of a virtual function: two vectors of four words. -/
  msix        : List (BitVec 32)
  /-- MSI-X pending bits of a virtual function. -/
  msixPend    : BitVec 2
deriving DecidableEq, Repr

/-- InstRec at reset. -/
def InstRec.reset : InstRec :=
  { exists_ := false,
    state := .absent,
    domain := none,
    rings := Rings.reset,
    forceDb := false,
    tailHpa := 0,
    dirty := Dirty.reset,
    d3hot := false,
    cfg := FnCfg.reset,
    flrDrain := false,
    violReg := 0,
    violLink := 0,
    violDma := 0,
    violRing := 0,
    violAmp := 0,
    violSec := [],
    weight := 16,
    guarCipher := 0,
    guarDigest := 0,
    guarPk := 0,
    flowLimit := 256,
    outLimit := 4096,
    busyDevice := 0,
    busyQuota := 0,
    maxWait := 0,
    credit := [0, 0, 0],
    rngWait := 50,
    compSession := none,
    latches := [],
    msix := [0, 0, 0, 1, 0, 0, 0, 1],
    msixPend := 0 }

/-- GLB block and the unit's own identity words. -/
structure Glb where
  /-- GLB_STEP.FABRIC_STEP. -/
  fabricStep   : BitVec 8
  /-- GLB_STEP.CONTROL_STEP. -/
  controlStep  : BitVec 8
  /-- GLB_SERIAL_LO/HI. -/
  serial       : BitVec 64
  /-- GLB_CAP reads 0 before the image is applied. -/
  imageApplied : Bool
  /-- GLB_CLU.FENCED. -/
  fenced       : BitVec 16
  /-- GLB_CLU.ENABLED. -/
  enabled      : BitVec 16
  /-- GLB_STAT.HUB_RESET. -/
  hubReset     : BitVec 4
  /-- GLB_STAT.CTRL_RESTART. -/
  ctrlRestart  : Bool
  /-- GLB_STAT.PHASE. -/
  phase        : BitVec 4
  /-- GLB_RESTARTS.HUB. -/
  hubResets    : Nat
  /-- GLB_RESTARTS.CONTROL. -/
  ctrlRestarts : Nat
  /-- GLB_CONTAIN.COUNT. -/
  contain      : Nat
  /-- Hub-mesh spokes closed by a fault. -/
  spokesClosed : List (Nat × Nat)
deriving DecidableEq, Repr

/-- Glb at reset. -/
def Glb.reset : Glb :=
  { fabricStep := 0,
    controlStep := 0,
    serial := 0,
    imageApplied := false,
    fenced := 0,
    enabled := 0xFFFF,
    hubReset := 0,
    ctrlRestart := false,
    phase := 0,
    hubResets := 0,
    ctrlRestarts := 0,
    contain := 0,
    spokesClosed := [] }

/-- Always-on island (CD00) and what it keeps. -/
structure Isl where
  /-- ISL_TICK. -/
  tick          : BitVec 32
  /-- ISL_STAT.CELL and TMP_ISLAND.PRESENT. -/
  cell          : Bool
  /-- ISL_STAT.MAIN and TMP_ISLAND.MAIN. -/
  main          : Bool
  /-- BBRAM envelope slot (key; the check is recomputed). -/
  envelope      : Option Bytes
  /-- The 16-byte check stored behind the envelope key in its BBRAM slot. -/
  envCheck      : Bytes
  /-- Two BBRAM root-record slots, current last. -/
  rootSlots     : List RootRec
  /-- TMP_SEQ.NEXT. -/
  alarmSeq      : BitVec 32
  /-- Island journal. -/
  journal       : List JournalRec
  /-- TMP_JOURNAL.OVERFLOW. -/
  journalOver   : Nat
  /-- TMP_JOURNAL.DEFERRED. -/
  deferred      : Bool
  /-- Island flag SPEND owed. -/
  spendOwed     : Bool
  /-- Island flag TRANSPORT owed. -/
  transportOwed : Bool
  /-- Island power-ups since manufacture. -/
  powerUps      : Nat
  /-- TMP_ISLAND.CELL_MV. -/
  cellMv        : BitVec 16
  /-- TMP_ISLAND.TEMP. -/
  temp          : BitVec 8
  /-- PWR_CELL.MEAN. -/
  cellMean      : BitVec 16
deriving DecidableEq, Repr

/-- Isl at reset. -/
def Isl.reset : Isl :=
  { tick := 0,
    cell := false,
    main := false,
    envelope := none,
    envCheck := [],
    rootSlots := [],
    alarmSeq := 0,
    journal := [],
    journalOver := 0,
    deferred := false,
    spendOwed := false,
    transportOwed := false,
    powerUps := 0,
    cellMv := 0,
    temp := 0,
    cellMean := 0 }

/-- One-time-programmable antifuse rows. -/
structure Otp where
  /-- LC0 to LC19. -/
  lcRows : List (BitVec 64)
  /-- Root row. -/
  root   : BitVec 512
deriving DecidableEq, Repr

/-- Otp at reset. -/
def Otp.reset : Otp :=
  { lcRows := List.replicate 20 0,
    root := 0 }

/-- One configuration bank of the NOR. -/
structure Bank where
  /-- Bytes programmed from offset 0; nothing beyond them. -/
  bytes : Bytes
  /-- CFG_WRITE.NEXT of this bank, 256-byte units. -/
  next  : Nat
  /-- CFG_WRITE.DIRTY of this bank. -/
  dirty : Bool
deriving DecidableEq, Repr

/-- Bank at reset. -/
def Bank.reset : Bank :=
  { bytes := [],
    next := 0,
    dirty := false }

/-- Configuration NOR: two banks and the mirrored recovery area. -/
structure Nor where
  /-- Bank A. -/
  bankA      : Bank
  /-- Bank B. -/
  bankB      : Bank
  /-- Certificate chain (mirrored). -/
  chain      : Bytes
  /-- Public key in the ML-DSA leaf certificate. -/
  chainMldsa : Bytes
  /-- Public key in the P-384 leaf certificate. -/
  chainEc    : Bytes
  /-- Saved PRF write counts. -/
  prfCounts  : List (Nat × Nat)
  /-- Both copies of the domain-0 authority key. -/
  authKey    : List Bytes
deriving DecidableEq, Repr

/-- Nor at reset. -/
def Nor.reset : Nor :=
  { bankA := Bank.reset,
    bankB := Bank.reset,
    chain := [],
    chainMldsa := [],
    chainEc := [],
    prfCounts := [],
    authKey := [[], []] }

/-- A vault checkpoint in its PRF slot (R243): the root record and its MAC under the vault master key. -/
structure CkptRec where
  /-- Root record. -/
  root : RootRec
  /-- MAC under the vault master key. -/
  mac  : Bytes
deriving DecidableEq, Repr

/-- CkptRec at reset. -/
def CkptRec.reset : CkptRec :=
  { root := RootRec.reset,
    mac := [] }

/-- Persistent register file (Table 15.7). -/
structure Prf where
  /-- KUM counters that are not 0, by domain. -/
  kumCounters : List (Nat × Nat)
  /-- Vault checkpoint slots. -/
  ckpt        : List CkptRec
  /-- VLT_CKPT.SLOT. -/
  ckptSlot    : Nat
  /-- Domain-0 roster; empty is not enrolled. -/
  roster0     : List RosterEntry
  /-- Domain-0 PROHIBIT. -/
  policy0     : BitVec 32
  /-- Domain-0 AUTHKIND. -/
  auth0Kind   : Nat
  /-- SHA-384 of the domain-0 authority key. -/
  auth0Digest : Bytes
  /-- Bank marked active: 0 A, 1 B. -/
  active      : Nat
  /-- Bank marked pending. -/
  pend        : Option Nat
  /-- PRS_FLOOR, three copies. -/
  imageFloor  : Triple (BitVec 64)
  /-- PRS_FW_FLOOR, three copies. -/
  fwFloor     : Triple (BitVec 16)
  /-- PRS_USER(i). -/
  user        : List (BitVec 32)
  /-- LCS_DBG_CNT. -/
  dbgCount    : Nat
  /-- DIAPAUSE transport record. -/
  transport   : Option TransportRec
  /-- PRS_CYCLES. -/
  cycles      : Nat
  /-- Operating time saved, ms. -/
  opTime      : Nat
  /-- Flag word beside the operating time. -/
  opFlag      : Nat
  /-- Write counts of PRF words that are not 0 (Jenaro SRAM). -/
  counts      : List (Nat × Nat)
  /-- PRS_SEL.WORD. -/
  sel         : BitVec 11
deriving DecidableEq, Repr

/-- Prf at reset. -/
def Prf.reset : Prf :=
  { kumCounters := [],
    ckpt := [],
    ckptSlot := 0,
    roster0 := [],
    policy0 := 0,
    auth0Kind := 0,
    auth0Digest := [],
    active := 0,
    pend := none,
    imageFloor := ⟨0, 0, 0⟩,
    fwFloor := ⟨0, 0, 0⟩,
    user := List.replicate 8 0,
    dbgCount := 0,
    transport := none,
    cycles := 0,
    opTime := 0,
    opFlag := 0,
    counts := [],
    sel := 0 }

/-- Report of the applied image (CFG block). -/
structure Cfg where
  /-- CFG_STAT.CAUSE_A. -/
  causeA       : Nat
  /-- CFG_STAT.CAUSE_B. -/
  causeB       : Nat
  /-- CFG_STAT.SOURCE. -/
  source       : Nat
  /-- CFG_STAT.STATE. -/
  state        : Nat
  /-- CFG_VERSION. -/
  version      : BitVec 64
  /-- CFG_FW.RELEASE. -/
  fwRelease    : BitVec 16
  /-- CFG_FW.MIN. -/
  fwMin        : BitVec 16
  /-- CFG_FIELDS.IGNORED. -/
  ignored      : Nat
  /-- CFG_FIELDS.APPLIED. -/
  applied      : Nat
  /-- CFG_REPORTS.LOST. -/
  lost         : Nat
  /-- CFG_REP entries. -/
  reports      : List CfgReport
  /-- CFG_WRITE.BANK. -/
  writeBank    : Nat
  /-- CFG_DIGEST, SHA-384 of the applied image. -/
  digest       : Bytes
  /-- REQUIRE_IDE field. -/
  requireIde   : Bool
  /-- TAMPER_FILTER as applied; empty means the defaults. -/
  tamperFilter : List Nat
deriving DecidableEq, Repr

/-- Cfg at reset. -/
def Cfg.reset : Cfg :=
  { causeA := 9,
    causeB := 9,
    source := 0,
    state := 0,
    version := 0,
    fwRelease := 0,
    fwMin := 0,
    ignored := 0,
    applied := 0,
    lost := 0,
    reports := [],
    writeBank := 0,
    digest := [],
    requireIde := false,
    tamperFilter := [] }

/-- Life cycle and debug. -/
structure Lcs where
  /-- LCS_STAT.LOST_CAUSE. -/
  lostCause  : Nat
  /-- LCS_STAT.BUSY. -/
  busy       : Bool
  /-- LCS_STAT.DEBUG. -/
  debug      : Nat
  /-- LCS_GATE.NEED. -/
  need       : Nat
  /-- LCS_GATE.HAVE. -/
  avail      : Nat
  /-- Operating time at which the input last left its range or the module started (LCS_STABLE counts from it). -/
  unstableAt : Nat
  /-- LCS_LAST.FROM. -/
  lastFrom   : Nat
  /-- LCS_LAST.TO. -/
  lastTo     : Nat
  /-- LCS_LAST.STATUS. -/
  lastStatus : BitVec 16
  /-- LCS_DBG.VIOL. -/
  viol       : Nat
  /-- Operating times of the session's refused accesses within the last 1 s. -/
  violTimes  : List Nat
  /-- LCS_DBG.CLOSED_VIOL. -/
  closedViol : Bool
  /-- Current debug challenge (LCS_CHAL, LCS_DBG.CHAL). -/
  challenge  : Option Bytes
  /-- The root is to be generated at this start. -/
  rootGenDue : Bool
  /-- FROM and TO of the transition under way, whose row is programmed. -/
  moving     : Option (Nat × Nat)
  /-- TARGET of the transition that runs. -/
  towards    : Nat
deriving DecidableEq, Repr

/-- Lcs at reset. -/
def Lcs.reset : Lcs :=
  { lostCause := 0,
    busy := false,
    debug := 0,
    need := 0,
    avail := 0,
    unstableAt := 0,
    lastFrom := 0,
    lastTo := 0,
    lastStatus := 0,
    viol := 0,
    violTimes := [],
    closedViol := false,
    challenge := none,
    rootGenDue := false,
    moving := none,
    towards := 0 }

/-- One tamper monitor (TMP_MON and TMP_MON_CNT). -/
structure MonRec where
  /-- TMP_MON(m).DISAGREE. -/
  disagree : Nat
  /-- TMP_MON(m).ATLAS. -/
  atlas    : Bool
  /-- TMP_MON(m).LUNA. -/
  luna     : Bool
  /-- TMP_MON(m).ALARM. -/
  alarm    : Bool
  /-- TMP_MON_CNT(m).ATLAS. -/
  cntAtlas : Nat
  /-- TMP_MON_CNT(m).LUNA. -/
  cntLuna  : Nat
deriving DecidableEq, Repr

/-- MonRec at reset. -/
def MonRec.reset : MonRec :=
  { disagree := 0,
    atlas := false,
    luna := false,
    alarm := false,
    cntAtlas := 0,
    cntLuna := 0 }

/-- Tamper controller. -/
structure Tmp where
  /-- TMP_STAT.RECOM_NEEDED. -/
  recomNeeded : Bool
  /-- TMP_STAT.STATE. -/
  state       : Nat
  /-- TMP_STAT.OPEN. -/
  open_       : Bool
  /-- TMP_STAT.CLASS. -/
  cls         : Nat
  /-- Recovery from a SHED or ZEROIZE is owed. -/
  owed        : Bool
  /-- TMP_STAT.SEEN. -/
  seen        : BitVec 5
  /-- TMP_INCIDENT. -/
  incident    : BitVec 32
  /-- TMP_ALARMS.FOLDED. -/
  folded      : Nat
  /-- TMP_ALARMS.COUNT. -/
  alarms      : Nat
  /-- TMP_DISAGREE.COUNT. -/
  disagree    : Nat
  /-- TMP_RECOM.CAUSE. -/
  recomCause  : Nat
  /-- TMP_RECOM.STATE. -/
  recomState  : Nat
  /-- TMP_TEMP.FABRIC. -/
  tempFabric  : BitVec 8
  /-- TMP_TEMP.CONTROL. -/
  tempControl : BitVec 8
  /-- Monitors 0 to 127. -/
  mons        : Vector MonRec 128
  /-- Monitors among the open incident's alarms of class PAUSE or higher. -/
  incMons     : List Nat
  /-- Layer and time of recent mesh alarms. -/
  meshTimes   : List (Nat × Nat)
  /-- MODEL'S OWN, operating time at which the clear time of the open incident last began. -/
  clearFrom   : Nat
  /-- A ZEROIZE is among the responses whose recovery is to come. -/
  zeroized    : Bool
deriving DecidableEq, Repr

/-- Tmp at reset. -/
def Tmp.reset : Tmp :=
  { recomNeeded := false,
    state := 0,
    open_ := false,
    cls := 0,
    owed := false,
    seen := 0,
    incident := 0,
    folded := 0,
    alarms := 0,
    disagree := 0,
    recomCause := 0,
    recomState := 0,
    tempFabric := 0,
    tempControl := 0,
    mons := Vector.replicate 128 MonRec.reset,
    incMons := [],
    meshTimes := [],
    clearFrom := 0,
    zeroized := false }

/-- Event recorder. -/
structure Evr where
  /-- EVR_STAT.STATE. -/
  state     : Nat
  /-- EVR_STAT.STOP_CAUSE. -/
  stopCause : Nat
  /-- Holding queue, oldest first. -/
  hold      : List EvRecord
  /-- Open batch, oldest first. -/
  openBatch : List EvRecord
  /-- Operating time at which the freeze expires (EVR_FREEZE.LEFT). -/
  freezeEnd : Option Nat
  /-- Batches held in the recorder partition, oldest first. -/
  batches   : List Batch
  /-- EVR_LAST, newest closed batch. -/
  last      : Nat
  /-- Link of the newest closed batch; empty before batch 1. -/
  link      : Bytes
  /-- EVR_NEXT. -/
  nextSeq   : BitVec 32
  /-- EVR_OVERFLOW.DISCARDED. -/
  discarded : Nat
  /-- EVR_OVERFLOW.DISPLACED. -/
  displaced : Nat
  /-- Discarded, displaced and first lost SEQ of the present freeze or unavailability. -/
  lostNow   : List Nat
  /-- The next written record carries GAP. -/
  gap       : Bool
  /-- The next record carries TIME_ADJ. -/
  timeAdj   : Bool
  /-- EVR_LOST. -/
  lost      : Nat
  /-- Erasures of the recorder pool's blocks in all; EVR_WEAR.MAX and AVG follow from it. -/
  erasures  : Nat
  /-- Bytes programmed to the recorder pool in each of the trailing 720 operating hours, newest first. -/
  hourBytes : List Nat
  /-- Bytes programmed to the recorder pool in the running hour. -/
  hourNow   : Nat
  /-- Numbers of the island-journal records whose copies are in the open batch. -/
  copied    : List (BitVec 32)
deriving DecidableEq, Repr

/-- Evr at reset. -/
def Evr.reset : Evr :=
  { state := 0,
    stopCause := 0,
    hold := [],
    openBatch := [],
    freezeEnd := none,
    batches := [],
    last := 0,
    link := [],
    nextSeq := 0,
    discarded := 0,
    displaced := 0,
    lostNow := [],
    gap := false,
    timeAdj := false,
    lost := 0,
    erasures := 0,
    hourBytes := [],
    hourNow := 0,
    copied := [] }

/-- One health indicator (HLT_IND, HLT_VAL, HLT_FLAGS; HLT_LIM is a constant of Table 19.5). -/
structure Indicator where
  /-- HLT_IND(i). -/
  hours  : BitVec 32
  /-- HLT_VAL(i). -/
  value  : Nat
  /-- HLT_FLAGS(i).NONE. -/
  noneP  : Bool
  /-- HLT_STAT.WARNED bit i. -/
  warned : Bool
deriving DecidableEq, Repr

/-- Indicator at reset. -/
def Indicator.reset : Indicator :=
  { hours := 0xFFFFFFFF,
    value := 0,
    noneP := true,
    warned := false }

/-- Health block. -/
structure Hlt where
  /-- Indicators 0 to 22. -/
  inds      : Vector Indicator 23
  /-- HLT_STAT.MIN_IND. -/
  minInd    : Nat
  /-- HLT_EOL. -/
  eol       : BitVec 32
  /-- HLT_AT. -/
  at_       : Nat
  /-- HLT_THRESH. -/
  thresh    : BitVec 32
  /-- HLT_CTL.RECOMPUTE held during a control-pair restart. -/
  recompute : Bool
  /-- PRF write counts at the end of each of the trailing operating hours, newest first. -/
  prfPast   : List (List (Nat × Nat))
  /-- Hourly measurements of the hold-up energy as hour and 10 mJ, newest first. -/
  energies  : List (Nat × Nat)
  /-- Weighted converter hours in units of 2^-32 hour. -/
  convTotal : Nat
  /-- Weight of each of the trailing 720 operating hours, newest first. -/
  convHours : List Nat
  /-- Corrected QDR errors in each of the trailing 1,440 operating hours, newest first. -/
  qdrHours  : List Nat
  /-- Corrected QDR errors in the running hour. -/
  qdrNow    : Nat
deriving DecidableEq, Repr

/-- Hlt at reset. -/
def Hlt.reset : Hlt :=
  { inds := Vector.replicate 23 Indicator.reset,
    minInd := 0,
    eol := 0xFFFFFFFF,
    at_ := 0,
    thresh := 8760,
    recompute := false,
    prfPast := [],
    energies := [],
    convTotal := 0,
    convHours := [],
    qdrHours := [],
    qdrNow := 0 }

/-- Power, hold-up bank, rails and resets. -/
structure Pwr where
  /-- Input above the start threshold. -/
  inputOn        : Bool
  /-- Steps 4 to 8 of Table 15.1 have run. -/
  booted         : Bool
  /-- PWR_STAT.STATE. -/
  state          : Nat
  /-- PWR_STAT.THROTTLE_P. -/
  throttleP      : Bool
  /-- PWR_STAT.THROTTLE_T. -/
  throttleT      : Bool
  /-- PWR_STAT.CHARGED. -/
  charged        : Bool
  /-- Bank charging is on. -/
  charging       : Bool
  /-- PWR_STAT.INPUT_OK. -/
  inputOk        : Bool
  /-- PWR_STAT.HOLDUP. -/
  holdup         : Bool
  /-- The input-loss sequence is armed. -/
  armed          : Bool
  /-- PWR_VIN.CURRENT. -/
  current        : BitVec 16
  /-- PWR_VIN.VOLTAGE. -/
  voltage        : BitVec 16
  /-- PWR_PIN.AVG_1MIN. -/
  avg1Min        : BitVec 16
  /-- PWR_PIN.AVG_1S. -/
  avg1S          : BitVec 16
  /-- Input power of the last evaluations of 10 ms each, the latest first, at most a minute's. -/
  powers         : List Nat
  /-- PWR_BANK.VOLT. -/
  bankVolt       : BitVec 16
  /-- Drop of the bank in mV at the last measurement; 0 before any. -/
  bankDrop       : Nat
  /-- PWR_BANK.ENERGY. -/
  energy         : Nat
  /-- PWR_BANK_AT. -/
  bankAt         : Nat
  /-- PWR_RAILS.OK. -/
  rails          : BitVec 7
  /-- PWR_GATE.GATED. -/
  gated          : BitVec 16
  /-- PWR_GATE.PARKED. -/
  parked         : BitVec 16
  /-- Parked clusters whose running work has not ended. -/
  parking        : BitVec 16
  /-- Clusters between unpark decision and eligibility. -/
  unparking      : BitVec 16
  /-- PWR_THROTTLE.PARKS. -/
  parks          : Nat
  /-- PWR_THROTTLE.SECONDS. -/
  parkSeconds    : Nat
  /-- Milliseconds of the present whole second with a cluster parked. -/
  parkMs         : Nat
  /-- Consecutive 10 ms evaluations below 95 °C and 100 W. -/
  coolTicks      : Nat
  /-- Consecutive evaluations below 100 W. -/
  lowTicks       : Nat
  /-- The input power was above 110 W at the last evaluation. -/
  overLast       : Bool
  /-- PWR_CONV. -/
  conv           : BitVec 32
  /-- PWR_LOSS.INCOMPLETE. -/
  lossIncomplete : Nat
  /-- PWR_LOSS.SEQUENCES. -/
  lossSeqs       : Nat
  /-- PWR_LAST.OUTCOME. -/
  lastOutcome    : Nat
  /-- PWR_LAST.TIME. -/
  lastTime       : Nat
  /-- PWR_RESETS.PERST. -/
  perstCount     : Nat
  /-- PWR_RESETS.COLD. -/
  coldCount      : Nat
  /-- PERST# is asserted. -/
  perstLow       : Bool
  /-- A start waits at step 4 because COLD_RST# is low (its cause). -/
  coldWait       : Option Nat
  /-- SMB_ALERT# is driven low. -/
  smbAlert       : Bool
  /-- Word returned by the last SMBus Read Word. -/
  smbReply       : Option (BitVec 16)
deriving DecidableEq, Repr

/-- Pwr at reset. -/
def Pwr.reset : Pwr :=
  { inputOn := false,
    booted := false,
    state := 0,
    throttleP := false,
    throttleT := false,
    charged := false,
    charging := false,
    inputOk := false,
    holdup := false,
    armed := false,
    current := 0,
    voltage := 0,
    avg1Min := 0,
    avg1S := 0,
    powers := [],
    bankVolt := 0,
    bankDrop := 0,
    energy := 0,
    bankAt := 0,
    rails := 0,
    gated := 0,
    parked := 0,
    parking := 0,
    unparking := 0,
    parks := 0,
    parkSeconds := 0,
    parkMs := 0,
    coolTicks := 0,
    lowTicks := 0,
    overLast := false,
    conv := 0,
    lossIncomplete := 0,
    lossSeqs := 0,
    lastOutcome := 0,
    lastTime := 0,
    perstCount := 0,
    coldCount := 0,
    perstLow := false,
    coldWait := none,
    smbAlert := false,
    smbReply := none }

/-- One DRBG (CTR_DRBG, AES-256) with its output queue. -/
structure Gen where
  /-- RNG_DRBG(g).SEEDED. -/
  seeded     : Bool
  /-- RNG_DRBG(g).MARKED. -/
  marked     : Bool
  /-- RNG_DRBG(g).CAUSE. -/
  cause      : Bool
  /-- RNG_DRBG(g).RESEEDS. -/
  reseeds    : Nat
  /-- RNG_DRBG_GEN(g).CALLS. -/
  calls      : Nat
  /-- Output queue. -/
  queue      : Bytes
  /-- CTR_DRBG Key. -/
  key        : Bytes
  /-- CTR_DRBG V. -/
  v          : Bytes
  /-- Waits for a function-level reset's re-instantiation. -/
  reinst     : Bool
  /-- A background reseed is due. -/
  background : Bool
  /-- Operating time of the last instantiation or reseed. -/
  since      : Nat
deriving DecidableEq, Repr

/-- Gen at reset. -/
def Gen.reset : Gen :=
  { seeded := false,
    marked := false,
    cause := false,
    reseeds := 0,
    calls := 0,
    queue := [],
    key := [],
    v := [],
    reinst := false,
    background := false,
    since := 0 }

/-- Random source. -/
structure Rng where
  /-- RNG_STAT.PHASE. -/
  phase     : Nat
  /-- RNG_STAT.CELL_FAIL. -/
  cellFail  : BitVec 8
  /-- RNG_STAT.RETRIES. -/
  retries   : Nat
  /-- The known-answer tests have passed since the source started. -/
  kat       : Bool
  /-- A health-test failure has been followed by no return to phase 3. -/
  recover   : Bool
  /-- Oscillators stopped for a restart. -/
  stopped   : Bool
  /-- The first window after a start or restart decides. -/
  testing   : Bool
  /-- RNG_FAILS.LOCK. -/
  failLock  : Nat
  /-- RNG_FAILS.LIVENESS. -/
  failLive  : Nat
  /-- RNG_RECOVER.FAILED. -/
  failed    : Nat
  /-- RNG_RECOVER.RESTARTS. -/
  restarts  : Nat
  /-- RNG_CELL(i): LOCKVAR and TRANS. -/
  cells     : List (Nat × Nat)
  /-- Module-wide instantiation counter. -/
  instCount : BitVec 32
  /-- Generators 0 to 259. -/
  gens      : Vector Gen 260
deriving DecidableEq, Repr

/-- Rng at reset. -/
def Rng.reset : Rng :=
  { phase := 0,
    cellFail := 0,
    retries := 0,
    kat := false,
    recover := false,
    stopped := false,
    testing := false,
    failLock := 0,
    failLive := 0,
    failed := 0,
    restarts := 0,
    cells := List.replicate 8 (0, 0),
    instCount := 0,
    gens := Vector.replicate 260 Gen.reset }

/-- One change of a commit (R245). -/
inductive Change where
  /-- A new object under a number reserved for it. -/
  | create (o : Obj)
  /-- A new version of an object, with the version that must be current (0 for any). -/
  | replace (o : Obj) (expect : Nat)
  /-- OBJECT_DELETE (R266). -/
  | delete (handle expect : Nat)
  /-- OBJECT_RESTRICT (R267) with its restriction block. -/
  | restrict (handle expect : Nat) (block : Bytes)
  /-- A domain made or its record written whole (R302, R321). -/
  | domPut (d : Nat) (r : DomRec)
  /-- DOMAIN_DELETE (R321). -/
  | domDelete (d : Nat)
  /-- ROSTER_SET (R319). -/
  | roster (d : Nat) (r : List RosterEntry)
  /-- POLICY_SET (R317). -/
  | policy (d : Nat) (prohibit : BitVec 32) (authKind : Nat) (authKey : Bytes)
  /-- DOMAIN_QUOTA (R322). -/
  | quota (d units flows : Nat)
  /-- DOMAIN_PURGE (R320): the epoch advances and every object, label and chain of the domain goes. -/
  | purge (d : Nat)
  /-- LABEL_SET and LABEL_DELETE (R365). -/
  | label (d : Nat) (name : Bytes) (handle : Option Nat) (inst : Nat) (replace : Bool)
  /-- A ledger chain record written (R343, R348). -/
  | chain (d : Nat) (c : Chain)
  /-- LEDGER_CHAIN_CLOSE (R348). -/
  | chainClose (d num : Nat)
  /-- The live records of NAND blocks and pages programmed elsewhere (R260, R261). -/
  | collect (blocks pages : List Nat)
  /-- The internal objects of a domain sealed as its record stands (R348). -/
  | store (d : Nat)
deriving DecidableEq, Repr

/-- A commit accepted by the vault controller (R246): the message it completes, its instance, its sequence number, its changes and
the completion that follows. -/
structure PendCommit where
  msg     : Option Nat
  inst    : Nat
  seq     : Nat
  changes : List Change
  final   : Final
deriving DecidableEq, Repr

/-- One NAND block of the vault pool that has been written (Table 10.1, R256): its own metadata and what it holds. -/
structure Blk where
  /-- Block number; its die is the quotient by 8,704. -/
  num     : Nat
  /-- Program/erase count. -/
  count   : Nat
  /-- Pages programmed since the last erase, of 256. -/
  used    : Nat
  /-- Retired-block mark. -/
  retired : Bool
  /-- Marked for erasure before reuse. -/
  mark    : Bool
  /-- Handles of images in records that are no longer current. -/
  stale   : List Nat
  /-- Hour at which the oldest superseded image it holds was superseded. -/
  dead    : Option Nat
deriving DecidableEq, Repr

/-- Blk at reset. -/
def Blk.reset : Blk :=
  { num := 0,
    count := 0,
    used := 0,
    retired := false,
    mark := true,
    stale := [],
    dead := none }

/-- A current record of the integrity tree in NAND (R243): leaf record (level 0), node, or root node (level 7). -/
structure NandRec where
  /-- Level. -/
  level  : Nat
  /-- Index within the level: the vault page at level 0. -/
  index  : Nat
  /-- NAND page at which its stored image begins. -/
  loc    : Nat
  /-- NAND page at which it ends. -/
  last   : Nat
  /-- SHA-256 digest of its stored image, as its parent holds it. -/
  digest : Bytes
deriving DecidableEq, Repr

/-- NandRec at reset. -/
def NandRec.reset : NandRec :=
  { level := 0,
    index := 0,
    loc := 0,
    last := 0,
    digest := [] }

/-- Vault controller, its registers and QDR. -/
structure Vlt where
  /-- VLT_STAT.STATE. -/
  state         : Nat
  /-- VLT_STAT.RO_CAUSE. -/
  roCause       : Nat
  /-- VLT_MOUNT.ROLLED. -/
  rolled        : Nat
  /-- VLT_MOUNT.CAUSE. -/
  mountCause    : Nat
  /-- NAND holds a formatted vault. -/
  formatted     : Bool
  /-- Envelope key under which the present vault was formatted (what its header opens under). -/
  vaultKey      : Bytes
  /-- Placement key in the vault header. -/
  placement     : Bytes
  /-- Domain epochs that are not 0. -/
  epochs        : List (Nat × Nat)
  /-- Objects of the vault, by rising handle. -/
  objs          : List Obj
  /-- Blocks of the vault pool; one not listed has never been written. -/
  blks          : List Blk
  /-- Block being filled. -/
  openBlk       : Option Nat
  /-- Current records of the integrity tree. -/
  tree          : List NandRec
  /-- Commit records since the newest PRF checkpoint, oldest first. -/
  log           : List RootRec
  /-- Verified nodes of levels 1 and 2 in the tree cache. -/
  cache         : List (Nat × Nat)
  /-- Bytes programmed to the vault pool since manufacture. -/
  progBytes     : Nat
  /-- Bytes programmed in the present operating hour, by commits and in all. -/
  hourNow       : Nat × Nat
  /-- The same for the last operating hours, newest first. -/
  hourBytes     : List (Nat × Nat)
  /-- MODEL'S OWN: full operating hours since power-up, which VLT_WA covers. -/
  upHours       : Nat
  /-- MODEL'S OWN: bytes of the present hour programmed before power-up. -/
  upBytes       : Nat × Nat
  /-- The open batch is due to close and waits for a batch in flight or for space. -/
  closeDue      : Bool
  /-- Relocations left to the commit being applied. -/
  moves         : Nat
  /-- VLT_SEQ, sequence of the current root record. -/
  seq           : Nat
  /-- VLT_CKPT.SINCE. -/
  since         : Nat
  /-- VLT_RATE. -/
  rate          : Nat
  /-- Commits in the present operating hour. -/
  hourCommits   : Nat
  /-- VLT_COMMIT.FAILED. -/
  failedBatches : Nat
  /-- VLT_COMMIT.RETRIED. -/
  retried       : Nat
  /-- VLT_INTEG.LOST_PAGES. -/
  lostPages     : Nat
  /-- Handles whose only image is lost or fails its checks. -/
  badHandles    : List Nat
  /-- VLT_INTEG.FAILS. -/
  integFails    : Nat
  /-- VLT_KC_HIT. -/
  kcHit         : Nat
  /-- VLT_KC_MISS. -/
  kcMiss        : Nat
  /-- Key-cache contents, least recently used first. -/
  kc            : List KcLine
  /-- VLT_QDR.UNCORR. -/
  qdrUncorr     : Nat
  /-- VLT_QDR.CORR. -/
  qdrCorr       : Nat
  /-- Operating times of uncorrectable errors within the last 1 s. -/
  qdrTimes      : List Nat
  /-- VLT_CTL.CHECKPOINT. -/
  ckptBusy      : Bool
  /-- Commits of the batch still open. -/
  batch         : List PendCommit
  /-- Closed batches in flight, oldest first. -/
  flight        : List (List PendCommit)
  /-- Read-back failures of the oldest batch in flight. -/
  tries         : Nat
  /-- Object numbers reserved by creations under way (as handles). -/
  reserved      : List Nat
  /-- Assignment counters that have moved, by domain. -/
  assignNext    : List (Nat × Nat)
  /-- QDR memory key. -/
  memKey        : Option Bytes
  /-- QDR scrub under way. -/
  scrubbing     : Bool
  /-- Last sequence number given to an accepted commit. -/
  sealed        : Nat
  /-- A mount begins once the memory key exists. -/
  mountDue      : Bool
  /-- QDR was lost since the last mount, so chain heads come from the ledger journal. -/
  fresh         : Bool
  /-- The mount that is due follows an exit from DIAPAUSE. -/
  diaExit       : Bool
  /-- Ledger-journal records: the root sequence they are bound to, and each record sealed under the vault master key. -/
  ledgerJournal : List (Nat × Bytes)
deriving DecidableEq, Repr

/-- Vlt at reset. -/
def Vlt.reset : Vlt :=
  { state := 0,
    roCause := 0,
    rolled := 0,
    mountCause := 0,
    formatted := false,
    vaultKey := [],
    placement := [],
    epochs := [],
    objs := [],
    blks := [],
    openBlk := none,
    tree := [],
    log := [],
    cache := [],
    progBytes := 0,
    hourNow := (0, 0),
    hourBytes := [],
    upHours := 0,
    upBytes := (0, 0),
    closeDue := false,
    moves := 0,
    seq := 0,
    since := 0,
    rate := 0,
    hourCommits := 0,
    failedBatches := 0,
    retried := 0,
    lostPages := 0,
    badHandles := [],
    integFails := 0,
    kcHit := 0,
    kcMiss := 0,
    kc := [],
    qdrUncorr := 0,
    qdrCorr := 0,
    qdrTimes := [],
    ckptBusy := false,
    batch := [],
    flight := [],
    tries := 0,
    reserved := [],
    assignNext := [],
    memKey := none,
    scrubbing := false,
    sealed := 0,
    mountDue := false,
    fresh := false,
    diaExit := false,
    ledgerJournal := [] }

/-- Domains and tandems. -/
structure Dom where
  /-- Records of domains 1 to 1023 that exist, by number. -/
  recs    : List (Nat × DomRec)
  /-- Quotas, labels and chains of domain 0 (roster, policy and authority are in the PRF). -/
  rec0    : DomRec
  /-- Open tandems, oldest first. -/
  tandems : List Tandem
  /-- Tandem counter. -/
  nextTid : Nat
deriving DecidableEq, Repr

/-- Dom at reset. -/
def Dom.reset : Dom :=
  { recs := [],
    rec0 := DomRec.reset,
    tandems := [],
    nextTid := 1 }

/-- Key material in an engine's registers (R129, R175): the key registers, the derived-value register, and in a digest engine the
pad-state registers in their place. A cleared register holds no bytes. -/
structure KeyRegs where
  /-- Key register A: the bytes of the key loaded. -/
  a      : Bytes
  /-- Key register B. -/
  b      : Bytes
  /-- Derived-value register: the GCM hash subkey H. -/
  h      : Bytes
  /-- Derived-value register: the CMAC subkey K1. -/
  k1     : Bytes
  /-- Derived-value register: the CMAC subkey K2. -/
  k2     : Bytes
  /-- Inner pad-state register of a digest engine. -/
  padIn  : List (BitVec 64)
  /-- Outer pad-state register of a digest engine. -/
  padOut : List (BitVec 64)
deriving DecidableEq, Repr

/-- KeyRegs at reset. -/
def KeyRegs.reset : KeyRegs :=
  { a := [],
    b := [],
    h := [],
    k1 := [],
    k2 := [],
    padIn := [],
    padOut := [] }

/-- Operand memory of a public-key engine, 8 KiB (R196). Cleared memory holds no bytes. -/
structure OpMem where
  /-- Inputs of the operation. -/
  input  : Bytes
  /-- Key image of KEY_A. -/
  image  : Bytes
  /-- Montgomery constants computed at key load. -/
  consts : Bytes
  /-- Random values drawn for the operation. -/
  random : Bytes
  /-- Intermediates of the operation. -/
  inter  : Bytes
deriving DecidableEq, Repr

/-- OpMem at reset. -/
def OpMem.reset : OpMem :=
  { input := [],
    image := [],
    consts := [],
    random := [],
    inter := [] }

/-- One engine (cipher, digest or public-key). -/
structure Engine where
  /-- Message whose lap or operation runs on it. -/
  work   : Option Nat
  /-- Owner of the loaded key registers. -/
  inst   : Option Nat
  /-- Handle and version in key register A (pad state, key image). -/
  keyA   : Option (Nat × Nat)
  /-- Handle and version in key register B. -/
  keyB   : Option (Nat × Nat)
  /-- Domain of the owner of the operand memory. -/
  domain : Option Nat
  /-- Contents of the key registers, the derived-value register and the pad-state registers. -/
  key    : KeyRegs
  /-- Sequencer registers r0 to r15 of the lap that runs. -/
  regs   : List (BitVec 128)
  /-- The padding unit's buffers: fill bytes and the held final block. -/
  padBuf : Bytes
  /-- Pass buffer of a digest engine. -/
  pass   : Bytes
  /-- Operand memory of a public-key engine. -/
  mem    : OpMem
deriving DecidableEq, Repr

/-- Engine at reset. -/
def Engine.reset : Engine :=
  { work := none,
    inst := none,
    keyA := none,
    keyB := none,
    domain := none,
    key := KeyRegs.reset,
    regs := [],
    padBuf := [],
    pass := [],
    mem := OpMem.reset }

/-- One cluster with its CLU window. -/
structure Cluster where
  /-- CLU_STAT.STATE (parked and fenced follow PWR and GLB). -/
  state       : CluState
  /-- CLU_FAULT.ENGINE. -/
  faultEngine : Nat
  /-- CLU_FAULT.CAUSE. -/
  faultCause  : Nat
  /-- CLU_LAPS. -/
  laps        : Nat
  /-- CLU_PKOPS. -/
  pkops       : Nat
  /-- CLU_WAKES. -/
  wakes       : Nat
  /-- CLU_CE.PROG. -/
  ceProg      : Nat
  /-- CLU_CE.STAGE. -/
  ceStage     : Nat
  /-- CLU_PS_SCRUB. -/
  scrub       : Nat
  /-- CLU_STAT.BUSY at fencing. -/
  heldBusy    : Nat
  /-- CLU_STAGE.KIB at fencing. -/
  heldKib     : Nat
deriving DecidableEq, Repr

/-- Cluster at reset. -/
def Cluster.reset : Cluster :=
  { state := .disabled,
    faultEngine := 0xFF,
    faultCause := 0,
    laps := 0,
    pkops := 0,
    wakes := 0,
    ceProg := 0,
    ceStage := 0,
    scrub := 0,
    heldBusy := 0,
    heldKib := 0 }

/-- What one public-key operation of the internal world takes (R196, R197, R207). -/
structure IntWork where
  /-- Its fixed time in engine cycles. -/
  cycles : Nat
  /-- Inputs that are known when it is submitted. -/
  input  : Bytes
  /-- Key image of an identity or receive key, which is no object. -/
  image  : Bytes
  /-- The object whose key it loads, as it was when the work was submitted. -/
  key    : Option Obj
  /-- Random bytes drawn from generator 259 at its dispatch. -/
  need   : Nat
  /-- The domain whose receive key it generates. -/
  drk    : Option Nat
deriving DecidableEq, Repr

/-- IntWork at reset. -/
def IntWork.reset : IntWork :=
  { cycles := 0,
    input := [],
    image := [],
    key := none,
    need := 0,
    drk := none }

/-- What the internal world works for on a public-key engine (R110): a message, a checkpoint that a chain makes in the
background, or the SPDM responder. -/
inductive IntOwner where
  | message (id : Nat)
  | chain (domain chain : Nat)
  | spdm
deriving DecidableEq, Repr

/-- One public-key operation that Jenaro submits (R110, R198). It waits while no engine's work is its number. -/
structure IntOp where
  /-- MODEL'S OWN: its number, from those of the messages. -/
  id      : Nat
  /-- What it is for. -/
  owner   : IntOwner
  /-- What it takes. -/
  work    : IntWork
  /-- The random values drawn for it at dispatch, kept for a replay and for its result. -/
  random  : Bytes
  /-- It waits for the vault read of its key. -/
  reading : Bool
  /-- It has ended and its result waits to be used. -/
  ended   : Bool
  /-- It is in the replay queue. -/
  again   : Bool
  /-- Its place in the replay queue. -/
  stamp   : Nat
deriving DecidableEq, Repr

/-- IntOp at reset. -/
def IntOp.reset : IntOp :=
  { id := 0,
    owner := .spdm,
    work := IntWork.reset,
    random := [],
    reading := false,
    ended := false,
    again := false,
    stamp := 0 }

/-- Scheduler, flows, templates and outstanding messages. -/
structure Sch where
  /-- SCH_CTL.FW_IDLE. -/
  fwIdle       : BitVec 8
  /-- SCH_CTL.PACK. -/
  pack         : Bool
  /-- SCH_TPL_HIT. -/
  tplHit       : Nat
  /-- SCH_TPL_MISS. -/
  tplMiss      : Nat
  /-- SCH_BUSY_A.DEVICE. -/
  busyDevice   : Nat
  /-- SCH_BUSY_A.QUOTA. -/
  busyQuota    : Nat
  /-- SCH_BUSY_B.NO_ENGINE. -/
  busyNoEngine : Nat
  /-- SCH_BUSY_B.FLOWS. -/
  busyFlows    : Nat
  /-- SCH_REPLAY. -/
  replays      : Nat
  /-- Open flows of every instance. -/
  flows        : List Flow
  /-- Template cache, least recently used first. -/
  templates    : List Template
  /-- Messages fetched and not yet completed, in fetch order. -/
  msgs         : List MsgRec
  /-- MODEL'S OWN: number given to the next fetched message. -/
  nextId       : Nat
  /-- Image programs held in the program stores. -/
  programs     : List Program
  /-- SCH and CLU parameter writes that wait for a control-pair restart. -/
  heldWrites   : List (Nat × BitVec 32)
  /-- Control-path messages whose commit ended during a control-pair restart, with the end each has. -/
  heldEnds     : List (Nat × HeldEnd)
  /-- Internal-world operations submitted and not ended, oldest first. -/
  internal     : List IntOp
  /-- Owners whose internal-world work has ended and waits to be used. -/
  served       : List IntOwner
deriving DecidableEq, Repr

/-- Sch at reset. -/
def Sch.reset : Sch :=
  { fwIdle := 20,
    pack := false,
    tplHit := 0,
    tplMiss := 0,
    busyDevice := 0,
    busyQuota := 0,
    busyNoEngine := 0,
    busyFlows := 0,
    replays := 0,
    flows := [],
    templates := [],
    msgs := [],
    nextId := 0,
    programs := [],
    heldWrites := [],
    heldEnds := [],
    internal := [],
    served := [] }

/-- One access-control region. -/
structure Region where
  /-- START granule. -/
  start  : BitVec 44
  /-- END granule. -/
  fin    : BitVec 44
  /-- VALID. -/
  valid  : Bool
  /-- RIGHTS. -/
  rights : BitVec 12
deriving DecidableEq, Repr

/-- Region at reset. -/
def Region.reset : Region :=
  { start := 0,
    fin := 0,
    valid := false,
    rights := 0 }

/-- One access-control unit. -/
structure AcuUnit where
  /-- Staged set. -/
  staged      : Vector Region 32
  /-- Active set, three copies of each descriptor. -/
  active      : Vector (Triple Region) 32
  /-- ACU_USTAT.GEN. -/
  gen         : Nat
  /-- ACU_USTAT.CHECK_REGION. -/
  checkRegion : Nat
  /-- ACU_USTAT.CLOSED. -/
  closed      : Bool
  /-- ACU_USTAT.CHECK. -/
  check       : Nat
  /-- ACU_FAIL bit u. -/
  fail        : Bool
  /-- ACU_CAP_INFO.VALID. -/
  capValid    : Bool
  /-- ACU_CAP_LO/HI. -/
  capAddr     : BitVec 48
  /-- ACU_CAP_INFO.KIND. -/
  capKind     : Nat
  /-- ACU_CAP_INFO.LEVEL. -/
  capLevel    : Nat
  /-- ACU_CAP_INFO.LENGTH. -/
  capLen      : Nat
  /-- ACU_CAP_INFO.REGION. -/
  capRegion   : Nat
  /-- First byte of the captured access (for record 0x0604). -/
  capStart    : BitVec 48
  /-- ACU_CAP_COUNT. -/
  capCount    : Nat
  /-- The capture was set since recording stopped. -/
  capFresh    : Bool
  /-- ACU_VIOL. -/
  viol        : Nat
  /-- MODEL'S OWN: refused fetches, which the unit's master handles as firmware faults. -/
  fwFaults    : Nat
deriving DecidableEq, Repr

/-- AcuUnit at reset. -/
def AcuUnit.reset : AcuUnit :=
  { staged := Vector.replicate 32 Region.reset,
    active := Vector.replicate 32 ⟨Region.reset, Region.reset, Region.reset⟩,
    gen := 0,
    checkRegion := 0,
    closed := true,
    check := 0,
    fail := false,
    capValid := false,
    capAddr := 0,
    capKind := 0,
    capLevel := 0,
    capLen := 0,
    capRegion := 0,
    capStart := 0,
    capCount := 0,
    capFresh := false,
    viol := 0,
    fwFaults := 0 }

/-- The SPDM responder (R37): the transcripts of a connection and the session's secrets. -/
structure Spdm where
  /-- Messages of version, capabilities and algorithms. -/
  vca        : Bytes
  /-- 0 nothing agreed; 1 version; 2 capabilities; 3 algorithms. -/
  stage      : Nat
  /-- Digest and certificate messages since the last challenge. -/
  certs      : Bytes
  /-- Measurement messages since the last signature. -/
  meas       : Bytes
  /-- Session: 0 none; 1 handshake, FINISH awaited; 2 open. -/
  phase      : Nat
  /-- Session ID. -/
  id         : BitVec 32
  /-- Messages of the key exchange. -/
  transcript : Bytes
  /-- Handshake secret of the requester's direction. -/
  reqHs      : Bytes
  /-- Handshake secret of the responder's direction. -/
  rspHs      : Bytes
  /-- Handshake secret. -/
  handshake  : Bytes
  /-- Application secret of the requester's direction. -/
  reqApp     : Bytes
  /-- Application secret of the responder's direction. -/
  rspApp     : Bytes
  /-- Sequence number of the next secured message received. -/
  reqSeq     : Nat
  /-- Sequence number of the next secured message sent. -/
  rspSeq     : Nat
  /-- A request that waits for generator 259. -/
  waiting    : Option Bytes
deriving DecidableEq, Repr

/-- Spdm at reset. -/
def Spdm.reset : Spdm :=
  { vca := [],
    stage := 0,
    certs := [],
    meas := [],
    phase := 0,
    id := 0,
    transcript := [],
    reqHs := [],
    rspHs := [],
    handshake := [],
    reqApp := [],
    rspApp := [],
    reqSeq := 0,
    rspSeq := 0,
    waiting := none }

/-- The configuration and component registers that the physical function alone has (Table 2.2; layouts PRESUMED, log 9). -/
structure PfCfg where
  /-- BAR0 to BAR5. -/
  bars       : List (BitVec 32)
  /-- Link Control. -/
  lnkCtl     : BitVec 16
  /-- VF BAR0 and VF BAR1 of the SR-IOV capability. -/
  vfBar      : List (BitVec 32)
  /-- VF Memory Space Enable. -/
  vfMse      : Bool
  /-- System Page Size. -/
  pageSize   : BitVec 32
  /-- MSI-X table in BAR4: 32 vectors of four words. -/
  msix       : Vector (BitVec 32) 128
  /-- MSI-X pending bits in BAR4. -/
  msixPend   : BitVec 32
  /-- DOE write mailbox: dwords written and not yet sent by GO. -/
  doeIn      : List (BitVec 32)
  /-- DOE read mailbox: dwords of the response not yet read. -/
  doeOut     : List (BitVec 32)
  /-- DOE Error. -/
  doeErr     : Bool
  /-- Link IDE Stream Control. -/
  ideCtl     : BitVec 32
  /-- DVSEC CXL Control but for Cache_Enable. -/
  cxlCtl     : BitVec 16
  /-- DVSEC CXL Control2. -/
  cxlCtl2    : BitVec 16
  /-- DVSEC CXL Lock. -/
  cxlLock    : Bool
  /-- Component RAS: uncorrectable error status. -/
  rasUnc     : BitVec 32
  /-- Component RAS: uncorrectable error mask. -/
  rasUncMask : BitVec 32
  /-- Component RAS: uncorrectable error severity. -/
  rasUncSev  : BitVec 32
  /-- Component RAS: correctable error status. -/
  rasCor     : BitVec 32
  /-- Component RAS: correctable error mask. -/
  rasCorMask : BitVec 32
  /-- Lane Margining control of the eight lanes. -/
  laneEq     : List (BitVec 32)
deriving DecidableEq, Repr

/-- PfCfg at reset. -/
def PfCfg.reset : PfCfg :=
  { bars := [0, 0, 0, 0, 0, 0],
    lnkCtl := 0,
    vfBar := [0, 0],
    vfMse := false,
    pageSize := 1,
    msix := Vector.ofFn (fun i => if i.val % 4 = 3 then 1 else 0),
    msixPend := 0,
    doeIn := [],
    doeOut := [],
    doeErr := false,
    ideCtl := 0,
    cxlCtl := 2,
    cxlCtl2 := 0,
    cxlLock := false,
    rasUnc := 0,
    rasUncMask := 0x0001CFFF,
    rasUncSev := 0x0001CFFF,
    rasCor := 0,
    rasCorMask := 0x7F,
    laneEq := [0, 0, 0, 0, 0, 0, 0, 0] }

/-- Host link. -/
structure Lnk where
  /-- LNK_STAT.MODE. -/
  mode         : Nat
  /-- LNK_STAT.WIDTH. -/
  width        : Nat
  /-- LNK_STAT.RATE. -/
  rate         : Nat
  /-- LNK_STAT.CACHE_EN. -/
  cacheEn      : Bool
  /-- LNK_STAT.ARI. -/
  ari          : Bool
  /-- NumVFs of the SR-IOV capability. -/
  numVfs       : Nat
  /-- VF Enable. -/
  vfEnable     : Bool
  /-- LNK_STAT.NUMVF, VFs enabled. -/
  vfsOn        : Nat
  /-- LNK_STAT.IDE_IO. -/
  ideIo        : Bool
  /-- LNK_STAT.IDE_CACHE. -/
  ideCache     : Bool
  /-- CXL.io IDE key. -/
  ideKeyIo     : Bytes
  /-- CXL.cache IDE key. -/
  ideKeyCache  : Bytes
  /-- The SPDM responder. -/
  spdm         : Spdm
  /-- SPDM answers written to the DOE mailbox. -/
  doe          : List Bytes
  /-- LNK_FALLBACK.PCIE. -/
  fbPcie       : Bool
  /-- LNK_FALLBACK.RATE. -/
  fbRate       : Bool
  /-- LNK_FALLBACK.WIDTH. -/
  fbWidth      : Bool
  /-- LNK_FALLBACK.ARI. -/
  fbAri        : Bool
  /-- LNK_LOSS.HOT. -/
  lossHot      : Nat
  /-- LNK_LOSS.SURPRISE. -/
  lossSurprise : Nat
  /-- LNK_IDE.CACHE_FAIL. -/
  ideCacheFail : Nat
  /-- LNK_IDE.IO_FAIL. -/
  ideIoFail    : Nat
  /-- The physical function's own configuration and component registers. -/
  pf           : PfCfg
deriving DecidableEq, Repr

/-- Lnk at reset. -/
def Lnk.reset : Lnk :=
  { mode := 0,
    width := 0,
    rate := 0,
    cacheEn := false,
    ari := false,
    numVfs := 0,
    vfEnable := false,
    vfsOn := 0,
    ideIo := false,
    ideCache := false,
    ideKeyIo := [],
    ideKeyCache := [],
    spdm := Spdm.reset,
    doe := [],
    fbPcie := false,
    fbRate := false,
    fbWidth := false,
    fbAri := false,
    lossHot := 0,
    lossSurprise := 0,
    ideCacheFail := 0,
    ideIoFail := 0,
    pf := PfCfg.reset }

/-- Device identity held in custody SRAM. -/
structure Ident where
  /-- The identity private halves are in custody SRAM. -/
  present : Bool
deriving DecidableEq, Repr

/-- Ident at reset. -/
def Ident.reset : Ident :=
  { present := false }

/-- The whole module. -/
structure State where
  /-- MODEL'S OWN: commands waiting, first in first out. -/
  pending  : List Instr
  /-- Operating time, ms (EVR_TIME). -/
  opTime   : Nat
  /-- Instances 0 to 255. -/
  inst     : Vector InstRec 256
  /-- GLB block. -/
  glb      : Glb
  /-- Always-on island. -/
  isl      : Isl
  /-- OTP rows. -/
  otp      : Otp
  /-- Configuration NOR. -/
  nor      : Nor
  /-- Persistent register file. -/
  prf      : Prf
  /-- CFG block. -/
  cfg      : Cfg
  /-- LCS block. -/
  lcs      : Lcs
  /-- TMP block. -/
  tmp      : Tmp
  /-- EVR block. -/
  evr      : Evr
  /-- HLT block. -/
  hlt      : Hlt
  /-- PWR block. -/
  pwr      : Pwr
  /-- RNG block. -/
  rng      : Rng
  /-- VLT block, vault and QDR. -/
  vlt      : Vlt
  /-- Domains and tandems. -/
  dom      : Dom
  /-- Engines E0 to E191. -/
  eng      : Vector Engine 192
  /-- Clusters 0 to 15. -/
  clu      : Vector Cluster 16
  /-- Scheduler. -/
  sch      : Sch
  /-- Access-control units. -/
  acu      : Vector AcuUnit 21
  /-- LNK block. -/
  lnk      : Lnk
  /-- Device identity. -/
  ident    : Ident
  /-- Memory writes issued on the host link, oldest first. -/
  out      : List HostWrite
  /-- MSI-X vectors raised (function, vector), oldest first. -/
  irqs     : List (Nat × Nat)
  /-- What the last register read returned: the bytes addressed, lowest first; none after an Unsupported Request. -/
  reply    : Option (BitVec 64)
  /-- What the UART of the service port answered last, in ASCII. -/
  uart     : Bytes
  /-- Write-one-to-set bits that the module cleared in the cycle of the write and that so read 1: writer, register and bits. -/
  setAgain : List (Master × Nat × BitVec 32)
  /-- MODEL'S OWN: counter to which free values are applied. -/
  draw     : Nat
deriving DecidableEq, Repr

/-- The module right after reset: a blank unit that has never been powered (log 3), its queue empty. -/
def State.reset : State :=
  { pending := [],
    opTime := 0,
    inst := Vector.replicate 256 InstRec.reset,
    glb := Glb.reset,
    isl := Isl.reset,
    otp := Otp.reset,
    nor := Nor.reset,
    prf := Prf.reset,
    cfg := Cfg.reset,
    lcs := Lcs.reset,
    tmp := Tmp.reset,
    evr := Evr.reset,
    hlt := Hlt.reset,
    pwr := Pwr.reset,
    rng := Rng.reset,
    vlt := Vlt.reset,
    dom := Dom.reset,
    eng := Vector.replicate 192 Engine.reset,
    clu := Vector.replicate 16 Cluster.reset,
    sch := Sch.reset,
    acu := Vector.replicate 21 AcuUnit.reset,
    lnk := Lnk.reset,
    ident := Ident.reset,
    out := [],
    irqs := [],
    reply := none,
    uart := [],
    setAgain := [],
    draw := 0 }

end Sys2Proof.Machine
end

