-- ==== Sys2Proof/Machine/Flags.lean ====
section
/-! DEFINITION. Status codes, busy classes and completion flags (R71, R72, R91). -/

namespace Sys2Proof.Machine

/-! Status codes (Table 3.11) -/

def Status.ok : BitVec 16 := 0x0000
def Status.versionUnsupported : BitVec 16 := 0x0101
def Status.opcodeUnknown : BitVec 16 := 0x0102
def Status.reservedNonzero : BitVec 16 := 0x0103
def Status.flagsInvalid : BitVec 16 := 0x0104
def Status.paramRange : BitVec 16 := 0x0105
def Status.lengthShort : BitVec 16 := 0x0110
def Status.lengthLong : BitVec 16 := 0x0111
def Status.outputListMismatch : BitVec 16 := 0x0112
def Status.outputShort : BitVec 16 := 0x0113
def Status.segmentAlign : BitVec 16 := 0x0114
def Status.sglInvalid : BitVec 16 := 0x0115
def Status.inlineTooLong : BitVec 16 := 0x0116
def Status.lengthInvalid : BitVec 16 := 0x0117
def Status.flowUnknown : BitVec 16 := 0x0120
def Status.flowMismatch : BitVec 16 := 0x0121
def Status.streamNotOpen : BitVec 16 := 0x0130
def Status.streamOpen : BitVec 16 := 0x0131
def Status.tagNotFound : BitVec 16 := 0x0140
def Status.adminOnly : BitVec 16 := 0x0201
def Status.domainMismatch : BitVec 16 := 0x0202
def Status.instanceNotPermitted : BitVec 16 := 0x0203
def Status.worldNotPermitted : BitVec 16 := 0x0204
def Status.usageNotPermitted : BitVec 16 := 0x0205
def Status.tandemRequired : BitVec 16 := 0x0206
def Status.tokenInvalid : BitVec 16 := 0x0207
def Status.tokenExpired : BitVec 16 := 0x0208
def Status.tandemSameOfficer : BitVec 16 := 0x0209
def Status.roleNotPermitted : BitVec 16 := 0x020A
def Status.policyRefused : BitVec 16 := 0x020B
def Status.instanceUnbound : BitVec 16 := 0x020C
def Status.keyNotFound : BitVec 16 := 0x0301
def Status.keyAlgorithm : BitVec 16 := 0x0302
def Status.keyValidity : BitVec 16 := 0x0303
def Status.keyLifecycle : BitVec 16 := 0x0304
def Status.keyVersion : BitVec 16 := 0x0305
def Status.keyCheckMismatch : BitVec 16 := 0x0306
def Status.kumSignature : BitVec 16 := 0x0310
def Status.kumCounter : BitVec 16 := 0x0311
def Status.kumIdentity : BitVec 16 := 0x0312
def Status.objectExists : BitVec 16 := 0x0320
def Status.verifyFailed : BitVec 16 := 0x0330
def Status.pinMismatch : BitVec 16 := 0x0331
def Status.unwrapFailed : BitVec 16 := 0x0332
def Status.pkInputRejected : BitVec 16 := 0x0401
def Status.signRetry : BitVec 16 := 0x0402
def Status.pkParamUnsupported : BitVec 16 := 0x0403
def Status.busyQuota : BitVec 16 := 0x0501
def Status.busyDevice : BitVec 16 := 0x0502
def Status.busyFlows : BitVec 16 := 0x0503
def Status.busyNoEngine : BitVec 16 := 0x0504
def Status.rngWarming : BitVec 16 := 0x0601
def Status.rngFault : BitVec 16 := 0x0602
def Status.vaultFull : BitVec 16 := 0x0701
def Status.vaultIntegrity : BitVec 16 := 0x0702
def Status.vaultNotMounted : BitVec 16 := 0x0703
def Status.vaultReadOnly : BitVec 16 := 0x0704
def Status.vaultCommitFailed : BitVec 16 := 0x0705
def Status.aborted : BitVec 16 := 0x0801
def Status.digestNotReady : BitVec 16 := 0x0810
def Status.hostMemError : BitVec 16 := 0x0820
def Status.tamperPaused : BitVec 16 := 0x0840
def Status.lcState : BitVec 16 := 0x0901
def Status.lcEnergy : BitVec 16 := 0x0902
def Status.lcInputUnstable : BitVec 16 := 0x0903
def Status.lcTripsExhausted : BitVec 16 := 0x0904
def Status.kickstand : BitVec 16 := 0x0905
def Status.zrmRecordLength : BitVec 16 := 0x0A01
def Status.zrmEncoding : BitVec 16 := 0x0A02
def Status.zrmFunctionUnknown : BitVec 16 := 0x0A03
def Status.zrmLabelUnknown : BitVec 16 := 0x0A04
def Status.zrmFieldInvalid : BitVec 16 := 0x0A05

/-- The BUSY class a status carries (Table 3.7). -/
def busyClass (st : BitVec 16) : Nat :=
  if st == Status.busyQuota then 1
  else if st == Status.busyDevice then 2
  else if st == Status.busyFlows then 3
  else if st == Status.busyNoEngine then 4
  else 0

/-- Refusals that count as malformed AMP messages (R81). -/
def countsMalformed (st : BitVec 16) : Bool := 0x0101 ≤ st.toNat && st.toNat ≤ 0x0131

/-- CFLAGS (Table 3.6). -/
def cflags (phase inline_ closed discard : Bool) : BitVec 8 :=
  BitVec.ofNat 8 (bit phase + 2 * bit inline_ + 4 * bit closed + 8 * bit discard)

/-- A refusal (R79): a status with its DETAIL, no output, DISCARD clear. -/
def Final.refuse (st : BitVec 16) (detail : Nat) : Final :=
  { status := st, detail := BitVec.ofNat 32 detail, info := [], output := [], closed := false, discard := false }

/-- An end with a status and no output of its own. -/
def Final.plain (st : BitVec 16) : Final := Final.refuse st 0

/-- OK with output. -/
def Final.good (output : Bytes) : Final := { Final.refuse Status.ok 0 with output := output }

/-- OK with status detail in RESULT (R487). -/
def Final.told (info : Bytes) : Final := { Final.refuse Status.ok 0 with info := info }

end Sys2Proof.Machine
end

