-- ==== Sys2Proof/Machine/Hash.lean ====
section
/-! DEFINITION. The digest functions of Table 7.1 in the form the digest engines run them: a state register, whole
blocks, and a held-input buffer (R170, R173); HMAC of FIPS 198-1 (R174). -/

namespace Sys2Proof.Machine

/-- The functions of Table 7.1. -/
inductive Hash where
  | sha224
  | sha256
  | sha384
  | sha512
  | sha3_224
  | sha3_256
  | sha3_384
  | sha3_512
  | shake128
  | shake256
deriving DecidableEq, Repr

/-- Block size or rate B in bytes (Table 7.1). -/
def Hash.block : Hash → Nat
  | .sha224 | .sha256 => 64
  | .sha384 | .sha512 => 128
  | .sha3_224 => 144
  | .sha3_256 => 136
  | .sha3_384 => 104
  | .sha3_512 => 72
  | .shake128 => 168
  | .shake256 => 136

/-- Digest length D in bytes (Table 7.1); 0 for SHAKE, whose output length the message gives. -/
def Hash.size : Hash → Nat
  | .sha224 | .sha3_224 => 28
  | .sha256 | .sha3_256 => 32
  | .sha384 | .sha3_384 => 48
  | .sha512 | .sha3_512 => 64
  | .shake128 | .shake256 => 0

def Hash.isSha2 : Hash → Bool
  | .sha224 | .sha256 | .sha384 | .sha512 => true
  | _ => false

/-- The words that a list of numbers holds, five words of 64 bits in each number, the first word highest. -/
def words64 (rows : List Nat) : List Nat :=
  rows.flatMap (fun v => (List.range 5).map (fun i => v / 2 ^ (64 * (4 - i)) % 2 ^ 64))

/-- Round constants of SHA-384 and SHA-512, and in their upper halves those of SHA-224 and SHA-256: the first 64 bits of the
fractional parts of the cube roots of the first eighty primes (FIPS 180-4). -/
def sha2K : List Nat := words64
  [0x428a2f98d728ae227137449123ef65cdb5c0fbcfec4d3b2fe9b5dba58189dbbc3956c25bf348b538,
   0x59f111f1b605d019923f82a4af194f9bab1c5ed5da6d8118d807aa98a303024212835b0145706fbe,
   0x243185be4ee4b28c550c7dc3d5ffb4e272be5d74f27b896f80deb1fe3b1696b19bdc06a725c71235,
   0xc19bf174cf692694e49b69c19ef14ad2efbe4786384f25e30fc19dc68b8cd5b5240ca1cc77ac9c65,
   0x2de92c6f592b02754a7484aa6ea6e4835cb0a9dcbd41fbd476f988da831153b5983e5152ee66dfab,
   0xa831c66d2db43210b00327c898fb213fbf597fc7beef0ee4c6e00bf33da88fc2d5a79147930aa725,
   0x06ca6351e003826f142929670a0e6e7027b70a8546d22ffc2e1b21385c26c9264d2c6dfc5ac42aed,
   0x53380d139d95b3df650a73548baf63de766a0abb3c77b2a881c2c92e47edaee692722c851482353b,
   0xa2bfe8a14cf10364a81a664bbc423001c24b8b70d0f89791c76c51a30654be30d192e819d6ef5218,
   0xd69906245565a910f40e35855771202a106aa07032bbd1b819a4c116b8d2d0c81e376c085141ab53,
   0x2748774cdf8eeb9934b0bcb5e19b48a8391c0cb3c5c95a634ed8aa4ae3418acb5b9cca4f7763e373,
   0x682e6ff3d6b2b8a3748f82ee5defb2fc78a5636f43172f6084c87814a1f0ab728cc702081a6439ec,
   0x90befffa23631e28a4506cebde82bde9bef9a3f7b2c67915c67178f2e372532bca273eceea26619c,
   0xd186b8c721c0c207eada7dd6cde0eb1ef57d4f7fee6ed17806f067aa72176fba0a637dc5a2c898a6,
   0x113f9804bef90dae1b710b35131c471b28db77f523047d8432caab7b40c724933c9ebe0a15c9bebc,
   0x431d67c49c100d4c4cc5d4becb3e42b6597f299cfc657e2a5fcb6fab3ad6faec6c44198c4a475817]

/-- Initial value of SHA-512, and in the upper halves that of SHA-256 (FIPS 180-4). -/
def sha512Iv : List Nat :=
  [0x6a09e667f3bcc908, 0xbb67ae8584caa73b, 0x3c6ef372fe94f82b, 0xa54ff53a5f1d36f1,
   0x510e527fade682d1, 0x9b05688c2b3e6c1f, 0x1f83d9abfb41bd6b, 0x5be0cd19137e2179]

/-- Initial value of SHA-384, and in the lower halves that of SHA-224 (FIPS 180-4). -/
def sha384Iv : List Nat :=
  [0xcbbb9d5dc1059ed8, 0x629a292a367cd507, 0x9159015a3070dd17, 0x152fecd8f70e5939,
   0x67332667ffc00b31, 0x8eb44a8768581511, 0xdb0c2e0d64f98fa7, 0x47b5481dbefa4fa4]

/-- Round constants of Keccak-f[1600] (FIPS 202). -/
def keccakRc : List (BitVec 64) :=
  [0x0000000000000001, 0x0000000000008082, 0x800000000000808a, 0x8000000080008000,
   0x000000000000808b, 0x0000000080000001, 0x8000000080008081, 0x8000000000008009,
   0x000000000000008a, 0x0000000000000088, 0x0000000080008009, 0x000000008000000a,
   0x000000008000808b, 0x800000000000008b, 0x8000000000008089, 0x8000000000008003,
   0x8000000000008002, 0x8000000000000080, 0x000000000000800a, 0x800000008000000a,
   0x8000000080008081, 0x8000000000008080, 0x0000000080000001, 0x8000000080008008]

/-- Rotation offsets of step rho, lane x + 5y (FIPS 202). -/
def keccakRot : List Nat :=
  [0, 1, 62, 28, 27, 36, 44, 6, 55, 20, 3, 10, 43, 25, 39, 41, 45, 15, 21, 8, 18, 2, 61, 56, 14]

/-- The message schedule, newest word first: σ0 and σ1 by their rotations (FIPS 180-4). -/
def sha2Sched (w : Nat) (a b c d e f : Nat) : Nat → List (BitVec w) → List (BitVec w)
  | 0, l => l
  | n + 1, l =>
    let x := l.getD 14 0
    let y := l.getD 1 0
    let s0 := x.rotateRight a ^^^ x.rotateRight b ^^^ (x >>> c)
    let s1 := y.rotateRight d ^^^ y.rotateRight e ^^^ (y >>> f)
    sha2Sched w a b c d e f n ((l.getD 15 0 + s0 + l.getD 6 0 + s1) :: l)

/-- One round on the eight working variables. -/
def sha2Round (w : Nat) (r : List Nat) (v : List (BitVec w)) (kw : BitVec w × BitVec w) : List (BitVec w) :=
  let g (i : Nat) : BitVec w := v.getD i 0
  let rot (x : BitVec w) (i : Nat) : BitVec w :=
    x.rotateRight (r.getD i 0) ^^^ x.rotateRight (r.getD (i + 1) 0) ^^^ x.rotateRight (r.getD (i + 2) 0)
  let ch := (g 4 &&& g 5) ^^^ (~~~ (g 4) &&& g 6)
  let maj := (g 0 &&& g 1) ^^^ (g 0 &&& g 2) ^^^ (g 1 &&& g 2)
  let t1 := g 7 + rot (g 4) 3 + ch + kw.1 + kw.2
  [t1 + (rot (g 0) 0 + maj), g 0, g 1, g 2, g 3 + t1, g 4, g 5, g 6]

/-- SHA-224 and SHA-256 compression of a 64-byte block; the words sit in the low halves of the state register. -/
def sha256Block (st : List (BitVec 64)) (blk : Bytes) : List (BitVec 64) :=
  let w := ((chunks 4 blk).map (fun b => BitVec.ofNat 32 (beNat b))).reverse
  let sch := (sha2Sched 32 7 18 3 17 19 10 48 w).reverse
  let ks := (sha2K.take 64).map (fun k => BitVec.ofNat 32 (k >>> 32))
  let h : List (BitVec 32) := st.map (fun x => BitVec.ofNat 32 x.toNat)
  let v := (ks.zip sch).foldl (sha2Round 32 [2, 13, 22, 6, 11, 25]) h
  (List.zipWith (· + ·) h v).map (fun x => BitVec.ofNat 64 x.toNat)

/-- SHA-384 and SHA-512 compression of a 128-byte block. -/
def sha512Block (st : List (BitVec 64)) (blk : Bytes) : List (BitVec 64) :=
  let w := ((chunks 8 blk).map (fun b => BitVec.ofNat 64 (beNat b))).reverse
  let sch := (sha2Sched 64 1 8 7 19 61 6 64 w).reverse
  let ks := sha2K.map (BitVec.ofNat 64)
  let v := (ks.zip sch).foldl (sha2Round 64 [28, 34, 39, 14, 18, 41]) st
  List.zipWith (· + ·) st v

/-- One round of Keccak-f[1600] (FIPS 202): theta, rho, pi, chi and iota. -/
def keccakRound (a : List (BitVec 64)) (rc : BitVec 64) : List (BitVec 64) :=
  let g (i : Nat) : BitVec 64 := a.getD i 0
  let c := (List.range 5).map (fun x => g x ^^^ g (x + 5) ^^^ g (x + 10) ^^^ g (x + 15) ^^^ g (x + 20))
  let d := (List.range 5).map (fun x => c.getD ((x + 4) % 5) 0 ^^^ (c.getD ((x + 1) % 5) 0).rotateLeft 1)
  let t := (List.range 25).map (fun i => (g i ^^^ d.getD (i % 5) 0).rotateLeft (keccakRot.getD i 0))
  let b := (List.range 25).map (fun i => let x := i % 5; let y := i / 5; t.getD ((x + 3 * y) % 5 + 5 * x) 0)
  (List.range 25).map (fun i =>
    let x := i % 5
    let r := i - x
    let v := b.getD i 0 ^^^ (~~~ (b.getD (r + (x + 1) % 5) 0) &&& b.getD (r + (x + 2) % 5) 0)
    if i == 0 then v ^^^ rc else v)

/-- Keccak-f[1600]. -/
def keccakF (a : List (BitVec 64)) : List (BitVec 64) := keccakRc.foldl keccakRound a

/-- The state as bytes. -/
def keccakBytes (a : List (BitVec 64)) : Bytes := a.flatMap (fun x => leBytes 8 x.toNat)

/-- A rate block absorbed and the state permuted. -/
def keccakAbsorb (st : List (BitVec 64)) (blk : Bytes) : List (BitVec 64) :=
  keccakF ((List.range 25).map (fun i => st.getD i 0 ^^^ BitVec.ofNat 64 (leAt blk (8 * i) 8)))

/-- The state register before the first block. -/
def Hash.init : Hash → List (BitVec 64)
  | .sha224 => sha384Iv.map (fun v => BitVec.ofNat 64 (v % 2 ^ 32))
  | .sha256 => sha512Iv.map (fun v => BitVec.ofNat 64 (v >>> 32))
  | .sha384 => sha384Iv.map (BitVec.ofNat 64)
  | .sha512 => sha512Iv.map (BitVec.ofNat 64)
  | _ => List.replicate 25 0

/-- One block operation: COMPRESS or PERMUTE. -/
def Hash.step : Hash → List (BitVec 64) → Bytes → List (BitVec 64)
  | .sha224, st, b | .sha256, st, b => sha256Block st b
  | .sha384, st, b | .sha512, st, b => sha512Block st b
  | _, st, b => keccakAbsorb st b

/-- Whole blocks of held input and new input absorbed, the rest held (R173); fuel bounds the blocks. -/
def Hash.absorbF (h : Hash) : Nat → List (BitVec 64) → Bytes → List (BitVec 64) × Bytes
  | 0, st, b => (st, b)
  | f + 1, st, b =>
    if b.length < h.block then (st, b) else h.absorbF f (h.step st (b.take h.block)) (b.drop h.block)

def Hash.absorb (h : Hash) (st : List (BitVec 64)) (held x : Bytes) : List (BitVec 64) × Bytes :=
  h.absorbF ((held.length + x.length) / h.block) st (held ++ x)

/-- Squeezed output of n bytes; fuel bounds the rate blocks. -/
def squeezeF (rate : Nat) : Nat → List (BitVec 64) → Nat → Bytes
  | 0, _, _ => []
  | f + 1, st, n =>
    if n ≤ rate then (keccakBytes st).take n else (keccakBytes st).take rate ++ squeezeF rate f (keccakF st) (n - rate)

/-- The held input padded to whole blocks: FIPS 180-4 length padding, or the FIPS 202 suffix. -/
def Hash.pad (h : Hash) (held : Bytes) (total : Nat) : Bytes :=
  if h.isSha2 then
    let l := h.block / 8
    let z := (2 * h.block - (held.length + 1 + l) % h.block) % h.block
    held ++ [0x80] ++ zeros z ++ beBytes l (8 * total)
  else
    let z := h.block - held.length
    let s : Nat := if h.size == 0 then 0x1F else 0x06
    if z == 1 then held ++ [BitVec.ofNat 8 (s + 0x80)] else held ++ [BitVec.ofNat 8 s] ++ zeros (z - 2) ++ [0x80]

/-- The digest from the state after the whole blocks, the held input and the total length; out is SHAKE's OUT_LEN. -/
def Hash.final (h : Hash) (st : List (BitVec 64)) (held : Bytes) (total out : Nat) : Bytes :=
  let r := (h.absorb st [] (h.pad held total)).1
  match h with
  | .sha224 | .sha256 => (r.flatMap (fun x => beBytes 4 x.toNat)).take h.size
  | .sha384 | .sha512 => (r.flatMap (fun x => beBytes 8 x.toNat)).take h.size
  | .shake128 | .shake256 => squeezeF h.block (out / h.block + 1) r out
  | _ => (keccakBytes r).take h.size

/-- The function on a whole byte string. -/
def Hash.run (h : Hash) (x : Bytes) (out : Nat) : Bytes :=
  let p := h.absorb h.init [] x
  h.final p.1 p.2 x.length out

def sha256 (x : Bytes) : Bytes := Hash.sha256.run x 0
def sha384 (x : Bytes) : Bytes := Hash.sha384.run x 0
def sha512 (x : Bytes) : Bytes := Hash.sha512.run x 0
def shake256 (x : Bytes) (n : Nat) : Bytes := Hash.shake256.run x n

/-- K0 of FIPS 198-1: the key, hashed when longer than a block, filled up with zeros. -/
def hmacK0 (h : Hash) (key : Bytes) : Bytes := fit h.block (if key.length > h.block then h.run key 0 else key)

def hmacPad (h : Hash) (v : Byte) (key : Bytes) : Bytes := (hmacK0 h key).map (· ^^^ v)

/-- The outer pass over an inner digest. -/
def hmacOuter (h : Hash) (key inner : Bytes) : Bytes := h.run (hmacPad h 0x5C key ++ inner) 0

/-- HMAC of a whole byte string (R174). -/
def hmac (h : Hash) (key x : Bytes) : Bytes := hmacOuter h key (h.run (hmacPad h 0x36 key ++ x) 0)

/-- The hash that an HMAC algorithm code of Table 10.5 names. -/
def hmacHash (alg : BitVec 16) : Option Hash :=
  match alg.toNat with
  | 0x0301 => some .sha224
  | 0x0302 => some .sha256
  | 0x0303 => some .sha384
  | 0x0304 => some .sha512
  | 0x0305 => some .sha3_224
  | 0x0306 => some .sha3_256
  | 0x0307 => some .sha3_384
  | 0x0308 => some .sha3_512
  | _ => none

end Sys2Proof.Machine
end

