-- ==== Sys2Proof/Machine/Curve.lean ====
section
/-! DEFINITION. The elliptic-curve functions of the public-key engines: P-256, P-384 and P-521 (FIPS 186-5,
SP 800-56A), X25519 (RFC 7748) and Ed25519 (RFC 8032), with the input checks of Table 8.4. -/

namespace Sys2Proof.Machine

/-- A short Weierstrass curve with a = -3 and cofactor 1, its base point and its coordinate size in bytes. -/
structure Curve where
  p : Nat
  b : Nat
  n : Nat
  gx : Nat
  gy : Nat
  size : Nat
  bits : Nat
deriving DecidableEq, Repr

/-- P-256 (SP 800-186). -/
def p256 : Curve :=
  { p := 2 ^ 256 - 2 ^ 224 + 2 ^ 192 + 2 ^ 96 - 1,
    b := 0x5ac635d8aa3a93e7b3ebbd55769886bc651d06b0cc53b0f63bce3c3e27d2604b,
    n := 0xffffffff00000000ffffffffffffffffbce6faada7179e84f3b9cac2fc632551,
    gx := 0x6b17d1f2e12c4247f8bce6e563a440f277037d812deb33a0f4a13945d898c296,
    gy := 0x4fe342e2fe1a7f9b8ee7eb4a7c0f9e162bce33576b315ececbb6406837bf51f5,
    size := 32, bits := 256 }

/-- P-384 (SP 800-186). -/
def p384 : Curve :=
  { p := 2 ^ 384 - 2 ^ 128 - 2 ^ 96 + 2 ^ 32 - 1,
    b := 0xb3312fa7e23ee7e4988e056be3f82d19181d9c6efe8141120314088f5013875ac656398d8a2ed19d2a85c8edd3ec2aef,
    n := 0xffffffffffffffffffffffffffffffffffffffffffffffffc7634d81f4372ddf581a0db248b0a77aecec196accc52973,
    gx := 0xaa87ca22be8b05378eb1c71ef320ad746e1d3b628ba79b9859f741e082542a385502f25dbf55296c3a545e3872760ab7,
    gy := 0x3617de4a96262c6f5d9e98bf9292dc29f8f41dbd289a147ce9da3113b5f0b8c00a60b1ce1d7e819d7a431d7c90ea0e5f,
    size := 48, bits := 384 }

/-- P-521 (SP 800-186). -/
def p521 : Curve :=
  { p := 2 ^ 521 - 1,
    b := 0x051953eb9618e1c9a1f929a21a0b68540eea2da725b99b315f3b8b489918ef109e156193951ec7e937b1652c0bd3bb1bf073573df883d2c34f1ef451fd46b503f00,
    n := 0x1fffffffffffffffffffffffffffffffffffffffffffffffffffffffffffffffffa51868783bf2f966b7fcc0148f709a5d03bb5c9b8899c47aebb6fb71e91386409,
    gx := 0xc6858e06b70404e9cd9e3ecb662395b4429c648139053fb521f828af606b4d3dbaa14b5e77efe75928fe1dc127a2ffa8de3348b3c1856a429bf97e7e31c2e5bd66,
    gy := 0x11839296a789a3bc0045c8a5fb42c7d1bd998f54449579b446817afbd17273e662c97ee72995ef42640c550b9013fad0761353c7086a272c24088be94769fd16650,
    size := 66, bits := 521 }

/-- A point: none is the point at infinity. -/
abbrev Pt := Option (Nat × Nat)

/-- Sum of two points. -/
def Curve.add (c : Curve) : Pt → Pt → Pt
  | none, q => q
  | p, none => p
  | some (x1, y1), some (x2, y2) =>
    if x1 == x2 && (y1 + y2) % c.p == 0 then none
    else
      let l :=
        if x1 == x2 then (3 * x1 * x1 + (c.p - 3)) * invMod (2 * y1) c.p % c.p
        else (y2 + c.p - y1) * invMod (x2 + c.p - x1) c.p % c.p
      let x3 := (l * l + 2 * c.p - x1 - x2) % c.p
      some (x3, (l * (x1 + c.p - x3) + c.p - y1) % c.p)

/-- k times a point, by the bits of k from the least significant; fuel bounds the bits. -/
def Curve.mulF (c : Curve) : Nat → Nat → Pt → Pt → Pt
  | 0, _, _, acc => acc
  | f + 1, k, q, acc =>
    if k == 0 then acc else c.mulF f (k / 2) (c.add q q) (if k % 2 == 1 then c.add acc q else acc)

def Curve.mul (c : Curve) (k : Nat) (q : Pt) : Pt := c.mulF (Nat.log2 k + 1) k q none

def Curve.base (c : Curve) : Pt := some (c.gx, c.gy)

/-- The encoding 0x04 ‖ X ‖ Y of Table 8.1. -/
def Curve.encode (c : Curve) : Pt → Bytes
  | none => []
  | some (x, y) => 0x04 :: (beBytes c.size x ++ beBytes c.size y)

/-- A public point, refused by Table 8.4 when its encoding or the curve equation fails. -/
def Curve.decode (c : Curve) (b : Bytes) : Pt :=
  let x := beNat (slice b 1 c.size)
  let y := beNat (slice b (1 + c.size) c.size)
  if b.length == 2 * c.size + 1 && byteAt b 0 == 4 && x < c.p && y < c.p
      && (y * y) % c.p == (x * x * x + (c.p - 3) * x + c.b) % c.p then some (x, y)
  else none

/-- The leftmost bits of a digest up to the bit length of the order (R204). -/
def Curve.digestNum (c : Curve) (d : Bytes) : Nat :=
  if 8 * d.length ≤ c.bits then beNat d else beNat d >>> (8 * d.length - c.bits)

/-- A secret by the extra-random-bits method of FIPS 186-5: reduced modulo n - 1, plus 1 (R207, R273). -/
def Curve.secret (c : Curve) (random : Bytes) : Nat := beNat random % (c.n - 1) + 1

/-- Bytes of random value the method takes: the bit length of n and 64 bits more. -/
def Curve.secretLen (c : Curve) : Nat := (c.bits + 64 + 7) / 8

/-- The random value of bit length of n + 64 bits, taken as the leftmost bits of the drawn bytes. -/
def Curve.trim (c : Curve) (random : Bytes) : Bytes :=
  beBytes c.secretLen (beNat (random.take c.secretLen) >>> (8 * c.secretLen - (c.bits + 64)))

/-- ECDSA signature r ‖ s with the per-message secret k. -/
def Curve.sign (c : Curve) (d k : Nat) (digest : Bytes) : Bytes :=
  let r := ((c.mul k c.base).getD (0, 0)).1 % c.n
  let s := invMod k c.n * (c.digestNum digest + r * d) % c.n
  beBytes c.size r ++ beBytes c.size s

/-- ECDSA verification: none when Table 8.4 refuses the point, r or s; else whether the signature verifies. -/
def Curve.verify (c : Curve) (q rs digest : Bytes) : Option Bool :=
  let r := beNat (rs.take c.size)
  let s := beNat (slice rs c.size c.size)
  match c.decode q with
  | none => none
  | some pq =>
    if r < 2 || s < 2 || c.n ≤ r || c.n ≤ s then none
    else
      let w := invMod s c.n
      let z := c.digestNum digest
      match c.add (c.mul (z * w % c.n) c.base) (c.mul (r * w % c.n) (some pq)) with
      | none => some false
      | some (x, _) => some (x % c.n == r)

/-- The ECC CDH primitive: the X coordinate of d times the peer point; none when the point is refused. -/
def Curve.ecdh (c : Curve) (d : Nat) (q : Bytes) : Option Bytes :=
  match c.decode q with
  | none => none
  | some pq => (c.mul d (some pq)).map (fun xy => beBytes c.size xy.1)

/-- The public point of a private scalar. -/
def Curve.public (c : Curve) (d : Nat) : Bytes := c.encode (c.mul d c.base)

/-- The field prime of Curve25519. -/
def p25519 : Nat := 2 ^ 255 - 19

/-- One step of the Montgomery ladder of RFC 7748 on (x2, z2, x3, z3). -/
def x25519Step (u : Nat) (v : Nat × Nat × Nat × Nat) (bitv : Bool) : Nat × Nat × Nat × Nat :=
  let p := p25519
  let sw (w : Nat × Nat × Nat × Nat) : Nat × Nat × Nat × Nat :=
    if bitv then (w.2.2.1, w.2.2.2, w.1, w.2.1) else w
  let (x2, z2, x3, z3) := sw v
  let a := (x2 + z2) % p
  let aa := a * a % p
  let b := (x2 + p - z2) % p
  let bb := b * b % p
  let e := (aa + p - bb) % p
  let da := (x3 + p - z3) * a % p
  let cb := (x3 + z3) * b % p
  sw (aa * bb % p, e * (aa + 121665 * e) % p, (da + cb) * (da + cb) % p,
    u * ((da + p - cb) % p * ((da + p - cb) % p)) % p)

/-- X25519 of a private key and a u coordinate, both 32 bytes (RFC 7748). -/
def x25519 (k u : Bytes) : Bytes :=
  let kn := leNat k
  let kc := (kn - kn % 8) % 2 ^ 254 + 2 ^ 254
  let un := leNat u % 2 ^ 255 % p25519
  let r := (List.range 255).foldl (fun v i => x25519Step un v (kc.testBit (254 - i))) (1, 0, un, 1)
  leBytes 32 (r.1 * invMod r.2.1 p25519 % p25519)

/-- The public key of an X25519 private key. -/
def x25519Public (k : Bytes) : Bytes := x25519 k (leBytes 32 9)

/-- The constant d of Ed25519 (RFC 8032). -/
def edD : Nat := 37095705934669439343138083508754565189542113879843219016388785533085940283555

/-- The group order L of Ed25519. -/
def edL : Nat := 2 ^ 252 + 27742317777372353535851937790883648493

/-- The base point. -/
def edBase : Nat × Nat :=
  (15112221349535400772501151409588531511454012693041857206046113283949847762202,
   46316835694926478169428394003475163141307993866256225615783033603165251855960)

/-- Sum of two points of the twisted Edwards curve. -/
def edAdd (a b : Nat × Nat) : Nat × Nat :=
  let p := p25519
  let t := edD * (a.1 * b.1 % p) % p * (a.2 * b.2 % p) % p
  ((a.1 * b.2 + b.1 * a.2) % p * invMod (1 + t) p % p, (a.2 * b.2 + a.1 * b.1) % p * invMod (1 + p - t) p % p)

/-- k times a point; fuel bounds the bits. -/
def edMulF : Nat → Nat → Nat × Nat → Nat × Nat → Nat × Nat
  | 0, _, _, acc => acc
  | f + 1, k, q, acc => if k == 0 then acc else edMulF f (k / 2) (edAdd q q) (if k % 2 == 1 then edAdd acc q else acc)

def edMul (k : Nat) (q : Nat × Nat) : Nat × Nat := edMulF (Nat.log2 k + 1) k q (0, 1)

def edEncode (q : Nat × Nat) : Bytes := leBytes 32 (q.2 + 2 ^ 255 * (q.1 % 2))

/-- A point from its encoding: none unless canonical, on the curve and in the subgroup of order L (Table 8.4). -/
def edDecode (b : Bytes) : Option (Nat × Nat) :=
  let p := p25519
  let v := leNat b
  let y := v % 2 ^ 255
  let sgn := v >>> 255
  let u := (y * y + p - 1) % p
  let w := (edD * (y * y % p) + 1) % p
  let x2 := u * invMod w p % p
  let x0 := powMod x2 ((p + 3) / 8) p
  let x1 := if (x0 * x0) % p == x2 then x0 else x0 * powMod 2 ((p - 1) / 4) p % p
  if b.length != 32 || p ≤ y || (x1 * x1) % p != x2 || (x1 == 0 && sgn == 1) then none
  else
    let x := if x1 % 2 == sgn then x1 else p - x1
    if edMul edL (x, y) == (0, 1) then some (x, y) else none

/-- The secret scalar and the nonce half of a seed (RFC 8032). -/
def edSecret (seed : Bytes) : Nat × Bytes :=
  let h := sha512 seed
  let a := leNat (h.take 32)
  ((a - a % 8) % 2 ^ 254 + 2 ^ 254, h.drop 32)

def edPublic (seed : Bytes) : Bytes := edEncode (edMul (edSecret seed).1 edBase)

/-- Ed25519 signature R ‖ S. -/
def edSign (seed m : Bytes) : Bytes :=
  let (a, nonce) := edSecret seed
  let pub := edPublic seed
  let r := leNat (sha512 (nonce ++ m)) % edL
  let rEnc := edEncode (edMul r edBase)
  let k := leNat (sha512 (rEnc ++ pub ++ m)) % edL
  rEnc ++ leBytes 32 ((r + k * a) % edL)

/-- Ed25519 verification: none when Table 8.4 refuses A, R or S. -/
def edVerify (pub rs m : Bytes) : Option Bool :=
  let s := leNat (slice rs 32 32)
  match edDecode pub, edDecode (rs.take 32) with
  | some a, some r =>
    if s < 2 || edL ≤ s then none
    else
      let k := leNat (sha512 (rs.take 32 ++ pub ++ m)) % edL
      some (edMul s edBase == edAdd r (edMul k a))
  | _, _ => none

end Sys2Proof.Machine
end

