-- ==== Sys2Proof/Machine/Lattice.lean ====
section
/-! DEFINITION. ML-KEM-768 and ML-KEM-1024 (FIPS 203) and ML-DSA-65 and ML-DSA-87 (FIPS 204), as Table 8.11 supports
them. A polynomial is a list of 256 coefficients below the modulus. -/

namespace Sys2Proof.Machine

abbrev Poly := List Nat

/-- The low n bits of v in reverse order. -/
def bitRev : Nat → Nat → Nat
  | 0, _ => 0
  | n + 1, v => (v % 2) * 2 ^ n + bitRev n (v / 2)

/-- Values of w bits packed from the least significant bit of the first byte on. -/
def packBits (w : Nat) (l : List Nat) : Bytes :=
  leBytes (w * l.length / 8) (l.reverse.foldl (fun a x => a * 2 ^ w + x) 0)

/-- n values of w bits. -/
def unpackBits (w n : Nat) (b : Bytes) : List Nat :=
  let v := beNat b.reverse
  (List.range n).map (fun i => (v >>> (w * i)) % 2 ^ w)

def polyAdd (q : Nat) (a b : Poly) : Poly := List.zipWith (fun x y => (x + y) % q) a b
def polySub (q : Nat) (a b : Poly) : Poly := List.zipWith (fun x y => (x + q - y) % q) a b
def polyZero : Poly := List.replicate 256 0
def polySum (q : Nat) (l : List Poly) : Poly := l.foldl (polyAdd q) polyZero

/-- The number-theoretic transform of block k at a layer, down to blocks of the given length; bits is 7 or 8 and root
the root of unity of the standard. Fuel is the number of layers. -/
def nttF (q root bits : Nat) : Nat → Nat → Poly → Poly
  | 0, _, f => f
  | l + 1, k, f =>
    let h := f.length / 2
    let z := powMod root (bitRev bits k) q
    let t := (f.drop h).map (fun x => z * x % q)
    nttF q root bits l (2 * k) (polyAdd q (f.take h) t) ++ nttF q root bits l (2 * k + 1) (polySub q (f.take h) t)

/-- The inverse, without the final scaling. -/
def invNttF (q root bits : Nat) : Nat → Nat → Poly → Poly
  | 0, _, f => f
  | l + 1, k, f =>
    let h := f.length / 2
    let a := invNttF q root bits l (2 * k) (f.take h)
    let b := invNttF q root bits l (2 * k + 1) (f.drop h)
    let z := invMod (powMod root (bitRev bits k) q) q
    polyAdd q a b ++ (polySub q a b).map (fun x => z * x % q)

/-! ML-KEM -/

/-- k, d_u and d_v of a parameter set (FIPS 203). -/
structure KemSet where
  k : Nat
  du : Nat
  dv : Nat
deriving DecidableEq, Repr

def mlkem768 : KemSet := { k := 3, du := 10, dv := 4 }
def mlkem1024 : KemSet := { k := 4, du := 11, dv := 5 }

def kemQ : Nat := 3329
def kemNtt (f : Poly) : Poly := nttF kemQ 17 7 7 1 f
def kemInvNtt (f : Poly) : Poly := (invNttF kemQ 17 7 7 1 f).map (fun x => x * 3303 % kemQ)

/-- Product in the transform domain: 128 pairs modulo X^2 - gamma. -/
def kemMul (a b : Poly) : Poly :=
  (List.range 128).flatMap (fun i =>
    let g := powMod 17 (2 * bitRev 7 i + 1) kemQ
    let a0 := a.getD (2 * i) 0
    let a1 := a.getD (2 * i + 1) 0
    let b0 := b.getD (2 * i) 0
    let b1 := b.getD (2 * i + 1) 0
    [(a0 * b0 + a1 * b1 % kemQ * g) % kemQ, (a0 * b1 + a1 * b0) % kemQ])

/-- SampleNTT: three bytes give two candidates; those below q are kept. -/
def kemSampleNtt (seed : Bytes) : Poly :=
  let b := Hash.shake128.run seed 2016
  (((chunks 3 b).flatMap (fun t =>
    [byteAt t 0 + 256 * (byteAt t 1 % 16), byteAt t 1 / 16 + 16 * byteAt t 2])).filter (· < kemQ)).take 256

/-- Centred binomial sampling with eta 2. -/
def kemCbd (seed : Bytes) (n : Nat) : Poly :=
  let v := unpackBits 1 1024 (shake256 (seed ++ [BitVec.ofNat 8 n]) 128)
  (List.range 256).map (fun i =>
    let g (j : Nat) : Nat := v.getD (4 * i + j) 0
    (g 0 + g 1 + kemQ - g 2 - g 3) % kemQ)

def kemCompress (d x : Nat) : Nat := ((x * 2 ^ d * 2 + kemQ) / (2 * kemQ)) % 2 ^ d
def kemDecompress (d y : Nat) : Nat := (2 * y * kemQ + 2 ^ d) / 2 ^ (d + 1)

/-- The matrix entry of row i, column j. -/
def kemA (rho : Bytes) (i j : Nat) : Poly := kemSampleNtt (rho ++ [BitVec.ofNat 8 j, BitVec.ofNat 8 i])

/-- K-PKE.KeyGen: encapsulation key and secret part. -/
def kpkeKeyGen (s : KemSet) (d : Bytes) : Bytes × Bytes :=
  let g := Hash.sha3_512.run (d ++ [BitVec.ofNat 8 s.k]) 0
  let rho := g.take 32
  let sigma := g.drop 32
  let r := List.range s.k
  let sv := r.map (fun i => kemNtt (kemCbd sigma i))
  let ev := r.map (fun i => kemNtt (kemCbd sigma (s.k + i)))
  let t := r.map (fun i => polyAdd kemQ (polySum kemQ (r.map (fun j => kemMul (kemA rho i j) (sv.getD j [])))) (ev.getD i []))
  (t.flatMap (packBits 12) ++ rho, sv.flatMap (packBits 12))

/-- K-PKE.Encrypt. -/
def kpkeEncrypt (s : KemSet) (ek m rnd : Bytes) : Bytes :=
  let r := List.range s.k
  let t := r.map (fun i => (unpackBits 12 256 (slice ek (384 * i) 384)).map (· % kemQ))
  let rho := ek.drop (384 * s.k)
  let y := r.map (fun i => kemNtt (kemCbd rnd i))
  let u := r.map (fun i => polyAdd kemQ
    (kemInvNtt (polySum kemQ (r.map (fun j => kemMul (kemA rho j i) (y.getD j []))))) (kemCbd rnd (s.k + i)))
  let mu := (unpackBits 1 256 m).map (kemDecompress 1)
  let v := polyAdd kemQ (polyAdd kemQ
    (kemInvNtt (polySum kemQ (r.map (fun i => kemMul (t.getD i []) (y.getD i []))))) (kemCbd rnd (2 * s.k))) mu
  u.flatMap (fun p => packBits s.du (p.map (kemCompress s.du))) ++ packBits s.dv (v.map (kemCompress s.dv))

/-- K-PKE.Decrypt. -/
def kpkeDecrypt (s : KemSet) (dk c : Bytes) : Bytes :=
  let r := List.range s.k
  let u := r.map (fun i => (unpackBits s.du 256 (slice c (32 * s.du * i) (32 * s.du))).map (kemDecompress s.du))
  let v := (unpackBits s.dv 256 (c.drop (32 * s.du * s.k))).map (kemDecompress s.dv)
  let sv := r.map (fun i => unpackBits 12 256 (slice dk (384 * i) 384))
  let w := polySub kemQ v (kemInvNtt (polySum kemQ (r.map (fun i => kemMul (sv.getD i []) (kemNtt (u.getD i []))))))
  packBits 1 (w.map (kemCompress 1))

/-- ML-KEM.KeyGen_internal of d and z: the encapsulation key and the decapsulation key. -/
def kemKeyGen (s : KemSet) (d z : Bytes) : Bytes × Bytes :=
  let p := kpkeKeyGen s d
  (p.1, p.2 ++ p.1 ++ Hash.sha3_256.run p.1 0 ++ z)

/-- ML-KEM.Encaps_internal: ciphertext and shared secret. -/
def kemEncaps (s : KemSet) (ek m : Bytes) : Bytes × Bytes :=
  let g := Hash.sha3_512.run (m ++ Hash.sha3_256.run ek 0) 0
  (kpkeEncrypt s ek m (g.drop 32), g.take 32)

/-- ML-KEM.Decaps_internal with implicit rejection. -/
def kemDecaps (s : KemSet) (dk c : Bytes) : Bytes :=
  let ek := slice dk (384 * s.k) (384 * s.k + 32)
  let m := kpkeDecrypt s dk c
  let g := Hash.sha3_512.run (m ++ slice dk (768 * s.k + 32) 32) 0
  if kpkeEncrypt s ek m (g.drop 32) == c then g.take 32 else shake256 (dk.drop (768 * s.k + 64) ++ c) 32

/-- The encapsulation key inside a decapsulation key. -/
def kemEkOf (s : KemSet) (dk : Bytes) : Bytes := slice dk (384 * s.k) (384 * s.k + 32)

/-- The type and modulus checks of FIPS 203 on an encapsulation key. -/
def kemEkOk (s : KemSet) (ek : Bytes) : Bool :=
  ek.length == 384 * s.k + 32 && (unpackBits 12 (256 * s.k) (ek.take (384 * s.k))).all (· < kemQ)

/-- The private half of a decapsulation key belongs to the encapsulation key in it: both errors of the key, s and t - A s, are as small as
those that key generation draws, of absolute value 2 at most. -/
def kemPrivateOk (s : KemSet) (dk : Bytes) : Bool :=
  let vec (b : Bytes) : List Poly := (List.range s.k).map (fun i => unpackBits 12 256 (slice b (384 * i) 384))
  let ek := kemEkOf s dk
  let sk := vec dk
  let r := List.range s.k
  let as := r.map (fun i => polySum kemQ (r.map (fun j => kemMul (kemA (ek.drop (384 * s.k)) i j) (sk.getD j []))))
  sk.all (fun f => f.all (· < kemQ))
    && (sk ++ List.zipWith (polySub kemQ) (vec ek) as).all (fun f => (kemInvNtt f).all (fun x => x ≤ 2 || kemQ - 2 ≤ x))

/-! ML-DSA -/

/-- The parameters of FIPS 204 that differ between the sets, and the bytes of the commitment hash. -/
structure DsaSet where
  k : Nat
  l : Nat
  eta : Nat
  tau : Nat
  beta : Nat
  omega : Nat
  ct : Nat
deriving DecidableEq, Repr

def mldsa65 : DsaSet := { k := 6, l := 5, eta := 4, tau := 49, beta := 196, omega := 55, ct := 48 }
def mldsa87 : DsaSet := { k := 8, l := 7, eta := 2, tau := 60, beta := 120, omega := 75, ct := 64 }

def dsaQ : Nat := 8380417
def dsaG1 : Nat := 2 ^ 19
def dsaG2 : Nat := 261888
def dsaNtt (f : Poly) : Poly := nttF dsaQ 1753 8 8 1 f
def dsaInvNtt (f : Poly) : Poly := (invNttF dsaQ 1753 8 8 1 f).map (fun x => x * 8347681 % dsaQ)
def dsaMul (a b : Poly) : Poly := List.zipWith (fun x y => x * y % dsaQ) a b

/-- A coefficient as an integer between -q/2 and q/2. -/
def dsaCentre (x : Nat) : Int := if x > dsaQ / 2 then (x : Int) - dsaQ else x

/-- An integer as a coefficient. -/
def dsaRed (x : Int) : Nat := (x % (dsaQ : Int)).toNat

def dsaNormBelow (b : Nat) (p : Poly) : Bool := p.all (fun x => (dsaCentre x).natAbs < b)

/-- RejNTTPoly: three bytes give a candidate of 23 bits. -/
def dsaSampleNtt (seed : Bytes) : Poly :=
  (((chunks 3 (Hash.shake128.run seed 1344)).map (fun t =>
    byteAt t 0 + 256 * byteAt t 1 + 65536 * (byteAt t 2 % 128))).filter (· < dsaQ)).take 256

/-- RejBoundedPoly: a half-byte gives a candidate. -/
def dsaSampleBounded (eta : Nat) (seed : Bytes) : Poly :=
  ((unpackBits 4 2176 (shake256 seed 1088)).filterMap (fun z =>
    if eta == 2 then (if z < 15 then some (dsaRed (2 - (z % 5 : Nat))) else none)
    else if z < 9 then some (dsaRed (4 - (z : Int))) else none)).take 256

/-- ExpandMask, polynomial r of the mask for counter kappa. -/
def dsaMask (rho : Bytes) (kappa r : Nat) : Poly :=
  (unpackBits 20 256 (shake256 (rho ++ leBytes 2 (kappa + r)) 640)).map (fun (v : Nat) => dsaRed ((dsaG1 : Int) - v))

/-- One exchange of SampleInBall at position i: the next byte not above i; fuel bounds the bytes. -/
def ballStep (sgn i : Nat) : Nat → Bytes → Poly → Bytes × Poly
  | 0, b, c => (b, c)
  | f + 1, b, c =>
    let j := byteAt b 0
    if j ≤ i then (b.drop 1, (c.set i (c.getD j 0)).set j (if sgn == 1 then dsaQ - 1 else 1))
    else ballStep sgn i f (b.drop 1) c

/-- SampleInBall. -/
def dsaBall (s : DsaSet) (seed : Bytes) : Poly :=
  let b := shake256 seed 1088
  let signs := leNat (b.take 8)
  ((List.range s.tau).foldl (fun (st : Bytes × Poly) t =>
    ballStep ((signs >>> t) % 2) (256 - s.tau + t) 256 st.1 st.2) (b.drop 8, polyZero)).2

/-- Decompose: high part and low part. -/
def dsaDecompose (r : Nat) : Nat × Int :=
  let a := 2 * dsaG2
  let m := r % a
  let r0 : Int := if m > dsaG2 then (m : Int) - a else m
  if (r : Int) - r0 == (dsaQ : Int) - 1 then (0, r0 - 1) else (((r : Int) - r0).toNat / a, r0)

def dsaHigh (r : Nat) : Nat := (dsaDecompose r).1
def dsaLow (r : Nat) : Int := (dsaDecompose r).2

/-- UseHint. -/
def dsaUseHint (h r : Nat) : Nat :=
  let p := dsaDecompose r
  if h == 0 then p.1 else if p.2 > 0 then (p.1 + 1) % 16 else (p.1 + 15) % 16

/-- Power2Round with d = 13. -/
def dsaPower2 (r : Nat) : Nat × Int :=
  let m := r % 8192
  let r0 : Int := if m > 4096 then (m : Int) - 8192 else m
  (((r : Int) - r0).toNat / 8192, r0)

/-- BitPack of b - w in bits bits. -/
def dsaPack (bits b : Nat) (p : Poly) : Bytes := packBits bits (p.map (fun x => ((b : Int) - dsaCentre x).toNat))
def dsaUnpack (bits b : Nat) (x : Bytes) : Poly := (unpackBits bits 256 x).map (fun (v : Nat) => dsaRed ((b : Int) - v))

def dsaEtaBits (s : DsaSet) : Nat := if s.eta == 2 then 3 else 4

def dsaMatrix (s : DsaSet) (rho : Bytes) (i j : Nat) : Poly :=
  if i < s.k && j < s.l then dsaSampleNtt (rho ++ [BitVec.ofNat 8 j, BitVec.ofNat 8 i]) else []

/-- Matrix times vector in the transform domain, back in the normal domain. -/
def dsaMatMul (s : DsaSet) (rho : Bytes) (v : List Poly) : List Poly :=
  (List.range s.k).map (fun i =>
    dsaInvNtt (polySum dsaQ ((List.range s.l).map (fun j => dsaMul (dsaMatrix s rho i j) (v.getD j [])))))

/-- ML-DSA.KeyGen_internal of the seed: public and private key. -/
def dsaKeyGen (s : DsaSet) (xi : Bytes) : Bytes × Bytes :=
  let h := shake256 (xi ++ [BitVec.ofNat 8 s.k, BitVec.ofNat 8 s.l]) 128
  let rho := h.take 32
  let rho' := slice h 32 64
  let s1 := (List.range s.l).map (fun r => dsaSampleBounded s.eta (rho' ++ leBytes 2 r))
  let s2 := (List.range s.k).map (fun r => dsaSampleBounded s.eta (rho' ++ leBytes 2 (r + s.l)))
  let t := List.zipWith (polyAdd dsaQ) (dsaMatMul s rho (s1.map dsaNtt)) s2
  let pk := rho ++ t.flatMap (fun p => packBits 10 (p.map (fun x => (dsaPower2 x).1)))
  let t0 := t.map (fun p => p.map (fun x => dsaRed (dsaPower2 x).2))
  (pk, rho ++ h.drop 96 ++ shake256 pk 64 ++ s1.flatMap (dsaPack (dsaEtaBits s) s.eta)
    ++ s2.flatMap (dsaPack (dsaEtaBits s) s.eta) ++ t0.flatMap (dsaPack 13 4096))

/-- HintBitPack. -/
def dsaHintPack (s : DsaSet) (h : List Poly) : Bytes :=
  let idx := h.map (fun p => (List.range 256).filter (fun i => p.getD i 0 != 0))
  fit s.omega (idx.flatten.map (BitVec.ofNat 8))
    ++ (List.range s.k).map (fun i => BitVec.ofNat 8 ((idx.take (i + 1)).map List.length).sum)

/-- HintBitUnpack; none when the encoding is not the one HintBitPack gives. -/
def dsaHintUnpack (s : DsaSet) (y : Bytes) : Option (List Poly) :=
  let ends := (List.range s.k).map (fun i => byteAt y (s.omega + i))
  let starts := 0 :: ends
  let part (i : Nat) : List Nat :=
    (slice y (starts.getD i 0) (ends.getD i 0 - starts.getD i 0)).map (·.toNat)
  let rising (l : List Nat) : Bool := (l.zip (l.drop 1)).all (fun p => p.1 < p.2)
  let ok := (List.zip starts ends).all (fun p => p.1 ≤ p.2 && p.2 ≤ s.omega)
    && (List.range s.k).all (fun i => rising (part i))
    && allZero (slice y (ends.getD (s.k - 1) 0) (s.omega - ends.getD (s.k - 1) 0))
  if ok then some ((List.range s.k).map (fun i => (part i).foldl (fun p j => p.set j 1) polyZero)) else none

/-- One attempt of the signing loop of FIPS 204 with its counter; none when it is rejected. -/
def dsaAttempt (s : DsaSet) (sk mu rho'' : Bytes) (kappa : Nat) : Option Bytes :=
  let rho := sk.take 32
  let e := 32 * dsaEtaBits s
  let vec (off n bytes bits b : Nat) : List Poly :=
    (List.range n).map (fun i => dsaNtt (dsaUnpack bits b (slice sk (off + i * bytes) bytes)))
  let s1 := vec 128 s.l e (dsaEtaBits s) s.eta
  let s2 := vec (128 + s.l * e) s.k e (dsaEtaBits s) s.eta
  let t0 := vec (128 + (s.l + s.k) * e) s.k 416 13 4096
  let y := (List.range s.l).map (dsaMask rho'' kappa)
  let w := dsaMatMul s rho (y.map dsaNtt)
  let ct := shake256 (mu ++ w.flatMap (fun p => packBits 4 (p.map dsaHigh))) s.ct
  let c := dsaNtt (dsaBall s ct)
  let cs (v : List Poly) : List Poly := v.map (fun p => dsaInvNtt (dsaMul c p))
  let z := List.zipWith (polyAdd dsaQ) y (cs s1)
  let r := List.zipWith (polySub dsaQ) w (cs s2)
  let ct0 := cs t0
  let h := List.zipWith (fun p t => List.zipWith (fun x d => if dsaHigh x == dsaHigh ((x + d) % dsaQ) then 0 else 1) p t)
    r ct0
  if z.all (dsaNormBelow (dsaG1 - s.beta)) && r.all (fun p => p.all (fun x => (dsaLow x).natAbs < dsaG2 - s.beta))
      && ct0.all (dsaNormBelow dsaG2) && (h.map List.sum).sum ≤ s.omega then
    some (ct ++ z.flatMap (dsaPack 20 dsaG1) ++ dsaHintPack s h)
  else none

/-- The message representative of a pure signature with a context: H(tr ‖ 0 ‖ |ctx| ‖ ctx ‖ M). -/
def dsaMu (tr ctx m : Bytes) : Bytes := shake256 (tr ++ [0, BitVec.ofNat 8 ctx.length] ++ ctx ++ m) 64

/-- The first accepted attempt among 16 from a base on (R206). -/
def dsaSign (s : DsaSet) (sk mu rnd : Bytes) (base : Nat) : Option Bytes :=
  let rho'' := shake256 (slice sk 32 32 ++ rnd ++ mu) 64
  (List.range 16).findSome? (fun a => dsaAttempt s sk mu rho'' ((base + a) * s.l))

/-- ML-DSA verification of a message representative. -/
def dsaVerify (s : DsaSet) (pk mu sig : Bytes) : Bool :=
  let rho := pk.take 32
  let t1 := (List.range s.k).map (fun i =>
    dsaNtt ((unpackBits 10 256 (slice pk (32 + 320 * i) 320)).map (fun x => x * 8192 % dsaQ)))
  let ct := sig.take s.ct
  let z := (List.range s.l).map (fun i => dsaUnpack 20 dsaG1 (slice sig (s.ct + 640 * i) 640))
  match dsaHintUnpack s (sig.drop (s.ct + 640 * s.l)) with
  | none => false
  | some h =>
    let c := dsaNtt (dsaBall s ct)
    let az := dsaMatMul s rho (z.map dsaNtt)
    let w := List.zipWith (fun a t => polySub dsaQ a (dsaInvNtt (dsaMul c t))) az t1
    let w1 := List.zipWith (fun hp wp => List.zipWith dsaUseHint hp wp) h w
    z.all (dsaNormBelow (dsaG1 - s.beta)) && shake256 (mu ++ w1.flatMap (packBits 4)) s.ct == ct

/-- tr of a public key. -/
def dsaTr (pk : Bytes) : Bytes := shake256 pk 64

/-- Signing over as many attempt blocks as needed, for identity signatures and seals (R279, R347); fuel bounds them by
the 16-bit counter of FIPS 204. -/
def dsaSignAllF (s : DsaSet) (sk mu rnd : Bytes) : Nat → Nat → Bytes
  | 0, _ => []
  | f + 1, base =>
    match dsaSign s sk mu rnd base with
    | some sig => sig
    | none => dsaSignAllF s sk mu rnd f (base + 16)

end Sys2Proof.Machine
end

