-- ==== Sys2Proof/Machine/Aes.lean ====
section
/-! DEFINITION. The raw block operations of the cipher engines: AES of FIPS 197 and TDEA of SP 800-67 (R127, R128). -/

namespace Sys2Proof.Machine

/-- The AES S-box: entry x in bits 8x to 8x + 7 (FIPS 197). -/
def aesSboxN : Nat :=
  0x16bb54b00f2d99416842e6bf0d89a18cdf2855cee9871e9b948ed9691198f8e19e1dc186b95735610ef6034866b53e708a8bbd4b1f74dde8c6b4a61c2e2578ba08ae7a65eaf4566ca94ed58d6d37c8e779e4959162acd3c25c2406490a3a32e0db0b5ede14b8ee4688902a22dc4f816073195d643d7ea7c41744975fec130ccdd2f3ff1021dab6bcf5389d928f40a351a89f3c507f02f94585334d43fbaaefd0cf584c4a39becb6a5bb1fc20ed00d153842fe329b3d63b52a05a6e1b1a2c830975b227ebe28012079a059618c323c7041531d871f1e5a534ccf73f362693fdb7c072a49cafa2d4adf04759fa7dc982ca76abd7fe2b670130c56f6bf27b777c63

/-- The inverse S-box, packed the same way (FIPS 197). -/
def aesInvSboxN : Nat :=
  0x7d0c2155631469e126d677ba7e042b17619953833cbbebc8b0f52aae4d3be0a0ef9cc9939f7ae52d0d4ab519a97f51605fec8027591012b131c7078833a8dd1ff45acd78fec0db9a2079d2c64b3e56fc1bbe18aa0e62b76f89c5291d711af1476edf751ce837f9e28535ade72274ac9673e6b4f0cecff297eadc674f4111913a6b8a130103bdafc1020f3fca8f1e2cd00645b3b80558e4f70ad3bc8c00abd890849d8da75746155edab9edfd5048706c92b6655dcc5ca4d41698688664f6f87225d18b6d49a25b76b224d92866a12e084ec3fa420b954cee3d23c2a632947b54cbe9dec444438e3487ff2f9b8239e37cfbd7f3819ea340bf38a53630d56a0952

/-- An entry of a packed table of bytes. -/
def tab8 (t x : Nat) : Nat := (t >>> (8 * x)) &&& 255

/-! A block, a column and a word of the key schedule are the numbers that their bytes hold, the first byte lowest. -/

/-- The substitution of each of n bytes by a packed table (FIPS 197). -/
def aesSub (t : Nat) : Nat → Nat → Nat
  | 0, _ => 0
  | n + 1, s => tab8 t (s &&& 255) ||| (aesSub t n (s >>> 8) <<< 8)

/-- Multiplication by x in the AES field of each of 16 bytes (FIPS 197). -/
def aesXtime (s : Nat) : Nat :=
  ((s &&& 0x7f7f7f7f7f7f7f7f7f7f7f7f7f7f7f7f) <<< 1) ^^^ (((s >>> 7) &&& 0x01010101010101010101010101010101) * 0x1b)

/-- The n low bits of a number, rotated right by k of them. -/
def rotRight (n k s : Nat) : Nat := (s >>> k) ||| ((s <<< (n - k)) &&& (2 ^ n - 1))

/-- Row r of a block, the bytes whose index leaves r when divided by 4, moved k bytes to the front. -/
def aesRow (s r k : Nat) : Nat := rotRight 128 (8 * k) s &&& (0x000000ff000000ff000000ff000000ff <<< (8 * r))

/-- ShiftRows and its inverse: row r moves by r columns (FIPS 197). -/
def shiftRows (s : Nat) : Nat := aesRow s 0 0 ||| aesRow s 1 4 ||| aesRow s 2 8 ||| aesRow s 3 12
def invShiftRows (s : Nat) : Nat := aesRow s 0 0 ||| aesRow s 1 12 ||| aesRow s 2 8 ||| aesRow s 3 4

/-- Every column of a block rotated by one byte. -/
def rotColumns (s : Nat) : Nat :=
  ((s >>> 8) &&& 0x00ffffff00ffffff00ffffff00ffffff) ||| ((s <<< 24) &&& 0xff000000ff000000ff000000ff000000)

/-- MixColumns: each byte is 2a + 3b + c + d of its column from itself on (FIPS 197). -/
def mixColumns (s : Nat) : Nat :=
  let b := rotColumns s
  aesXtime (s ^^^ b) ^^^ b ^^^ rotColumns (b ^^^ rotColumns b)

/-- InvMixColumns, 14a + 11b + 13c + 9d: MixColumns of 5a + 4c (FIPS 197). -/
def invMixColumns (s : Nat) : Nat := mixColumns (s ^^^ aesXtime (aesXtime (s ^^^ rotColumns (rotColumns s))))

/-- The words of the key schedule, of a key of nk words (FIPS 197). -/
def aesExpand (nk : Nat) : Nat → Nat → Nat → List Nat → List Nat
  | 0, _, _, w => w
  | f + 1, i, rcon, w =>
    let t := w.getD (i - 1) 0
    let t :=
      if i % nk == 0 then aesSub aesSboxN 4 (rotRight 32 8 t) ^^^ rcon
      else if nk > 6 && i % nk == 4 then aesSub aesSboxN 4 t
      else t
    aesExpand nk f (i + 1) (if i % nk == 0 then aesXtime rcon else rcon) (w ++ [t ^^^ w.getD (i - nk) 0])

/-- The schedule of a 16, 24 or 32 byte key. -/
def aesSchedule (key : Bytes) : List Nat :=
  let nk := key.length / 4
  aesExpand nk (4 * (nk + 7) - nk) nk 1 ((List.range nk).map (fun i => leNat ((key.drop (4 * i)).take 4)))

/-- Rounds of a key: 10, 12 or 14. -/
def aesRounds (key : Bytes) : Nat := key.length / 4 + 6

/-- AddRoundKey: the four words of round r. -/
def addKey (w : List Nat) (r s : Nat) : Nat :=
  s ^^^ (w.getD (4 * r) 0 ||| (w.getD (4 * r + 1) 0 <<< 32) ||| (w.getD (4 * r + 2) 0 <<< 64) ||| (w.getD (4 * r + 3) 0 <<< 96))

/-- The rounds of encryption from round r on. -/
def aesEncRounds (w : List Nat) : Nat → Nat → Nat → Nat
  | 0, r, s => addKey w r (shiftRows (aesSub aesSboxN 16 s))
  | f + 1, r, s => aesEncRounds w f (r + 1) (addKey w r (mixColumns (shiftRows (aesSub aesSboxN 16 s))))

/-- AES encryption of one block (FIPS 197). -/
def aesEnc (key blk : Bytes) : Bytes :=
  let w := aesSchedule key
  leBytes 16 (aesEncRounds w (aesRounds key - 1) 1 (addKey w 0 (leNat blk)))

/-- The rounds of decryption down to round 0. -/
def aesDecRounds (w : List Nat) : Nat → Nat → Nat
  | 0, s => addKey w 0 (aesSub aesInvSboxN 16 (invShiftRows s))
  | r + 1, s => aesDecRounds w r (invMixColumns (addKey w (r + 1) (aesSub aesInvSboxN 16 (invShiftRows s))))

/-- AES decryption of one block (FIPS 197). -/
def aesDec (key blk : Bytes) : Bytes :=
  let w := aesSchedule key
  let n := aesRounds key
  leBytes 16 (aesDecRounds w (n - 1) (addKey w n (leNat blk)))

/-- Initial permutation (SP 800-67). -/
def desIP : List Nat :=
  [58, 50, 42, 34, 26, 18, 10, 2, 60, 52, 44, 36, 28, 20, 12, 4,
   62, 54, 46, 38, 30, 22, 14, 6, 64, 56, 48, 40, 32, 24, 16, 8,
   57, 49, 41, 33, 25, 17, 9, 1, 59, 51, 43, 35, 27, 19, 11, 3,
   61, 53, 45, 37, 29, 21, 13, 5, 63, 55, 47, 39, 31, 23, 15, 7]

/-- Final permutation (SP 800-67). -/
def desFP : List Nat :=
  [40, 8, 48, 16, 56, 24, 64, 32, 39, 7, 47, 15, 55, 23, 63, 31,
   38, 6, 46, 14, 54, 22, 62, 30, 37, 5, 45, 13, 53, 21, 61, 29,
   36, 4, 44, 12, 52, 20, 60, 28, 35, 3, 43, 11, 51, 19, 59, 27,
   34, 2, 42, 10, 50, 18, 58, 26, 33, 1, 41, 9, 49, 17, 57, 25]

/-- Expansion (SP 800-67). -/
def desE : List Nat :=
  [32, 1, 2, 3, 4, 5, 4, 5, 6, 7, 8, 9, 8, 9, 10, 11,
   12, 13, 12, 13, 14, 15, 16, 17, 16, 17, 18, 19, 20, 21, 20, 21,
   22, 23, 24, 25, 24, 25, 26, 27, 28, 29, 28, 29, 30, 31, 32, 1]

/-- Permutation P (SP 800-67). -/
def desP : List Nat :=
  [16, 7, 20, 21, 29, 12, 28, 17, 1, 15, 23, 26, 5, 18, 31, 10,
   2, 8, 24, 14, 32, 27, 3, 9, 19, 13, 30, 6, 22, 11, 4, 25]

/-- Permuted choice 1 (SP 800-67). -/
def desPC1 : List Nat :=
  [57, 49, 41, 33, 25, 17, 9, 1, 58, 50, 42, 34, 26, 18, 10, 2,
   59, 51, 43, 35, 27, 19, 11, 3, 60, 52, 44, 36, 63, 55, 47, 39,
   31, 23, 15, 7, 62, 54, 46, 38, 30, 22, 14, 6, 61, 53, 45, 37,
   29, 21, 13, 5, 28, 20, 12, 4]

/-- Permuted choice 2 (SP 800-67). -/
def desPC2 : List Nat :=
  [14, 17, 11, 24, 1, 5, 3, 28, 15, 6, 21, 10, 23, 19, 12, 4,
   26, 8, 16, 7, 27, 20, 13, 2, 41, 52, 31, 37, 47, 55, 30, 40,
   51, 45, 33, 48, 44, 49, 39, 56, 34, 53, 46, 42, 50, 36, 29, 32]

/-- The eight S-boxes, each packed: entry 16 × row + column in bits 4 times that (SP 800-67). -/
def desS : List Nat :=
  [0xd60ae3b5719428cf05a379cfb26d8e148359bc6a1d2e47f07095c6a38bf21d4e,
   0x9e50c76b24f31a8df2396c851d4ab7e05b96a10ce82f74d3a50cd27943b6e81f,
   0xc25b3ef478960da17ea5c21b03f8946d1fbce582a643907d824b7cd15f36e90a,
   0xe27cb5498d1a60f34825e31fd7bc096a9ea1c27430f65b8df4cb5821a9603ed7,
   0x354a90f6d2e17c8be0365c9f87dab1246893af051d74c2be9e0df3586ba714c2,
   0xd80671ebaf59c2346bd1a4073c825fe983b0ed1659c724fab57e43d08629fa1c,
   0xc32ef0597a418db6295086fae73cdb4168f2c53ea1947b0d16a579c3d80fe2b4,
   0xb65309cfd8a47e12853fda602ec914b729e0b65c473a8df17c05e39a1bf6482d]

/-- The bits of v named by a table of positions, position 1 the most significant of n (SP 800-67). -/
def desPerm (n : Nat) (t : List Nat) (v : Nat) : Nat := t.foldl (fun a p => 2 * a + (v >>> (n - p)) % 2) 0

/-- Left rotation of 28 bits. -/
def rot28 (v k : Nat) : Nat := ((v <<< k) ||| (v >>> (28 - k))) % 2 ^ 28

/-- The 16 round keys. -/
def desKeys (key : Nat) : List Nat :=
  let cd := desPerm 64 desPC1 key
  let shifts := [1, 2, 4, 6, 8, 10, 12, 14, 15, 17, 19, 21, 23, 25, 27, 28]
  shifts.map (fun k => desPerm 56 desPC2 (rot28 (cd >>> 28) k * 2 ^ 28 + rot28 (cd % 2 ^ 28) k))

/-- The round function. -/
def desF (r k : Nat) : Nat :=
  let x := desPerm 32 desE r ^^^ k
  let s := (List.range 8).foldl (fun a i =>
    let b := (x >>> (42 - 6 * i)) % 64
    16 * a + ((desS.getD i 0) >>> (4 * (16 * (2 * (b / 32) + b % 2) + b / 2 % 16))) % 16) 0
  desPerm 32 desP s

/-- One DES block under a list of round keys, as numbers. -/
def desBlock (ks : List Nat) (blk : Nat) : Nat :=
  let v := desPerm 64 desIP blk
  let lr := ks.foldl (fun (p : Nat × Nat) k => (p.2, p.1 ^^^ desF p.2 k)) (v >>> 32, v % 2 ^ 32)
  desPerm 64 desFP (lr.2 * 2 ^ 32 + lr.1)

def desEncN (key blk : Nat) : Nat := desBlock (desKeys key) blk
def desDecN (key blk : Nat) : Nat := desBlock (desKeys key).reverse blk

/-- Single DES encryption of one block, as MAC algorithm 3 uses it (R147). -/
def desEnc (key blk : Bytes) : Bytes := beBytes 8 (desEncN (beNat key) (beNat blk))
def desDec (key blk : Bytes) : Bytes := beBytes 8 (desDecN (beNat key) (beNat blk))

/-- The third key of a bundle: K1 again in a bundle of two (R128). -/
def tdeaK3 (key : Bytes) : Bytes := if key.length < 24 then key.take 8 else slice key 16 8

/-- TDEA encryption of one block (R127, R128). -/
def tdeaEnc (key blk : Bytes) : Bytes := desEnc (tdeaK3 key) (desDec (slice key 8 8) (desEnc (key.take 8) blk))

/-- TDEA decryption of one block. -/
def tdeaDec (key blk : Bytes) : Bytes := desDec (key.take 8) (desEnc (slice key 8 8) (desDec (tdeaK3 key) blk))

/-- A cipher engine's block operation: the algorithm of a key object (R238) chooses AES or TDEA. -/
def isTdea (alg : BitVec 16) : Bool := alg.toNat / 256 == 2

def blockSize (alg : BitVec 16) : Nat := if isTdea alg then 8 else 16
def blockEnc (alg : BitVec 16) (key blk : Bytes) : Bytes := if isTdea alg then tdeaEnc key blk else aesEnc key blk
def blockDec (alg : BitVec 16) (key blk : Bytes) : Bytes := if isTdea alg then tdeaDec key blk else aesDec key blk

end Sys2Proof.Machine
end

