-- ==== Sys2Proof/Machine/Modes.lean ====
section
/-! DEFINITION. Block-cipher modes on whole strings, as the module uses them for its own records and keys, and the
pieces the cipher programs share: CMAC, GHASH, GCM, KW and KWP, the KDF of R272, CTR_DRBG and check values. -/

namespace Sys2Proof.Machine

/-- Doubling in GF(2^128) for CMAC (SP 800-38B). -/
def cmacDouble (b : Bytes) : Bytes :=
  let v := beNat b
  beBytes 16 ((2 * v) % 2 ^ 128 ^^^ (if v >>> 127 == 1 then 0x87 else 0))

/-- The same in a block of 8 or of 16 bytes. -/
def subkeyDouble (b : Bytes) : Bytes :=
  if b.length == 8 then
    beBytes 8 ((2 * beNat b) % 2 ^ 64 ^^^ (if beNat b >>> 63 == 1 then 0x1B else 0))
  else cmacDouble b

/-- CBC-MAC state over whole blocks. -/
def cbcMacAes (key : Bytes) (st : Bytes) (blocks : List Bytes) : Bytes :=
  blocks.foldl (fun s b => aesEnc key (xorB s b)) st

/-- The last block of a CMAC, masked with K1 or, when not whole, padded and masked with K2. -/
def cmacMask (k1 k2 key st last : Bytes) : Bytes :=
  aesEnc key (xorB st (if last.length == 16 then xorB last k1 else xorB (fit 16 (last ++ [0x80])) k2))

/-- The same with the subkeys of the key. -/
def cmacFinal (key st last : Bytes) : Bytes :=
  let k1 := cmacDouble (aesEnc key (zeros 16))
  cmacMask k1 (cmacDouble k1) key st last

/-- AES-CMAC (SP 800-38B). -/
def cmac (key x : Bytes) : Bytes :=
  let n := if x.isEmpty then 0 else (x.length - 1) / 16
  cmacFinal key (cbcMacAes key (zeros 16) (chunks 16 (x.take (16 * n)))) (x.drop (16 * n))

/-- One step of the GF(2^128) product of SP 800-38D: bit i of x, most significant first. -/
def gfStep (x : Nat) (zv : Nat × Nat) (i : Nat) : Nat × Nat :=
  (if x.testBit (127 - i) then zv.1 ^^^ zv.2 else zv.1,
    if zv.2 % 2 == 1 then (zv.2 / 2) ^^^ (0xE1 <<< 120) else zv.2 / 2)

/-- The product of SP 800-38D. -/
def gfMul (x y : Nat) : Nat := ((List.range 128).foldl (gfStep x) (0, y)).1

/-- GHASH over whole blocks from an accumulator. -/
def ghash (h : Nat) (acc : Nat) (blocks : List Bytes) : Nat :=
  blocks.foldl (fun a b => gfMul (a ^^^ beNat (fit 16 b)) h) acc

/-- The counter block for text block i, counter j0 + 1 + i, with a 96-bit IV. -/
def gcmCounter (iv : Bytes) (i : Nat) : Bytes := fit 12 iv ++ beBytes 4 (i + 2)

/-- The keystream of n bytes of text from byte offset off on, for a counter block by index. -/
def keystream (key : Bytes) (ctr : Nat → Bytes) (off n : Nat) : Bytes :=
  let first := off / 16
  let cnt := ceilDiv (off % 16 + n) 16
  (((List.range cnt).flatMap (fun i => aesEnc key (ctr (first + i)))).drop (off % 16)).take n

/-- The tag of SP 800-38D from the GHASH value over AAD and text, under a hash subkey. -/
def gcmTagWith (h : Nat) (key iv : Bytes) (acc aadLen textLen : Nat) : Bytes :=
  let s := gfMul (acc ^^^ (8 * aadLen * 2 ^ 64 + 8 * textLen)) h
  xorB (beBytes 16 s) (aesEnc key (fit 12 iv ++ beBytes 4 1))

/-- The same under the hash subkey of the key. -/
def gcmTag (key iv : Bytes) (acc aadLen textLen : Nat) : Bytes :=
  gcmTagWith (beNat (aesEnc key (zeros 16))) key iv acc aadLen textLen

/-- AES-GCM of a whole text with a 96-bit IV: ciphertext and 16-byte tag. -/
def gcmSeal (key iv aad text : Bytes) : Bytes × Bytes :=
  let c := xorB text (keystream key (gcmCounter iv) 0 text.length)
  let h := beNat (aesEnc key (zeros 16))
  (c, gcmTag key iv (ghash h (ghash h 0 (chunks 16 aad)) (chunks 16 c)) aad.length text.length)

/-- AES-GCM opening; none when the tag differs. -/
def gcmOpen (key iv aad c tag : Bytes) : Option Bytes :=
  let h := beNat (aesEnc key (zeros 16))
  if gcmTag key iv (ghash h (ghash h 0 (chunks 16 aad)) (chunks 16 c)) aad.length c.length == tag then
    some (xorB c (keystream key (gcmCounter iv) 0 c.length))
  else none

/-- W of SP 800-38F: step t from 1 on, over the semiblocks. -/
def kwEncStep (key : Bytes) (n : Nat) (ar : Bytes × List Bytes) (t : Nat) : Bytes × List Bytes :=
  let i := t % n
  let b := aesEnc key (ar.1 ++ ar.2.getD i [])
  (xorB (b.take 8) (beBytes 8 (t + 1)), ar.2.set i (b.drop 8))

def kwEnc (key a : Bytes) (r : List Bytes) : Bytes :=
  let x := (List.range (6 * r.length)).foldl (kwEncStep key r.length) (a, r)
  x.1 ++ x.2.flatten

def kwDecStep (key : Bytes) (n : Nat) (ar : Bytes × List Bytes) (t : Nat) : Bytes × List Bytes :=
  let i := t % n
  let b := aesDec key (xorB ar.1 (beBytes 8 (t + 1)) ++ ar.2.getD i [])
  (b.take 8, ar.2.set i (b.drop 8))

def kwDec (key a : Bytes) (r : List Bytes) : Bytes × Bytes :=
  let x := ((List.range (6 * r.length)).reverse).foldl (kwDecStep key r.length) (a, r)
  (x.1, x.2.flatten)

/-- KW-AE (SP 800-38F), default initial value. -/
def kwWrap (key x : Bytes) : Bytes := kwEnc key (List.replicate 8 0xA6) (chunks 8 x)

/-- KW-AD; none when the integrity check fails. -/
def kwUnwrap (key c : Bytes) : Option Bytes :=
  let r := kwDec key (c.take 8) (chunks 8 (c.drop 8))
  if r.1 == List.replicate 8 0xA6 then some r.2 else none

/-- The alternative initial value of KWP with the length. -/
def kwpIv (n : Nat) : Bytes := [0xA6, 0x59, 0x59, 0xA6] ++ beBytes 4 n

/-- KWP-AE (SP 800-38F). -/
def kwpWrap (key x : Bytes) : Bytes :=
  let p := fit (8 * ceilDiv x.length 8) x
  if p.length ≤ 8 then aesEnc key (kwpIv x.length ++ p) else kwEnc key (kwpIv x.length) (chunks 8 p)

/-- KWP-AD; none when the integrity check fails. -/
def kwpUnwrap (key c : Bytes) : Option Bytes :=
  let r := if c.length == 16 then let b := aesDec key c; (b.take 8, b.drop 8) else kwDec key (c.take 8) (chunks 8 (c.drop 8))
  let n := beNat (r.1.drop 4)
  if r.1.take 4 == [0xA6, 0x59, 0x59, 0xA6] && c.length < n + 16 && n + 8 ≤ c.length && allZero (r.2.drop n) then
    some (r.2.take n)
  else none

/-- The KDF of R272: counter mode with HMAC-SHA-384, l in bits. -/
def kdf (k : Bytes) (label : String) (context : Bytes) (l : Nat) : Bytes :=
  ((List.range (ceilDiv l 384)).flatMap (fun i =>
    hmac .sha384 k (beBytes 4 (i + 1) ++ ascii label ++ [0x00] ++ context ++ beBytes 4 l))).take (l / 8)

/-- The update of CTR_DRBG with AES-256 (SP 800-90A) over 48 bytes of provided data. -/
def drbgUpdate (kv : Bytes × Bytes) (data : Bytes) : Bytes × Bytes :=
  let c (i : Nat) : Bytes := aesEnc kv.1 (beBytes 16 (beNat kv.2 + i))
  let t := xorB (c 1 ++ c 2 ++ c 3) (fit 48 data)
  (t.take 32, t.drop 32)

/-- CBC-MAC with a zero start value: the BCC function of SP 800-90A. -/
def drbgBcc (key data : Bytes) : Bytes := (chunks 16 data).foldl (fun c b => aesEnc key (xorB c b)) (zeros 16)

/-- The derivation function of SP 800-90A with AES-256, to 48 bytes (R218). -/
def drbgDf (input : Bytes) : Bytes :=
  let body := beBytes 4 input.length ++ beBytes 4 48 ++ input ++ [0x80]
  let body := fit (16 * ceilDiv body.length 16) body
  let key := (List.range 32).map (BitVec.ofNat 8)
  let t := ((List.range 3).flatMap (fun i => drbgBcc key (beBytes 4 i ++ zeros 12 ++ body))).take 48
  let x1 := aesEnc (t.take 32) (t.drop 32)
  let x2 := aesEnc (t.take 32) x1
  x1 ++ x2 ++ aesEnc (t.take 32) x2

/-- Instantiation from the entropy input, the nonce and the personalization string (R219). -/
def drbgInit (seed : Bytes) : Bytes × Bytes := drbgUpdate (zeros 32, zeros 16) (drbgDf seed)

/-- Reseed with the entropy input and the additional input (R219). -/
def drbgReseed (kv : Bytes × Bytes) (seed : Bytes) : Bytes × Bytes := drbgUpdate kv (drbgDf seed)

/-- A generate call of n bytes: the output and the new Key and V. -/
def drbgGenerate (kv : Bytes × Bytes) (n : Nat) : Bytes × (Bytes × Bytes) :=
  let blocks := ceilDiv n 16
  let out := ((List.range blocks).flatMap (fun i => aesEnc kv.1 (beBytes 16 (beNat kv.2 + i + 1)))).take n
  (out, drbgUpdate (kv.1, beBytes 16 (beNat kv.2 + blocks)) [])

/-- The check value of R240: material of an AES, TDEA or HMAC key, or the public key of a public-key object. -/
def checkValue (alg : BitVec 16) (material pub : Bytes) : Bytes :=
  match alg.toNat / 256 with
  | 1 => (cmac material (zeros 16)).take 3
  | 2 => (tdeaEnc material (zeros 8)).take 3
  | 3 => match hmacHash alg with
    | some h => (hmac h material (zeros 16)).take 3
    | none => zeros 3
  | 4 => (sha256 pub).take 3
  | _ => zeros 3

end Sys2Proof.Machine
end

