-- ==== Sys2Proof/Machine/Keys.lean ====
section
/-! DEFINITION. The life-cycle rows as the custody pair reads them (R387 to R390), the root row (R274), and every key
derived from the root and the envelope key (R271 to R283). -/

namespace Sys2Proof.Machine

/-! Life-cycle rows -/

/-- Codeword of a state (Table 16.2). -/
def lcCode (st : Nat) : BitVec 64 :=
  match st with
  | 1 => 0x00000000FFFFFFFF
  | 2 => 0x0000FFFF0000FFFF
  | 3 => 0x0000FFFFFFFF0000
  | 4 => 0xFFFF00000000FFFF
  | 5 => 0xFFFFFFFFFFFFFFFF
  | _ => 0

/-- Bits in which two words differ. -/
def bitDiff (a b : BitVec 64) : Nat := ((List.range 64).filter (fun i => (a ^^^ b).getLsbD i)).length

/-- A row among LC0 to LC18 is blank when at most 3 of its bits are 1 (R389). -/
def rowBlank (r : BitVec 64) : Bool := bitDiff r 0 ≤ 3

/-- The state whose codeword a non-blank row holds (R389). -/
def rowState (r : BitVec 64) : Option Nat := [1, 2, 3, 4, 5].find? (fun st => bitDiff r (lcCode st) ≤ 3)

/-- The state assigned to row i (R388). -/
def rowAssigned (i : Nat) : Nat :=
  if i == 0 then 1 else if i == 1 then 2 else if i == 2 then 3 else if i == 19 then 5 else if i % 2 == 1 then 4 else 3

def Otp.row (o : Otp) (i : Nat) : BitVec 64 := o.lcRows.getD i 0

/-- The index of the last non-blank row among LC0 to LC18. -/
def Otp.lastRow (o : Otp) : Option Nat := ((List.range 19).reverse).find? (fun i => !rowBlank (o.row i))

/-- LOST_CAUSE 1 to 3 of R390, 0 when the rows decode. -/
def Otp.rowsCause (o : Otp) : Nat :=
  let idx := List.range 19
  if o.row 19 != 0 then 0
  else if idx.any (fun i => !rowBlank (o.row i) && (rowState (o.row i)).isNone) then 1
  else if idx.any (fun i => i > 0 && rowBlank (o.row (i - 1)) && !rowBlank (o.row i)) then 2
  else if idx.any (fun i => !rowBlank (o.row i) && rowState (o.row i) != some (rowAssigned i)) then 3
  else 0

/-- The decoded state of the rows (R389): 0 to 5. -/
def Otp.lcState (o : Otp) : Nat :=
  if o.row 19 != 0 then 5
  else match o.lastRow with
    | none => 0
    | some i => (rowState (o.row i)).getD 0

/-- Completed DIAPAUSE trip entries (LCS_STAT.TRIPS, R389). -/
def Otp.trips (o : Otp) : Nat := ((List.range 8).filter (fun k => !rowBlank (o.row (3 + 2 * k)))).length

/-- LCS_STAT.STATE: the decoded state, 6 for a lost unit (R390). -/
def State.lc (s : State) : Nat := if s.lcs.lostCause != 0 then 6 else s.otp.lcState

/-! Root row -/

/-- The row as bytes, root first. -/
def Otp.rootBytes (o : Otp) : Bytes := leBytes 64 o.root.toNat

def serialBytes (s : State) : Bytes := leBytes 8 s.glb.serial.toNat

/-- C of R274. -/
def rootCheck (s : State) (root : Bytes) : Bytes := sha256 (root ++ ascii "VW.ROOT" ++ serialBytes s)

/-- The root row is valid (R274). -/
def State.rootValid (s : State) : Bool :=
  s.otp.root != 0 && s.otp.rootBytes.drop 32 == rootCheck s (s.otp.rootBytes.take 32)

def State.rootSecret (s : State) : Bytes := s.otp.rootBytes.take 32

/-! Derivations of Table 11.2 -/

/-- ML-DSA-87 half of the identity: public and private key. -/
def State.idMldsa (s : State) : Bytes × Bytes :=
  dsaKeyGen mldsa87 (kdf s.rootSecret "VW.IDM" (serialBytes s) 256)

/-- P-384 half: the secret scalar. -/
def State.idSecret (s : State) : Nat := p384.secret (kdf s.rootSecret "VW.IDE" (serialBytes s) 448)

def State.idPoint (s : State) : Bytes := p384.public s.idSecret

/-- IDENT (R278). -/
def State.identDigest (s : State) : Bytes := sha384 (s.idMldsa.1 ++ s.idPoint)

def State.recorderKey (s : State) : Bytes := kdf s.rootSecret "VW.EVR" (serialBytes s) 256

/-- The check stored beside an envelope key. -/
def State.envCheck (s : State) (env : Bytes) : Bytes := kdf s.rootSecret "VW.ENV" env 128

/-- The vault master key under an envelope key. -/
def State.vmk (s : State) (env : Bytes) : Bytes := kdf s.rootSecret "VW.VMK" env 256

/-- The epoch of a domain (R282). -/
def State.epoch (s : State) (d : Nat) : Nat := lookup0 s.vlt.epochs d

def domCtx (d e : Nat) : Bytes := leBytes 2 d ++ leBytes 4 e

/-- DVK_d, which seals the domain's object images (R236). -/
def State.dvk (s : State) (d : Nat) : Bytes := kdf (s.vmk s.vlt.vaultKey) "VW.DVK" (domCtx d (s.epoch d)) 256

/-- DRK_d: encapsulation and decapsulation key (R283). -/
def State.drk (s : State) (d : Nat) : Bytes × Bytes :=
  let seed := kdf (s.vmk s.vlt.vaultKey) "VW.DRK" (domCtx d (s.epoch d)) 512
  kemKeyGen mlkem1024 (seed.take 32) (seed.drop 32)

/-- An identity signature (R279): the ML-DSA-87 signature and the P-384 signature of a byte string. The ECDSA secret
is the random value given. -/
def State.idSign (s : State) (m random : Bytes) : Bytes :=
  let k := s.idMldsa
  dsaSignAllF mldsa87 k.2 (dsaMu (dsaTr k.1) [] m) (zeros 32) 4096 0
    ++ p384.sign s.idSecret (p384.secret (p384.trim random)) (sha384 m)

/-- The P-384 half alone (R37). -/
def State.idSignEc (s : State) (m random : Bytes) : Bytes :=
  p384.sign s.idSecret (p384.secret (p384.trim random)) (sha384 m)

/-- An identity-style signature of the R279 layout verified under two public keys. -/
def idVerify (mldsaPub ecPub m sig : Bytes) : Bool :=
  dsaVerify mldsa87 mldsaPub (dsaMu (dsaTr mldsaPub) [] m) (sig.take 4627)
    && p384.verify ecPub (sig.drop 4627) (sha384 m) == some true

/-- KUM wrap key and envelope body key (Table 11.2). -/
def kumKey (secret : Bytes) (counter handle : Nat) : Bytes := kdf secret "VW.KUM" (leBytes 8 counter ++ leBytes 5 handle) 256
def bodyKey (secret : Bytes) (first count time : Nat) : Bytes :=
  kdf secret "VW.KBE" (leBytes 4 first ++ leBytes 4 count ++ leBytes 8 time) 256

end Sys2Proof.Machine
end

