-- ==== Sys2Proof/Machine/Ops.lean ====
section
/-! DEFINITION. The named operations over the module's records: one accessor and one updater for each bank of
records, interrupt vectors, the event recorder, violations, writes to host memory, the capacity figures and the
lookups of flows, objects and domains. -/

namespace Sys2Proof.Machine

/-! Banks of records -/

def State.getInst (s : State) (n : Nat) : InstRec := (s.inst[n]?).getD InstRec.reset
def State.modInst (s : State) (n : Nat) (f : InstRec → InstRec) : State :=
  { s with inst := s.inst.setIfInBounds n (f (s.getInst n)) }
def State.mapInst (s : State) (f : InstRec → InstRec) : State := { s with inst := s.inst.map f }

def State.getEng (s : State) (e : Nat) : Engine := (s.eng[e]?).getD Engine.reset
def State.modEng (s : State) (e : Nat) (f : Engine → Engine) : State :=
  { s with eng := s.eng.setIfInBounds e (f (s.getEng e)) }

def State.getClu (s : State) (c : Nat) : Cluster := (s.clu[c]?).getD Cluster.reset
def State.modClu (s : State) (c : Nat) (f : Cluster → Cluster) : State :=
  { s with clu := s.clu.setIfInBounds c (f (s.getClu c)) }

def State.getAcu (s : State) (u : Nat) : AcuUnit := (s.acu[u]?).getD AcuUnit.reset
def State.modAcu (s : State) (u : Nat) (f : AcuUnit → AcuUnit) : State :=
  { s with acu := s.acu.setIfInBounds u (f (s.getAcu u)) }

def Rng.getGen (r : Rng) (g : Nat) : Gen := (r.gens[g]?).getD Gen.reset
def State.modGen (s : State) (g : Nat) (f : Gen → Gen) : State :=
  { s with rng := { s.rng with gens := s.rng.gens.setIfInBounds g (f (s.rng.getGen g)) } }

def Tmp.getMon (t : Tmp) (m : Nat) : MonRec := (t.mons[m]?).getD MonRec.reset
def State.modMon (s : State) (m : Nat) (f : MonRec → MonRec) : State :=
  { s with tmp := { s.tmp with mons := s.tmp.mons.setIfInBounds m (f (s.tmp.getMon m)) } }

def Hlt.getInd (h : Hlt) (i : Nat) : Indicator := (h.inds[i]?).getD Indicator.reset

/-- The rings of instance n. -/
def State.modRings (s : State) (n : Nat) (f : Rings → Rings) : State :=
  s.modInst n (fun i => { i with rings := f i.rings })

/-! Triplicated fields (R9) -/

def Triple.all {α : Type} (x : α) : Triple α := ⟨x, x, x⟩

/-- The majority value; none when all three copies differ. -/
def Triple.vote {α : Type} [DecidableEq α] (t : Triple α) : Option α :=
  if t.a = t.b ∨ t.a = t.c then some t.a else if t.b = t.c then some t.b else none

/-- All three copies differ. -/
def Triple.split {α : Type} [DecidableEq α] (t : Triple α) : Bool := t.vote.isNone

/-- One copy disagrees with the other two. -/
def Triple.stray {α : Type} [DecidableEq α] (t : Triple α) : Bool := !t.split && (t.a != t.b || t.a != t.c)

/-- The disagreeing copy rewritten. -/
def Triple.mend {α : Type} [DecidableEq α] (t : Triple α) : Triple α :=
  match t.vote with
  | some x => Triple.all x
  | none => t

/-- What a field of bits reads: with three different copies a free value of them (R9 gives none; log 55). -/
def Triple.value {w : Nat} (t : Triple (BitVec w)) : BitVec w :=
  t.vote.getD (BitVec.ofNat w (Config.splitField t.a.toNat t.b.toNat t.c.toNat))

/-! Interrupts and operating time -/

/-- The mask of a vector: bit 0 of the fourth word of its entry, in the table of the function (R75; PRESUMED, log 9: the
layout of the tables is PCIe's). -/
def State.vecMasked (s : State) (fn vec : Nat) : Bool :=
  (s.getInst fn).cfg.msixMask
    || (if fn == 0 then (s.lnk.pf.msix.toList.getD (4 * vec + 3) 1).getLsbD 0
        else ((s.getInst fn).msix.getD (4 * vec + 3) 1).getLsbD 0)

/-- The pending bit of a vector. -/
def State.vecPending (s : State) (fn vec : Nat) : Bool :=
  if fn == 0 then s.lnk.pf.msixPend.getLsbD vec else (s.getInst fn).msixPend.getLsbD vec

def State.setPending (s : State) (fn vec : Nat) (on : Bool) : State :=
  if fn == 0 then
    let b := (1 : BitVec 32) <<< vec
    { s with lnk := { s.lnk with pf := { s.lnk.pf with
        msixPend := if on then s.lnk.pf.msixPend ||| b else s.lnk.pf.msixPend &&& ~~~b } } }
  else
    let b := (1 : BitVec 2) <<< vec
    s.modInst fn (fun i => { i with msixPend := if on then i.msixPend ||| b else i.msixPend &&& ~~~b })

/-- Raise a vector of a function (R75): a masked one is pending. With the link down, or with MSI-X Enable 0, no vector can be
sent (PRESUMED, log 9). -/
def State.raise (s : State) (fn vec : Nat) : State :=
  if s.lnk.mode == 0 || !(s.getInst fn).cfg.msixEnable then s
  else if s.vecMasked fn vec then s.setPending fn vec true
  else { s with irqs := s.irqs ++ [(fn, vec)] }

/-- Pending vectors that are masked no more are sent. -/
def State.sendPending (s : State) (fn : Nat) : State :=
  (List.range (if fn == 0 then 32 else 2)).foldl (fun t v =>
    if t.vecPending fn v && t.lnk.mode != 0 && (t.getInst fn).cfg.msixEnable && !t.vecMasked fn v then
      (t.setPending fn v false).raise fn v
    else t) s

def State.hours (s : State) : Nat := s.opTime / 3600000
def State.seconds (s : State) : Nat := s.opTime / 1000

/-- CD00 edges in a number of milliseconds: 32,768 a second. -/
def edges (ms : Nat) : Nat := ms * 4096 / 125

/-- Operating time goes on to a value; with it the island's edges and the time with a cluster parked (R10, R444, R481). -/
def State.advance (s : State) (till : Nat) : State :=
  if till ≤ s.opTime then s
  else
    let ms := if s.pwr.parked == 0 then 0 else s.pwr.parkMs + (till - s.opTime)
    { s with
      opTime := till
      isl := { s.isl with tick := s.isl.tick + BitVec.ofNat 32 (edges till - edges s.opTime) }
      pwr := { s.pwr with parkMs := ms % 1000, parkSeconds := satAdd 16 s.pwr.parkSeconds (ms / 1000) } }

/-! Event recorder (R445 to R454) -/

/-- SOURCE (R446). -/
def src (kind n : Nat) : Nat := kind * 4096 + n

/-- CODE, ARG1 and ARG2 (R447). -/
def pay (code arg1 arg2 : Nat) : Bytes := leBytes 4 code ++ leBytes 4 arg1 ++ leBytes 8 arg2

/-- A record as bytes (Table 19.1). -/
def EvRecord.bytes (r : EvRecord) : Bytes :=
  leBytes 2 (24 + r.payload.length) ++ leBytes 2 r.type ++ leBytes 4 r.seq.toNat ++ leBytes 4 r.cycle
    ++ leBytes 4 (r.time / 3600000) ++ leBytes 4 (r.time % 3600000) ++ leBytes 2 r.source ++ leBytes 1 r.severity
    ++ leBytes 1 r.flags ++ r.payload

/-- Critical for R452 (R447). -/
def EvRecord.critical (r : EvRecord) : Bool :=
  (r.type / 256 == 4 && r.severity == 4) || r.type / 256 == 5 || r.type == 2

/-- The records of a batch in bytes. -/
def recordBytes (l : List EvRecord) : Bytes := (l.map EvRecord.bytes).flatten

/-- The 16-byte header of a batch (R449). -/
def batchHeader (num : Nat) (l : List EvRecord) : Bytes :=
  leBytes 4 num ++ leBytes 2 l.length ++ leBytes 2 (bit (l.length < 64)) ++ leBytes 4 (recordBytes l).length ++ zeros 4

/-- A batch sealed and opened under the recorder key: IV its number, additional data the link before it (R449). -/
def sealBatch (key : Bytes) (num : Nat) (prev text : Bytes) : Bytes :=
  let x := gcmSeal key (leBytes 12 num) prev text
  x.1 ++ x.2

def Batch.open_ (b : Batch) (key : Bytes) : Option Bytes :=
  let n := b.image.length - 16
  gcmOpen key (leBytes 12 b.num) b.prev (b.image.take n) (b.image.drop n)

/-- The batches beyond the blocks that hold them: blocks of 4 MiB filled in order (R450); the count of batches in the
oldest block and the number of blocks. -/
def blocksOf : List Batch → Nat → Nat → Nat → Nat → Nat × Nat
  | [], first, blocks, _, _ => (first, blocks)
  | b :: r, first, blocks, used, n =>
    if used + b.image.length > 4194304 then blocksOf r (if blocks == 1 then n else first) (blocks + 1) b.image.length (n + 1)
    else blocksOf r (if blocks == 1 then n + 1 else first) blocks (used + b.image.length) (n + 1)

/-- EVR_WEAR: the erasures spread in rotation over the 64 blocks of the pool (R450). -/
def Evr.wearMax (e : Evr) : Nat := min (ceilDiv e.erasures 64) 65535
def Evr.wearAvg (e : Evr) : Nat := min (e.erasures / 64) 65535

/-- A sealed batch stored: when the batches need more than 16 blocks the oldest is erased (R450). -/
def Evr.store (e : Evr) (b : Batch) : Evr :=
  let l := e.batches ++ [b]
  let fb := blocksOf l 0 1 0 0
  { e with batches := if fb.2 > 16 then l.drop fb.1 else l
           erasures := e.erasures + (if fb.2 > 16 then 1 else 0)
           hourNow := e.hourNow + b.image.length }

/-- l[0] of R449. -/
def State.linkZero (s : State) : Bytes := sha384 (ascii "VW.EVR0" ++ s.identDigest)

/-- Why no recorder runs (R454). Records still held are lost with it. -/
def State.recorderStop (s : State) : State :=
  let c := if s.lc == 5 || s.lcs.lostCause == 4 then 1 else if s.evr.wearAvg ≥ 3000 then 2 else 0
  if c == 0 then s
  else { s with evr := { s.evr with state := 3, stopCause := c, hold := [], lostNow := [], lost := satAdd 32 s.evr.lost s.evr.hold.length } }

/-- The recorder holds the copies of the island journal: none of them is in the open batch any more (R426). -/
def State.copiesHeld (s : State) : Bool := !s.evr.copied.isEmpty && s.evr.openBatch.all (fun r => r.type != 0x0403)

/-- The journal records that the recorder holds leave the journal, and OVERFLOW is 0 (R426). -/
def State.clearCopied (s : State) : State :=
  if !s.copiesHeld then s
  else { s with isl := { s.isl with journal := s.isl.journal.filter (fun r => !s.evr.copied.contains r.seq), journalOver := 0 }
                evr := { s.evr with copied := [] } }

/-- The open batch sealed and stored under its number (R449). -/
def State.storeBatch (s : State) : State :=
  let e := s.evr
  let n := e.last + 1
  let text := batchHeader n e.openBatch ++ recordBytes e.openBatch
  let prev := if e.link.isEmpty then s.linkZero else e.link
  let link := sha384 (prev ++ text)
  let b : Batch := { num := n, short := e.openBatch.length < 64, count := e.openBatch.length, seqNext := ((e.openBatch.getLast?).map (fun r => r.seq + 1)).getD 0
                     prev := prev, link := link, image := sealBatch s.recorderKey n prev text }
  { s with evr := { e.store b with
                    openBatch := [], last := n, link := link } }

/-- Close the open batch (R448). Without the recorder key it stays open (R453); a pool at its rating ends recording
(R454). -/
def State.closeBatch (s : State) : State :=
  if s.evr.openBatch.isEmpty || !s.ident.present then s else s.storeBatch.recorderStop

/-- Append a record to the open batch; the 64th closes it (R448). A recorder that a drain has worn out takes no more (R454). -/
def State.appendRecord (s : State) (r : EvRecord) : State :=
  if s.evr.state == 3 then { s with evr := { s.evr with lost := satAdd 32 s.evr.lost 1 } } else
  let t := { s with evr := { s.evr with openBatch := s.evr.openBatch ++ [r] } }
  if t.evr.openBatch.length ≥ 64 then t.closeBatch else t

/-- The records lost in the present freeze or unavailability, with one more (R452). -/
def Evr.lose (e : Evr) (discarded displaced seq : Nat) : List Nat :=
  [e.lostNow.getD 0 0 + discarded, e.lostNow.getD 1 0 + displaced,
   if e.lostNow.isEmpty then seq else e.lostNow.getD 2 0]

/-- The holding queue at 128 records: the place of the newest record of lower severity than r. -/
def displaceAt (q : List EvRecord) (r : EvRecord) : Option Nat :=
  ((List.range q.length).reverse).find? (fun i => (q.getD i EvRecord.reset).severity < r.severity)

/-- Take a record into the holding queue (R452). -/
def State.holdRecord (s : State) (r : EvRecord) : State :=
  let e := s.evr
  if e.hold.length < 128 then { s with evr := { e with hold := e.hold ++ [r], gap := false } }
  else
    let t := if e.lostNow.isEmpty then s.raise 0 3 else s
    match if r.critical then displaceAt e.hold r else none with
    | some i =>
      let q := (e.hold.take i) ++ (match e.hold.drop (i + 1) with
        | [] => [{ r with flags := r.flags ||| 4 }]
        | x :: rest => { x with flags := x.flags ||| 4 } :: rest ++ [r])
      { t with evr := { e with hold := q, gap := false, displaced := satAdd 16 e.displaced 1,
                               lostNow := e.lose 0 1 (e.hold.getD i EvRecord.reset).seq.toNat } }
    | none =>
      { t with evr := { e with gap := true, discarded := satAdd 16 e.discarded 1,
                               lostNow := e.lose 1 0 r.seq.toNat } }

/-- Create a record (R445 to R454): written to the open batch while recording, held while frozen or unavailable, counted
as lost once recording has stopped for good. Mark is its bit ISLAND (R445). -/
def State.recordWith (s : State) (type source severity : Nat) (payload : Bytes) (mark : Nat) : State :=
  let e := s.evr
  if e.state == 3 then { s with evr := { e with lost := satAdd 32 e.lost 1 } }
  else
    let r : EvRecord :=
      { type := type, seq := e.nextSeq, cycle := s.prf.cycles, time := s.opTime, source := source,
        severity := severity, flags := mark + 4 * bit e.gap + 8 * bit e.timeAdj, payload := payload }
    let t := { s with evr := { e with nextSeq := e.nextSeq + 1, timeAdj := false } }
    if e.state == 1 then ({ t with evr := { t.evr with gap := false } }).appendRecord r
    else t.holdRecord r

def State.record (s : State) (type source severity : Nat) (payload : Bytes) : State :=
  s.recordWith type source severity payload 0

/-- One record for each capture set since recording stopped (R440). -/
def State.captureRecord (s : State) (u : Nat) : State :=
  let a := s.getAcu u
  if a.capFresh then
    (s.record 0x0604 (src 4 u) 2
      (leBytes 6 a.capAddr.toNat ++ leBytes 1 a.capKind ++ leBytes 1 a.capLevel ++ leBytes 1 u
        ++ leBytes 1 a.capRegion ++ leBytes 2 a.capLen ++ leBytes 6 a.capStart.toNat ++ leBytes 4 a.capCount
        ++ zeros 2)).modAcu u (fun a => { a with capFresh := false })
  else s

/-- Recording resumes: a batch left open is sealed first (R453), then the holding queue in SEQ order with HELD set, the
record of what was lost, the captures (R452, R440). A pool worn by the sealing takes nothing more. -/
def State.resumeRecording (s : State) : State :=
  let s := s.closeBatch
  if s.evr.state == 3 then s
  else
  let held := s.evr.hold.map (fun r => { r with flags := r.flags ||| 2 })
  let lost := s.evr.lostNow
  let s1 := { s with evr := { s.evr with state := 1, stopCause := 0, hold := [], lostNow := [], freezeEnd := none } }
  let s2 := held.foldl State.appendRecord s1
  let s3 := if lost.isEmpty then s2
            else s2.record 2 0 2 (pay (lost.getD 0 0) (lost.getD 1 0) (lost.getD 2 0))
  (List.range 21).foldl State.captureRecord s3

/-- End a freeze with its cause (R451); nothing with no freeze in force. Recording resumes, and the end is recorded after what was
held. A freeze met while the recorder is unavailable ends without recording being resumed. -/
def State.endFreeze (s : State) (cause : Nat) : State :=
  if s.evr.freezeEnd.isNone then s
  else
    let t := if s.evr.state == 2 then s.resumeRecording else { s with evr := { s.evr with freezeEnd := none } }
    t.record 3 0 0 (pay cause s.evr.hold.length 0)

/-! Violations (R46, R48) -/

/-- Kinds of violation: CODE of record type 0x0101. -/
def violLink : Nat := 1
def violReg : Nat := 2
def violDma : Nat := 3
def violRing : Nat := 4
def violAmp : Nat := 5

/-- Count one violation of a kind; the counters saturate at 0xFFFF. -/
def InstRec.countViol (i : InstRec) (kind : Nat) : InstRec :=
  match kind with
  | 1 => { i with violLink := satAdd 16 i.violLink 1 }
  | 2 => { i with violReg := satAdd 16 i.violReg 1 }
  | 3 => { i with violDma := satAdd 16 i.violDma 1 }
  | 4 => { i with violRing := satAdd 16 i.violRing 1 }
  | _ => { i with violAmp := satAdd 16 i.violAmp 1 }

/-- A violation of an instance: counted, and the first of its kind in each second recorded with address, kind and
instance (R48). -/
def State.violation (s : State) (n kind addr : Nat) : State :=
  let i := s.getInst n
  let seen := i.violSec.any (fun p => p.1 == kind && p.2 == s.seconds)
  let t := s.modInst n (fun i => { i.countViol kind with violSec := assign i.violSec kind s.seconds })
  if seen then t
  else t.record 0x0101 (src 1 n) 2 (pay kind (addr % 2 ^ 32) (addr / 2 ^ 32))

/-- Clear the counters of an instance (R56). -/
def InstRec.clearViol (i : InstRec) : InstRec :=
  { i with violReg := 0, violLink := 0, violDma := 0, violRing := 0, violAmp := 0 }

/-! Errors of the link (R46) -/

/-- Bits of the AER uncorrectable error status (PRESUMED, log 9: PCIe's). -/
def aerPoisoned : Nat := 12
def aerUnexpected : Nat := 16
def aerMalformed : Nat := 18
def aerUnsupported : Nat := 20
def aerIde : Nat := 28

/-- An uncorrectable error logged in a function's AER and Device Status. -/
def FnCfg.logError (c : FnCfg) (k : Nat) : FnCfg :=
  let b := (1 : BitVec 32) <<< k
  { c with
    aerUnc := c.aerUnc ||| b
    aerCtl := if c.aerUnc == 0 then BitVec.ofNat 32 (c.aerCtl.toNat / 32 * 32 + k) else c.aerCtl
    devStat := c.devStat ||| (if k == aerUnsupported then 8 else 0) ||| (if c.aerUncSev.getLsbD k then 4 else 2) }

def State.aer (s : State) (n k : Nat) : State := s.modInst n (fun i => { i with cfg := i.cfg.logError k })

/-- An Unsupported Request completion (R46): nothing is returned, the error is logged in the AER of the function, or of instance
0 where the function does not exist, and a link-level violation counts. -/
def State.unsupported (s : State) (n addr : Nat) : State :=
  let s := s.aer (if (s.getInst n).exists_ then n else 0) aerUnsupported
  { s.violation n violLink addr with reply := none }

/-! Writes of PRF words (R12, R384) -/

/-- Count one write of a PRF word; at 80 % of the rating it is recorded and vector 4 raised. -/
def State.prfCount (s : State) (w : Nat) : State :=
  let n := lookup0 s.prf.counts w + 1
  let t := { s with prf := { s.prf with counts := assign s.prf.counts w n } }
  if n == 80000000 then (t.record 0x0302 0 2 (pay w n 0)).raise 0 4 else t

/-- Write PRF words: false when one of them has reached its rating, and then nothing is written. -/
def State.prfWrite (s : State) (words : List Nat) : Bool × State :=
  match words.find? (fun w => lookup0 s.prf.counts w ≥ 100000000) with
  | some w => (false, s.record 0x0302 0 2 (pay w (lookup0 s.prf.counts w) 0))
  | none => (true, words.foldl State.prfCount s)

/-- The refusal of an act whose PRF write is refused (R384). -/
def prfRefusal : Final := Final.refuse Status.policyRefused 0xFFFFFFFF

/-- The words of Table 15.7. -/
def prfKum (d : Nat) : List Nat := [d]
def prfCkpt (slot : Nat) : List Nat := (List.range 8).map (1024 + 8 * slot + ·)
def prfRoster : List Nat := (List.range 128).map (1280 + ·)
def prfPolicy : List Nat := (List.range 8).map (1408 + ·)
def prfAuth : List Nat := (List.range 8).map (1416 + ·)
def prfBinding (n : Nat) : List Nat := [1424 + n / 4]
def prfBank : List Nat := [1488]
def prfFloor : List Nat := [1489, 1490, 1491]
def prfFwFloor : List Nat := [1492, 1493, 1494]
def prfEnrol : List Nat := [1495]
def prfUser (i : Nat) : List Nat := [1504 + i / 2]
def prfReopen : List Nat := [1512]
def prfTransport : List Nat := (List.range 16).map (1513 + ·)
def prfCycles : List Nat := [1536]
def prfTime : List Nat := [1537]

/-! Writes to host memory, with dirty-page marks (R42, R52) -/

def HostWrite.inst : HostWrite → Nat
  | .data n _ _ _ => n
  | .cell n _ _ => n
  | .line n _ _ _ _ _ _ => n
  | .mark n _ _ => n

/-- First byte and length of a write. -/
def HostWrite.span : HostWrite → Nat × Nat
  | .data _ a b _ => (a.toNat, b.length)
  | .cell _ a _ => (a.toNat, 64)
  | .line _ a _ _ _ _ _ => (a.toNat, 64)
  | .mark _ a _ => (a.toNat, 64)

/-- What the bit of a page reads in a bitmap of host memory: 1 where the module has set it since logging began or the bitmap became
active; otherwise a free value, for the host may have left or cleared it (R52, R55; log 54). -/
def State.bitmapBit (s : State) (n key : Nat) : Bool := (s.getInst n).dirty.marked.contains key || Config.bitmapBit s.draw key

/-- Mark one page in the active bitmap, or set OVERFLOW outside the range. INS_DIRTY_COUNT rises when the bit was 0 (R55). -/
def State.markPage (s : State) (n page : Nat) : State :=
  let d := (s.getInst n).dirty
  let base := d.base.toNat / 4096
  if page < base || page ≥ base + d.pages.toNat then
    s.modInst n (fun i => { i with dirty := { i.dirty with overflow := true } })
  else
    let p := page - base
    let map := if d.active then d.mapB else d.mapA
    let key := map.toNat * 8 + p
    let s1 := { s with out := s.out ++ [.mark n map p] }
    if d.marked.contains key then s1
    else { s1 with draw := s.draw + 1 }.modInst n (fun i => { i with dirty := { i.dirty with
      count := satAdd 32 i.dirty.count (bit (!s.bitmapBit n key)), marked := i.dirty.marked ++ [key] } })

/-- Issue a write with its instance's requester ID. -/
def State.hostWrite (s : State) (w : HostWrite) : State :=
  let t := { s with out := s.out ++ [w] }
  let n := w.inst
  if n != 0 && (s.getInst n).dirty.en && w.span.2 != 0 then
    let first := w.span.1 / 4096
    let last := (w.span.1 + w.span.2 - 1) / 4096
    (List.range (last + 1 - first)).foldl (fun t i => t.markPage n (first + i)) t
  else t

/-- STATE of the ring-state line (Table 3.2). -/
def Rings.lineState (r : Rings) : Nat := if r.ringFault then 3 else if r.en then 1 else if r.ringOn then 2 else 0

/-- Write the ring-state line (R60). -/
def State.writeLine (s : State) (n : Nat) : State :=
  let r := (s.getInst n).rings
  s.hostWrite (.line n (r.cqBase + BitVec.ofNat 64 (2 ^ r.cqLog2.toNat * 64)) r.head r.cqTail r.lineState r.fetched
    r.completed)

/-! Engines and clusters (R13, R109, R113, R117) -/

/-- Kind of an engine: 0 cipher, 1 digest, 2 public-key. -/
def engKind (e : Nat) : Nat := if e % 12 < 6 then 0 else if e % 12 < 10 then 1 else 2
def engCluster (e : Nat) : Nat := e / 12

/-- Engines of a kind in one cluster. -/
def kindCount (k : Nat) : Nat := if k == 0 then 6 else if k == 1 then 4 else 2

def State.cluEnabled (s : State) (c : Nat) : Bool := s.glb.enabled.getLsbD c
def State.cluFenced (s : State) (c : Nat) : Bool := s.glb.fenced.getLsbD c
/-- Enabled and not fenced. -/
def State.cluUsable (s : State) (c : Nat) : Bool := s.cluEnabled c && !s.cluFenced c
/-- Parked, or not yet eligible after an unpark decision (R466). -/
def State.cluParked (s : State) (c : Nat) : Bool := s.pwr.parked.getLsbD c || s.pwr.unparking.getLsbD c

/-- Clusters enabled and not fenced (GLB_CAP.CLUSTERS). -/
def State.usableClusters (s : State) : List Nat := (List.range 16).filter s.cluUsable

/-- Bit c of a 16-bit map set or cleared. -/
def setBit16 (v : BitVec 16) (c : Nat) (b : Bool) : BitVec 16 :=
  if b then v ||| (1 <<< c) else v &&& ~~~((1 : BitVec 16) <<< c)

/-! Messages and flows -/

def State.findMsg (s : State) (id : Nat) : Option MsgRec := s.sch.msgs.find? (fun r => r.id == id)

def State.modMsg (s : State) (id : Nat) (f : MsgRec → MsgRec) : State :=
  { s with sch := { s.sch with msgs := s.sch.msgs.map (fun r => if r.id == id then f r else r) } }

/-! Work of the internal world (R110, R198) -/

/-- An engine runs the work of a number. -/
def State.onEngine (s : State) (id : Nat) : Bool := s.eng.toList.any (fun e => e.work == some id)

def State.findInternal (s : State) (id : Nat) : Option IntOp := s.sch.internal.find? (fun x => x.id == id)

/-- An owner's internal-world work is under way, or has ended and waits to be used. -/
def State.serving (s : State) (o : IntOwner) : Bool := s.sch.internal.any (fun x => x.owner == o && !x.ended)
def State.served (s : State) (o : IntOwner) : Bool := s.sch.served.contains o

/-- An operation of an owner that takes so many cycles has ended, and its result is not used yet. -/
def State.opEnded (s : State) (o : IntOwner) (cycles : Nat) : Bool :=
  s.sch.internal.any (fun x => x.owner == o && x.ended && x.work.cycles == cycles)

/-- An owner's finished work is used, or its work is wanted no more; its engines have been stopped. -/
def State.useServed (s : State) (o : IntOwner) : State :=
  { s with sch := { s.sch with
    served := s.sch.served.filter (· != o)
    internal := s.sch.internal.filter (fun x => x.owner != o || s.onEngine x.id) } }

def State.dropMsg (s : State) (id : Nat) : State :=
  let s := s.useServed (.message id)
  { s with sch := { s.sch with msgs := s.sch.msgs.filter (fun r => r.id != id) } }

def MsgRec.inst (r : MsgRec) : Nat := r.m.inst.val

/-- A tamper response of class PAUSE or higher holds (R418). -/
def State.paused (s : State) : Bool := s.tmp.state == 1 || s.tmp.state == 2 || s.tmp.state == 3

/-- Opcodes that answer during a response. -/
def pausedOps : List Op := [.nop, .cancel, .recorderRead, .recorderFreeze, .healthRead]

/-- Held by a tamper response of class PAUSE: admitted and not started (R121, R418). A transition past its step 1 is not (R395). -/
def State.holdsBack (s : State) (r : MsgRec) : Bool := s.paused && !pausedOps.contains r.op && !(r.op == .lcTransition && s.lcs.busy)

/-- An engine whose work is stopped loses its work and every register, and a public-key engine its operand memory (Tables 5.2 and
8.3). -/
def Engine.clear (_ : Engine) : Engine := Engine.reset

/-- The engines that run work of these numbers are cleared. -/
def State.clearEngines (s : State) (ids : List Nat) : State :=
  { s with eng := s.eng.map (fun e => if (e.work.map ids.contains).getD false then e.clear else e) }

/-- The numbers of an owner's internal-world operations. -/
def State.opsOf (s : State) (o : IntOwner) : List Nat := (s.sch.internal.filter (fun x => x.owner == o)).map (·.id)

/-- The internal-world operations of an owner are stopped, with all that they drew (Table 8.3, R198). -/
def State.stopOwner (s : State) (o : IntOwner) : State := (s.clearEngines (s.opsOf o)).useServed o

/-- A message runs an internal-world operation, or has had one run (R121, R198). -/
def State.runsInternal (s : State) (r : MsgRec) : Bool :=
  s.sch.internal.any (fun x => x.owner == .message r.id && (x.ended || s.onEngine x.id || !x.random.isEmpty))

/-- Admitted: past step 9 (R114). -/
def MsgRec.admitted (r : MsgRec) : Bool :=
  match r.phase with
  | .wait => false
  | .building => false
  | _ => true

/-- Its chunk is being programmed into flash (R381). -/
def MsgRec.flashing (r : MsgRec) : Bool := match r.phase with | .flash _ => true | _ => false

/-- Running: from the start of its first lap or operation to its completion (R121). -/
def MsgRec.isRunning (r : MsgRec) : Bool :=
  match r.phase with
  | .running => true
  | .between => true
  | .replay => true
  | .vaultRead _ => r.back != .ready
  | _ => false

def State.admittedOf (s : State) (n : Nat) : Nat := (s.sch.msgs.filter (fun r => r.inst == n && r.admitted)).length
def State.admittedAll (s : State) : Nat := (s.sch.msgs.filter MsgRec.admitted).length

def State.findFlow (s : State) (n id : Nat) : Option Flow := s.sch.flows.find? (fun f => f.inst == n && f.id == id)

def State.modFlow (s : State) (n id : Nat) (g : Flow → Flow) : State :=
  { s with sch := { s.sch with flows := s.sch.flows.map (fun f => if f.inst == n && f.id == id then g f else f) } }

def State.flowsOf (s : State) (n : Nat) : Nat := (s.sch.flows.filter (fun f => f.inst == n)).length

/-! Domains and objects -/

def handleDomain (h : Nat) : Nat := h / 2 ^ 30
def handleNumber (h : Nat) : Nat := h % 2 ^ 30
def mkHandle (d num : Nat) : Nat := d * 2 ^ 30 + num

/-- The handle value that names no object (R67). -/
def noHandle : Nat := 0xFFFFFFFFFF

def State.findObj (s : State) (h : Nat) : Option Obj := s.vlt.objs.find? (fun o => o.handle == h)

/-- The record of a domain: domain 0 always, others while they exist. -/
def State.domRec (s : State) (d : Nat) : Option DomRec :=
  if d == 0 then some s.dom.rec0 else (s.dom.recs.find? (fun p => p.1 == d)).map (·.2)

def State.setDomRec (s : State) (d : Nat) (r : DomRec) : State :=
  if d == 0 then { s with dom := { s.dom with rec0 := r } }
  else { s with dom := { s.dom with recs := assign s.dom.recs d r } }

/-- PROHIBIT of a domain: the PRF word for domain 0 (R301). -/
def State.prohibit (s : State) (d : Nat) : BitVec 32 :=
  if d == 0 then s.prf.policy0 else ((s.domRec d).map (·.prohibit)).getD 0

/-- Roster of a domain: in the PRF for domain 0 (R306). -/
def State.roster (s : State) (d : Nat) : List RosterEntry :=
  if d == 0 then s.prf.roster0 else ((s.domRec d).map (·.roster)).getD []

/-- The instance's bound domain. -/
def State.domainOf (s : State) (n : Nat) : Option Nat := if n == 0 then some 0 else (s.getInst n).domain

/-- Flows open in a domain (R116). -/
def State.domainFlows (s : State) (d : Nat) : Nat :=
  (s.sch.flows.filter (fun f => s.domainOf f.inst == some d)).length

/-! Free values -/

/-- The next free value of QUEUE_WAIT (R71, log 1). -/
def State.drawWait (s : State) : Nat × State := ((Config.freeQueueWait s.draw).toNat, { s with draw := s.draw + 1 })

/-! Custody random bytes -/

/-- Random bytes of a generator, without regard to its queue: the generate function of R219 on its state. -/
def State.genBytes (s : State) (g n : Nat) : Bytes × State :=
  let gen := s.rng.getGen g
  let r := drbgGenerate (gen.key, gen.v) n
  (r.1, s.modGen g (fun x => { x with key := r.2.1, v := r.2.2, calls := x.calls + 1 }))

end Sys2Proof.Machine
end

