-- ==== Sys2Proof/Machine/Operands.lean ====
section
/-! DEFINITION. The operand forms of messages: the fields of the submission cell (R64 to R68), what each opcode is
(its engine kind, whether flows and streams carry it), scatter lists (R69, R82), and where output goes (R73). -/

namespace Sys2Proof

open Sys2Proof.Machine

/-! Fields of the cell -/

/-- SEG of FLAGS (R65): 0 single, 1 first, 2 middle, 3 last. -/
def Msg.seg (m : Msg) : Nat := m.cell.flags.toNat / 4 % 4
def Msg.fence (m : Msg) : Bool := m.cell.flags.getLsbD 4
def Msg.inlineIn (m : Msg) : Bool := m.cell.flags.getLsbD 1
def Msg.notify (m : Msg) : Bool := m.cell.flags.getLsbD 0
def Msg.inLen (m : Msg) : Nat := m.cell.inLen.toNat
def Msg.outCap (m : Msg) : Nat := m.cell.outCap.toNat
def Msg.flowId (m : Msg) : Nat := m.cell.flowId.toNat
def Msg.keyA (m : Msg) : Nat := m.cell.keyA.toNat
def Msg.keyB (m : Msg) : Nat := m.cell.keyB.toNat
def Msg.instN (m : Msg) : Nat := m.inst.val

/-- AREA bytes off to off + n - 1, by their offset in the cell (40 to 63). -/
def Msg.area (m : Msg) (off n : Nat) : Bytes := slice m.cell.area (off - 40) n

/-- The P block a message carries (R140). -/
def Msg.pBlock (m : Msg) : Bytes := if m.seg == 1 then m.area 48 16 else m.area 40 16

/-- A little-endian AREA field by its offset in the cell. -/
def Msg.field (m : Msg) (off n : Nat) : Nat := leAt m.cell.area (off - 40) n

/-- Continuation cells the header names (R66). -/
def Msg.cells (m : Msg) : Nat := if m.inlineIn then ceilDiv m.inLen 64 else 0

/-- The offset of the first AREA byte from off to off + n - 1 that is not 0, as a refusal (R68). -/
def Msg.mustZero (m : Msg) (off n : Nat) : Option Final :=
  (firstNonZero m.cell.area (off - 40) n).map (fun i => Final.refuse Status.reservedNonzero (i + 40))

/-- A refusal when a condition holds. -/
def Machine.failIf (c : Bool) (st : BitVec 16) (detail : Nat) : Option Final :=
  if c then some (Final.refuse st detail) else none

/-! Entries of the scatter list (R69) -/

def SgEntry.isOut (e : SgEntry) : Bool := e.ctl.getLsbD 0
def Msg.ins (m : Msg) : List SgEntry := m.sgl.filter (fun e => !e.isOut)
def Msg.outs (m : Msg) : List SgEntry := m.sgl.filter SgEntry.isOut

/-! What an opcode is -/

def Op.family (o : Op) : Nat := o.code.toNat / 256

/-- Opcodes of Table 5.5 and 7.3 that carry streams (R138, R176). -/
def Op.streamable (o : Op) : Bool :=
  match o with
  | .xtsEncrypt | .xtsDecrypt | .dataWrap | .dataUnwrap | .digestResult => false
  | _ => o.family == 2 || o.family == 3

/-- Opcodes that FLOW_OPEN accepts (R138, R176, R202, Table 13.1). -/
def Op.flowCapable (o : Op) : Bool :=
  match o with
  | .digestResult => false
  | .pinTranslate | .pinVerify | .pinReference | .dukptMac | .dukptCrypt => true
  | _ => o.family == 2 || o.family == 3 || o.family == 4

/-- The engine kind that runs a data message: 0 cipher, 1 digest, 2 public-key (R13, Table 6.5). -/
def Op.kind (o : Op) : Option Nat :=
  match o with
  | .digestResult => none
  | .ledgerPost => some 1
  | _ =>
    if o.family == 2 || o.family == 7 then some 0
    else if o.family == 3 then some 1
    else if o.family == 4 then some 2
    else none

/-- Data messages: those that run on a flow or a template (R104). -/
def Op.isData (o : Op) : Bool := o.flowCapable || o.family == 7

/-- Administration messages (R93). -/
def Op.isAdmin (o : Op) : Bool := o.family == 0x0A

/-- Messages that the data path runs by hardware, through a control-pair restart too (R21, R89, R102, R182). -/
def Op.isHub (o : Op) : Bool :=
  match o with
  | .nop | .flowClose | .cancel | .digestResult | .ledgerPost => true
  | _ => false

/-- Messages that need the control path (R23): all but data messages, hub messages and random requests. -/
def Op.needsControl (o : Op) : Bool := !(o.isData || o.isHub || o.family == 5)

/-- Key handles the opcode takes: neither, KEY_A, or both; true where a handle is needed. KEY_A of a public-key
opcode that may be none is settled with its parameters (R202). -/
def Op.takesA (o : Op) : Bool :=
  match o with
  | .digestResult => false
  | .hmacGenerate | .hmacVerify => true
  | .objectInfo | .objectDelete | .objectRestrict | .publicKeyGet => true
  | _ => o.family == 2 || o.family == 4 || o.family == 7

def Op.takesB (o : Op) : Bool :=
  match o with
  | .xtsEncrypt | .xtsDecrypt => true
  | _ => false

end Sys2Proof

namespace Sys2Proof.Machine

/-! Steps 1 and 2 (R78) -/

/-- The number of an opcode is defined (R90): some row of the table other than the carrier of unknown opcodes has it. -/
def opcodeOf (code : BitVec 16) : Option Op := Op.all.find? (fun o => o.code == code)

/-- Streamable, by the opcode field of a header; an unknown opcode is not (R65). -/
def codeStreamable (code : BitVec 16) : Bool := ((opcodeOf code).map Op.streamable).getD false

/-- Steps 1 and 2 of Table 3.9. -/
def checkHeader (m : Msg) : Option Final :=
  failIf (m.cell.version != 1) Status.versionUnsupported 0
  <|> failIf (m.cell.flags.toNat / 32 != 0) Status.reservedNonzero 1
  <|> failIf (m.cell.rsvd.toNat % 256 != 0) Status.reservedNonzero 38
  <|> failIf (m.cell.rsvd.toNat / 256 != 0) Status.reservedNonzero 39
  <|> failIf (m.seg != 0 && m.flowId == 0) Status.flagsInvalid 0
  <|> failIf (m.inlineIn && m.inLen == 0) Status.flagsInvalid 0
  <|> failIf (m.seg != 0 && !codeStreamable m.cell.opcode) Status.flagsInvalid 0
  <|> failIf (m.inlineIn && m.inLen > 256) Status.inlineTooLong 0

/-! Scatter lists (R64, R69, R73, R82) -/

def sgTotal (l : List SgEntry) : Nat := (l.map (fun e => e.len.toNat)).foldl (· + ·) 0

/-- The first entry with LEN 0 or a reserved bit set. -/
def badEntry (l : List SgEntry) : Option Nat :=
  (List.range l.length).find? (fun i =>
    ((l[i]?).map (fun e => e.len == 0 || e.ctl.toNat > 1)).getD false)

/-- The parts of step 6 that read the message alone: the header fields, the read of the list, its entries, INLINE_IN
against input entries, and the lengths. -/
def checkLists (m : Msg) : Option Final :=
  failIf (m.cell.sglCount.toNat > 4096 || (m.cell.sglCount != 0 && m.cell.sglAddr.toNat % 16 != 0)
      || (m.cell.sglCount == 0 && m.cell.sglAddr != 0)) Status.sglInvalid 0xFFFFFFFF
  <|> ((badEntry m.sgl).map (fun i => Final.refuse Status.sglInvalid i))
  <|> (m.sglErr.map (fun i => Final.refuse Status.hostMemError i))
  <|> failIf (m.inlineIn && !m.ins.isEmpty) Status.flagsInvalid 0
  <|> (if m.inlineIn then none
       else
         failIf (sgTotal m.ins < m.inLen) Status.lengthShort (min (sgTotal m.ins) 0xFFFFFFFF)
         <|> failIf (sgTotal m.ins > m.inLen) Status.lengthLong (min (sgTotal m.ins) 0xFFFFFFFF))
  <|> failIf (!m.outs.isEmpty && sgTotal m.outs != m.outCap) Status.outputListMismatch 0
  <|> failIf (m.outs.isEmpty && m.outCap > 40) Status.outputListMismatch 0

/-! Output (R69, R73) -/

/-- Where n bytes of output that begin at an offset of the message's output land: output entries in list order. -/
def scatter : List SgEntry → Nat → Bytes → List (BitVec 64 × Bytes)
  | [], _, _ => []
  | e :: r, off, b =>
    if b.isEmpty then []
    else if off ≥ e.len.toNat then scatter r (off - e.len.toNat) b
    else
      let room := e.len.toNat - off
      (e.addr + BitVec.ofNat 64 off, b.take room) :: scatter r 0 (b.drop room)

/-- OUTPUT_SHORT when OUT_CAP is below the largest output (R83). -/
def checkCap (m : Msg) (largest : Nat) : Option Final :=
  failIf (m.outCap < largest) Status.outputShort largest

/-- A message with no input (R487). -/
def checkNoInput (m : Msg) : Option Final := failIf (m.inLen != 0) Status.lengthInvalid 0

/-- A handle field that must hold none (R67). -/
def needNone (h off : Nat) : Option Final := failIf (h != noHandle) Status.paramRange off

/-- A handle field that must hold a handle (R97). -/
def needKey (h off : Nat) : Option Final := failIf (h == noHandle) Status.paramRange off

/-- A handle of another domain (R67). -/
def checkDomain (d : Option Nat) (h : Nat) : Option Final :=
  failIf (h != noHandle && some (handleDomain h) != d) Status.domainMismatch 0

end Sys2Proof.Machine
end

