-- ==== Sys2Proof/Machine/Text.lean ====
section
/-! DEFINITION. Text: hexadecimal and decimal characters, the repertoire and code pages of record mode (R357), and its
reply records (R359 to R363). -/

namespace Sys2Proof.Machine

/-! Nibbles and characters -/

def nibbles (b : Bytes) : List Nat := b.flatMap (fun x => [x.toNat / 16, x.toNat % 16])
def packNibbles : List Nat → Bytes
  | a :: b :: r => BitVec.ofNat 8 (16 * a + b) :: packNibbles r
  | _ => []

def hexDigit (n : Nat) : Byte := BitVec.ofNat 8 (if n < 10 then 48 + n else 55 + n)
def hexOf (b : Bytes) : Bytes := (nibbles b).map hexDigit
def hexVal (c : Byte) : Option Nat :=
  let n := c.toNat
  if 48 ≤ n && n ≤ 57 then some (n - 48) else if 65 ≤ n && n ≤ 70 then some (n - 55) else none
def unhex (b : Bytes) : Bytes := packNibbles (b.map (fun c => (hexVal c).getD 0))
def isDigit (c : Byte) : Bool := 48 ≤ c.toNat && c.toNat ≤ 57
def isAlnum (c : Byte) : Bool := isDigit c || (65 ≤ c.toNat && c.toNat ≤ 90)
/-- An ASCII letter, of either case, or a digit. -/
def isLetterDigit (c : Byte) : Bool := isAlnum c || (97 ≤ c.toNat && c.toNat ≤ 122)
def isPrint (c : Byte) : Bool := 32 ≤ c.toNat && c.toNat ≤ 126
def decVal (b : Bytes) : Nat := b.foldl (fun a c => 10 * a + (c.toNat - 48)) 0
/-- n decimal digits. -/
def decOf (n v : Nat) : Bytes := (List.range n).map (fun i => BitVec.ofNat 8 (48 + v / 10 ^ (n - 1 - i) % 10))

/-! Characters (R357) -/

/-- The repertoire: ASCII and code page 037. -/
def repertoire : List (Nat × Nat) :=
  (List.range 10).map (fun i => (0x30 + i, 0xF0 + i)) ++ (List.range 9).map (fun i => (0x41 + i, 0xC1 + i))
  ++ (List.range 9).map (fun i => (0x4A + i, 0xD1 + i)) ++ (List.range 8).map (fun i => (0x53 + i, 0xE2 + i))
  ++ [(0x20, 0x40), (0x2E, 0x4B), (0x2D, 0x60), (0x2F, 0x61), (0x23, 0x7B), (0x40, 0x7C), (0x24, 0x5B)]

/-- A character to ASCII; none outside the repertoire. -/
def toAscii (page : Nat) (c : Byte) : Option Byte :=
  ((repertoire.find? (fun p => (if page == 1 then p.2 else p.1) == c.toNat)).map (fun p => BitVec.ofNat 8 p.1))

/-- An ASCII character of the repertoire in a code page. -/
def ofAscii (page : Nat) (c : Byte) : Byte :=
  if page == 1 then (((repertoire.find? (fun p => p.1 == c.toNat)).map (fun p => BitVec.ofNat 8 p.2)).getD 0x40) else c

/-- n spaces. -/
def spaces (n : Nat) : Bytes := List.replicate n 0x20

/-- A D field as a number. -/
def fieldD (rec_ : Bytes) (off n : Nat) : Nat := decVal (slice rec_ off n)
/-! Replies (R359 to R363) -/

/-- RETURN of a status; none for one that the completion carries. -/
def zrmReturn (st : BitVec 16) : Option Nat :=
  if st == Status.ok then some 0
  else if st == Status.verifyFailed then some 4
  else if st == Status.pinMismatch then some 8
  else if st == Status.keyNotFound then some 12
  else if [Status.instanceNotPermitted, Status.worldNotPermitted, Status.usageNotPermitted, Status.keyLifecycle,
      Status.keyValidity, Status.policyRefused].contains st then some 16
  else if st == Status.keyAlgorithm || st == Status.keyVersion then some 20
  else if [Status.paramRange, Status.lengthInvalid, Status.reservedNonzero].contains st then some 24
  else if st == Status.rngWarming || st == Status.rngFault then some 28
  else if st == Status.vaultIntegrity || st == Status.vaultNotMounted then some 32
  else none

/-- Reply DATA from the function's output. -/
def zrmData (code : Nat) (b out : Bytes) : Bytes :=
  match code with
  | 0 => slice b 28 100
  | 4010 => hexOf (slice out 40 3) ++ spaces 1 ++ hexOf [out.getD 9 0, out.getD 8 0] ++ spaces 1 ++ decOf 10 (leAt out 20 4)
  | _ => hexOf out

/-- The reply record. -/
def zrmReply (page : Nat) (b : Bytes) (st : BitVec 16) (ret : Nat) (out : Bytes) : Bytes :=
  let data := if st == Status.ok then zrmData (fieldD b 0 4) b out else []
  let l := b.take 12 ++ decOf 4 ret ++ hexOf (beBytes 2 st.toNat) ++ data
  (l.take 128 ++ spaces (128 - l.length)).map (ofAscii page)

end Sys2Proof.Machine
end

