-- ==== Sys2Proof/Machine/Finish.lean ====
section
/-! DEFINITION. How a message ends: its output written, its completion cell (R69 to R75), what a refusal counts (R81,
R125), streams that fail (R86) and flows that become stale (R101). -/

namespace Sys2Proof.Machine

/-! Completions -/

/-- Room for one more completion: at most 2^LOG2 - 1 are reserved or not consumed (R62). -/
def State.reservedCells (s : State) (n : Nat) : Nat :=
  let r := (s.getInst n).rings
  (s.sch.msgs.filter (fun m => m.inst == n && !m.mute && !m.m.uart)).length + (r.cqTail + 2 ^ r.cqLog2.toNat - r.cqHead) % 2 ^ r.cqLog2.toNat

/-- The cell's place and phase, and the ring after it (R63). -/
def Rings.takeCell (r : Rings) : Rings :=
  let t := (r.cqTail + 1) % 2 ^ r.cqLog2.toNat
  { r with cqTail := t, phase := if t == 0 then !r.phase else r.phase, completed := r.completed + 1 }

/-- Enable Relaxed Ordering, which the physical function holds for all (R42). -/
def State.relaxed (s : State) : Bool := (s.getInst 0).cfg.devCtl.getLsbD 4

/-- Release output bytes of a message (R25, R69, R73): into its output entries, or kept for RESULT. -/
def State.release (s : State) (r : MsgRec) (b : Bytes) : State × MsgRec :=
  if r.m.outs.isEmpty || r.zrm.isSome then (s, { r with output := r.output ++ b, written := r.written + b.length })
  else
    ((scatter r.m.outs r.written b).foldl (fun t w => t.hostWrite (.data r.inst w.1 w.2 s.relaxed)) s,
     { r with written := r.written + b.length })

/-- Counters of refusals and the record of a malformed message (R81, R125, R48). -/
def State.countRefusal (s : State) (n addr : Nat) (st : BitVec 16) : State :=
  let t := match busyClass st with
    | 1 => { s.modInst n (fun i => { i with busyQuota := satAdd 16 i.busyQuota 1 }) with
             sch := { s.sch with busyQuota := satAdd 16 s.sch.busyQuota 1 } }
    | 2 => { s.modInst n (fun i => { i with busyDevice := satAdd 16 i.busyDevice 1 }) with
             sch := { s.sch with busyDevice := satAdd 16 s.sch.busyDevice 1 } }
    | 3 => { s with sch := { s.sch with busyFlows := satAdd 16 s.sch.busyFlows 1 } }
    | 4 => { s with sch := { s.sch with busyNoEngine := satAdd 16 s.sch.busyNoEngine 1 } }
    | _ => s
  if countsMalformed st then t.violation n violAmp addr else t

/-- The end of a record whose function's status a reply carries (R361): OK with the reply record as output. -/
def MsgRec.reply (r : MsgRec) (f : Final) : Option (MsgRec × Final) :=
  match r.zrm, zrmReturn f.status with
  | some b, some ret =>
    let x := zrmReply r.zrmPage b f.status ret (r.output ++ f.output)
    some ({ r with zrm := none, output := [], written := 0 },
      { Final.good x with detail := BitVec.ofNat 32 f.status.toNat })
  | _, _ => none

/-- What the UART answers: OK, or the status in hexadecimal, four digits of it (R405; DESIGN CHOICE, log 97). -/
def uartAnswer (st : BitVec 16) : Bytes := if st == Status.ok then ascii "OK" else hexOf (beBytes 2 st.toNat)

/-- Write the completion cell of a message and forget the message (R71 to R75). A refusal writes no output. A command of the UART is
answered there. -/
def State.writeCell (s : State) (r : MsgRec) (f : Final) (refused : Bool) : State :=
  let n := r.inst
  let s := s.dropMsg r.id
  if r.m.uart then { s with uart := uartAnswer f.status } else
  let rg := (s.getInst n).rings
  if r.mute then s else
  let rel := if refused || (s.getInst n).state == .resetting then (s, r) else s.release r f.output
  let s := rel.1
  let r := rel.2
  -- R47: after a ring fault the completion alone is left out.
  if rg.silenced then s
  else
    let inline_ := !refused && r.m.outs.isEmpty && f.info.isEmpty
    let w := if refused then (0, s) else s.drawWait
    let s := w.2
    let c : Compl :=
      { tag := r.m.cell.tag, status := f.status, cflags := cflags rg.phase inline_ f.closed f.discard
        busy := BitVec.ofNat 8 (busyClass f.status)
        written := if refused then 0 else BitVec.ofNat 32 r.written
        wait := BitVec.ofNat 32 w.1
        sqHead := BitVec.ofNat 16 rg.head
        engine := if refused then 0xFF else BitVec.ofNat 8 r.engine
        detail := f.detail
        result := if inline_ then fit 40 r.output else fit 40 f.info }
    let s := s.hostWrite (.cell n (rg.cqBase + BitVec.ofNat 64 (64 * rg.cqTail)) c)
    let s := s.modInst n (fun i => { i with rings := i.rings.takeCell, maxWait := max i.maxWait w.1 })
    if r.m.notify then s.raise n 0 else s

/-! Component sessions (R296) -/

/-- The session of an instance, until 120 s after its part 1. -/
def State.compSession (s : State) (n : Nat) : Option CompSession :=
  (s.getInst n).compSession.bind (fun c => if s.opTime < c.until_ then some c else none)

/-- The session that a later part continues. -/
def State.sessionFor (s : State) (r : MsgRec) : Option CompSession :=
  (s.compSession r.inst).bind (fun c =>
    if c.comps.length + 1 == r.m.field 44 1 && c.object == r.m.field 40 4 && c.parts == r.m.field 45 1 then some c else none)

def State.endSession (s : State) (n : Nat) : State := s.modInst n (fun i => { i with compSession := none })

/-- The final part, which ends its session whatever the outcome, and commits. -/
def componentFinal (m : Msg) : Bool := m.field 44 1 == m.field 45 1

/-- A final part that ends before it is admitted ends its session. -/
def State.closeSession (s : State) (r : MsgRec) : State :=
  if r.op == .keyComponent && !r.admitted && componentFinal r.m && (s.sessionFor r).isSome then s.endSession r.inst else s

/-- End a message; a record ends with its reply where its function's status reaches one (R361, R363). -/
def State.complete (s : State) (r : MsgRec) (f : Final) (refused : Bool) : State :=
  let s := s.closeSession r
  match r.reply f with
  | some x => s.writeCell x.1 x.2 false
  | none => s.writeCell r f refused

/-- Refuse a message (R79, R81); a record whose function refuses it ends with its reply. -/
def State.refuse (s : State) (r : MsgRec) (f : Final) : State :=
  let t := s.complete r f true
  if (r.reply f).isSome || r.m.uart then t
  else
    let t := t.countRefusal r.inst r.addr f.status
    -- R46, R47: a scatter list that could not be read is a DMA error at the entry's address.
    let t := if f.status == Status.hostMemError then
        t.violation r.inst violDma (r.m.cell.sglAddr.toNat + 16 * f.detail.toNat)
      else t
    -- R355: the refusals of a record count as malformed messages.
    if r.op == .zrmRecord && f.status.toNat / 256 == 0x0A then t.violation r.inst violAmp r.addr else t

/-! Engines -/

/-- Free the engines that run a message, or an operation of the internal world for it, their registers cleared (R131, R198). -/
def State.stopEngine (s : State) (id : Nat) : State := s.clearEngines (id :: s.opsOf (.message id))

/-- Release what a message holds beside its engine: a reserved object number and a reserved tandem (R185, R314). -/
def State.releaseHeld (s : State) (r : MsgRec) : State :=
  let s := match r.reserved with
    | some h => { s with vlt := { s.vlt with reserved := s.vlt.reserved.filter (· != h) } }
    | none => s
  match r.tandem with
  | some _ => { s with dom := { s.dom with tandems := s.dom.tandems.map (fun t =>
      if t.reserved == some r.id then { t with reserved := none } else t) } }
  | none => s

/-! Streams (R84 to R86) -/

/-- Close the stream of a flow, releasing a reserved number. -/
def State.closeStream (s : State) (n fid : Nat) : State :=
  let h := ((s.findFlow n fid).bind (·.stream)).bind (·.reserved)
  let s := s.modFlow n fid (fun f => { f with stream := none })
  match h with
  | some h => { s with vlt := { s.vlt with reserved := s.vlt.reserved.filter (· != h) } }
  | none => s

/-- An earlier segment of the flow's open stream wrote output. -/
def State.streamWrote (s : State) (n fid : Nat) : Bool :=
  (((s.findFlow n fid).bind (·.stream)).map (·.wrote)).getD false

/-- A fetched segment that has not started. -/
def MsgRec.unstarted (r : MsgRec) : Bool :=
  match r.phase with
  | .wait | .building | .vaultRead _ | .ready | .rngWait | .genCall => r.done_ == 0 && !r.isRunning
  | _ => false

/-- A fetched message that has not passed step 5. -/
def MsgRec.atStep5 (r : MsgRec) : Bool := r.phase == .wait && r.step == 5

/-- No first segment that still waits at step 5, and so begins the flow's next stream, stands before a message (R86). -/
def State.beforeNext (s : State) (n fid id : Nat) : Bool :=
  !s.sch.msgs.any (fun x => x.inst == n && x.m.flowId == fid && x.m.seg == 1 && x.atStep5 && x.id ≤ id)

/-- A stream fails: it closes, its segments that have not started complete with ABORTED and DISCARD, in order, and a result
slot is left empty (R86, R181). -/
def State.failStream (s : State) (n fid : Nat) : State :=
  let left := s.sch.msgs.filter (fun r => r.inst == n && r.m.flowId == fid && r.m.seg ≥ 1 && r.unstarted
    && s.beforeNext n fid r.id)
  (sortKey MsgRec.id left).foldl (fun t r => (t.releaseHeld r).complete r { Final.plain Status.aborted with discard := true } false)
    ((s.closeStream n fid).modFlow n fid (fun f => { f with result := none }))

/-- HOLD of a digest flow (R181). -/
def Flow.holds (f : Flow) : Bool := f.kind == 1 && f.route == 0 && byteAt f.fparam 2 == 1

/-- A segment of a stream; every message of SEG 0 on a HOLD flow is a stream of one segment (R181). -/
def State.inStream (s : State) (r : MsgRec) : Bool :=
  r.m.seg != 0 || ((r.flow.bind (s.findFlow r.inst)).map Flow.holds).getD false

/-- The flags that the end of a failed segment carries. -/
def State.failFlags (s : State) (r : MsgRec) (f : Final) : Final :=
  if !s.inStream r then { f with discard := f.discard || r.written != 0 }
  else { f with closed := true, discard := f.discard || r.written != 0 || s.streamWrote r.inst r.m.flowId }

/-- End a message with a status other than OK during execution: DISCARD when output was released, and its stream
fails (R86). -/
def State.failMsg (s : State) (r : MsgRec) (f : Final) : State :=
  let f := s.failFlags r f
  let stream := s.inStream r
  let s := (s.stopEngine r.id).releaseHeld r
  let s := s.complete r f false
  if stream then s.failStream r.inst r.m.flowId else s

/-- End a message with ABORTED. -/
def State.abortMsg (s : State) (r : MsgRec) : State := s.failMsg r (Final.plain Status.aborted)

/-- End with ABORTED every message of a list that is still there. -/
def State.abortAll (s : State) (p : MsgRec → Bool) : State :=
  (s.sch.msgs.filter p).foldl (fun t r => match t.findMsg r.id with | some r => t.abortMsg r | none => t) s

/-- Forget messages with no completion (R74). An accepted commit goes on with what it reserved (R50), and a transition past
step 9 goes on (R395). A command of the UART is no message of a ring. -/
def State.squash (s : State) (p : MsgRec → Bool) : State :=
  (s.sch.msgs.filter p).foldl (fun t r =>
    if r.m.uart then t
    else if r.op == .lcTransition && r.admitted then t.modMsg r.id (fun x => { x with mute := true })
    else if r.phase == .commit then t.dropMsg r.id
    else ((t.stopEngine r.id).releaseHeld r).dropMsg r.id) s

/-! Flows and templates (R101, R103) -/

/-- Key references of a flow or template to a handle. -/
def refersTo (a b : Option KeyRef) (h : Nat) : Bool :=
  (a.map (·.handle)) == some h || (b.map (·.handle)) == some h

/-- A template that names the object, positive or negative. -/
def Template.names (t : Template) (h : Nat) : Bool := t.keyA == h || t.keyB == h

/-- The status of a stale flow: a deleted object is not found for good (R101). -/
def staleAs (old : Option (BitVec 16)) (deleted : Bool) : BitVec 16 :=
  if deleted || old == some Status.keyNotFound then Status.keyNotFound else Status.keyVersion

/-- A message that has passed step 8 with keys of its own: its flow is not installed yet (R98). -/
def MsgRec.opensFlow (r : MsgRec) : Bool := r.op == .flowOpen && r.admitted

/-- A handle may name another object from now on: what engines still hold of the old one is no image or key of it. Versions begin at 1, so
that this tag fits no key (R130). -/
def State.forgetKey (s : State) (h : Nat) : State :=
  let tag (k : Option (Nat × Nat)) : Option (Nat × Nat) := k.map (fun p => if p.1 == h then (h, 0) else p)
  { s with eng := s.eng.map (fun e => { e with keyA := tag e.keyA, keyB := tag e.keyB }) }

/-- Pins of a flow's keys returned: one for each of its keys, also when both are the same object (R253). -/
def State.unpin (s : State) (f : Flow) : State :=
  if f.pinned then
    { s with vlt := { s.vlt with kc := s.vlt.kc.map (fun k =>
        { k with pins := k.pins - (bit ((f.keyA.map (·.handle)) == some k.handle) + bit ((f.keyB.map (·.handle)) == some k.handle)) }) } }
  else s

/-- A key object has changed: its flows, and those being opened with it, are stale, its templates removed, its key-cache lines
dropped; the pins of those flows are returned (R101, R246, R253). -/
def State.markStale (s : State) (h : Nat) (deleted : Bool) : State :=
  let s := (s.sch.flows.filter (fun f => refersTo f.keyA f.keyB h)).foldl State.unpin s
  { s with
    sch := { s.sch with
      flows := s.sch.flows.map (fun f =>
        if refersTo f.keyA f.keyB h then { f with stale := some (staleAs f.stale deleted), pinned := false } else f)
      msgs := s.sch.msgs.map (fun r =>
        if r.opensFlow && r.stale != some Status.instanceUnbound && refersTo r.keyA r.keyB h then { r with stale := some (staleAs r.stale deleted) } else r)
      templates := s.sch.templates.filter (fun t => t.building || !t.names h) }
    vlt := { s.vlt with kc := s.vlt.kc.filter (fun k => k.handle != h) } }

/-- End the flows that a test picks, with their pins (R103). -/
def State.dropFlows (s : State) (p : Flow → Bool) : State :=
  let s := (s.sch.flows.filter p).foldl State.unpin s
  { s with
    sch := { s.sch with flows := s.sch.flows.filter (fun f => !p f) }
    vlt := { s.vlt with reserved := s.vlt.reserved.filter (fun h =>
      !(s.sch.flows.any (fun f => p f && (f.stream.bind (·.reserved)) == some h))) } }

/-- Remove the templates that a test picks. -/
def State.dropTemplates (s : State) (p : Template → Bool) : State :=
  { s with sch := { s.sch with templates := s.sch.templates.filter (fun t => !p t) } }

end Sys2Proof.Machine
end

