-- ==== Sys2Proof/Machine/Cipher.lean ====
section
/-! DEFINITION. The built-in cipher programs (R127 to R152): parameters, lengths and largest outputs of the cipher
opcodes, the padding unit, engine time, and what one lap does to the context and the output. -/

namespace Sys2Proof.Machine

/-- What a data message runs with: its opcode, the slot, padding, route and FPARAM of its flow or template, the keys
admitted, P, SEG, the total input of the message or stream, and its image program where the slot names one. -/
structure Job where
  op     : Op
  slot   : Nat
  pad    : Nat
  route  : Nat
  fp     : Bytes
  keyA   : Option KeyRef
  keyB   : Option KeyRef
  p      : Bytes
  seg    : Nat
  total  : Nat
  prog   : Option Program
deriving DecidableEq, Repr

def Job.alg (j : Job) : BitVec 16 := (j.keyA.map (·.alg)).getD 0
def Job.key (j : Job) : Bytes := (j.keyA.map (·.material)).getD []
def Job.algB (j : Job) : BitVec 16 := (j.keyB.map (·.alg)).getD 0
def Job.key2 (j : Job) : Bytes := (j.keyB.map (·.material)).getD []
/-- The same job with the keys that the engine's registers hold (R129). -/
def Job.withRegs (j : Job) (k : KeyRegs) : Job :=
  { j with keyA := j.keyA.map (fun x => { x with material := k.a }), keyB := j.keyB.map (fun x => { x with material := k.b }) }
/-- B of the key in use. -/
def Job.block (j : Job) : Nat := blockSize j.alg

/-! Kinds of cipher opcode -/

def Op.isEcb (o : Op) : Bool := match o with | .ecbEncrypt | .ecbDecrypt => true | _ => false
def Op.isCbc (o : Op) : Bool := match o with | .cbcEncrypt | .cbcDecrypt => true | _ => false
def Op.isCfb (o : Op) : Bool := match o with | .cfbEncrypt | .cfbDecrypt => true | _ => false
def Op.isXts (o : Op) : Bool := match o with | .xtsEncrypt | .xtsDecrypt => true | _ => false
def Op.isGcm (o : Op) : Bool := match o with | .gcmEncrypt | .gcmDecrypt => true | _ => false
def Op.isCcm (o : Op) : Bool := match o with | .ccmEncrypt | .ccmDecrypt => true | _ => false
def Op.isWrap (o : Op) : Bool := match o with | .dataWrap | .dataUnwrap => true | _ => false
def Op.isCmac (o : Op) : Bool := match o with | .cmacGenerate | .cmacVerify => true | _ => false
def Op.isIso (o : Op) : Bool := match o with | .iso9797Generate | .iso9797Verify => true | _ => false
/-- Verify opcodes, which take the expected MAC in P (Table 5.7). -/
def Op.isMacVerify (o : Op) : Bool := match o with | .cmacVerify | .iso9797Verify => true | _ => false
/-- Decrypt, unwrap and verify opcodes (condition DECRYPT of R159). -/
def Op.isDecrypt (o : Op) : Bool :=
  match o with
  | .ecbDecrypt | .cbcDecrypt | .cfbDecrypt | .xtsDecrypt | .gcmDecrypt | .ccmDecrypt | .dataUnwrap | .cmacVerify
  | .iso9797Verify | .hmacVerify => true
  | _ => false
/-- Opcodes with the IV_GEN parameter (Table 5.6). -/
def Op.hasIvGen (o : Op) : Bool := match o with | .cbcEncrypt | .cfbEncrypt | .gcmEncrypt => true | _ => false
/-- Opcodes that accept AES and TDEA, whose checks depend on B (R488). -/
def Op.dependsOnB (o : Op) : Bool := Op.isEcb o || Op.isCbc o || Op.isIso o

/-! Flow parameters (R135, R139) -/

/-- Accepted values of byte 48, TAG_LEN; none where the byte is not named. -/
def tagLens (o : Op) : Option (List Nat) :=
  if Op.isGcm o then some [0, 12, 13, 14, 15, 16]
  else if Op.isCcm o then some [0, 4, 6, 8, 10, 12, 14, 16]
  else if Op.isCmac o then some [0, 8, 9, 10, 11, 12, 13, 14, 15, 16]
  else if Op.isIso o then some [0, 4, 5, 6, 7, 8, 9, 10, 11, 12, 13, 14, 15, 16]
  else none

/-- Accepted values of byte 49. -/
def byte49 (o : Op) : Option (List Nat) :=
  if o == .ctrCrypt then some [0, 32, 128]
  else if Op.isXts o then some [0, 9, 10, 11, 12, 13, 14, 15, 16]
  else if Op.isCcm o then some [0, 7, 8, 9, 10, 11, 12, 13]
  else if Op.isWrap o then some [0, 1]
  else if Op.isIso o then some [0, 1, 3]
  else none

/-- One FPARAM byte against its accepted values; a byte not named must be 0. -/
def checkFpByte (fp : Bytes) (off : Nat) (ok : Option (List Nat)) : Option Final :=
  match ok with
  | some l => failIf (!l.contains (byteAt fp (off - 48))) Status.paramRange off
  | none => failIf (byteAt fp (off - 48) != 0) Status.reservedNonzero off

/-- FPARAM bytes from off on that must be 0. -/
def checkFpZero (fp : Bytes) (off : Nat) : Option Final :=
  (firstNonZero fp (off - 48) (64 - off)).map (fun i => Final.refuse Status.reservedNonzero (i + 48))

/-- FPARAM of a cipher flow (Table 5.6). With a loaded program ALG is ignored (R168). -/
def cipherFparam (o : Op) (loaded : Bool) (fp : Bytes) : Option Final :=
  let noAlg := Op.isIso o && loaded
  checkFpByte fp 48 (tagLens o)
  <|> failIf (Op.isIso o && !loaded && byteAt fp 1 == 3 && byteAt fp 0 > 8) Status.paramRange 48
  <|> (if noAlg then none else checkFpByte fp 49 (byte49 o))
  <|> checkFpByte fp 50 (if Op.hasIvGen o then some [0, 1] else none)
  <|> checkFpZero fp 51

/-- PAD codes an opcode accepts (Table 5.4); 0xFF stands for the default. -/
def padAccepted (o : Op) (pad : Nat) : Bool :=
  match o with
  | .ecbEncrypt | .cbcEncrypt => [0, 1, 2, 3, 4, 255].contains pad
  | .ecbDecrypt | .cbcDecrypt => [0, 1, 3, 255].contains pad
  | .iso9797Generate | .iso9797Verify => [0, 2, 3, 255].contains pad
  | _ => pad == 0 || pad == 255

/-- The padding code in force. -/
def padCode (o : Op) (pad : Nat) : Nat := if pad == 255 then (if Op.isIso o then 2 else 0) else pad

def Job.padding (j : Job) : Nat := padCode j.op j.pad
def Job.ivGen (j : Job) : Bool := Op.hasIvGen j.op && byteAt j.fp 2 == 1
/-- TAG_LEN in force; 0 stands for 16, for B in ISO9797, for D in HMAC. -/
def Job.tagLen (j : Job) : Nat :=
  if byteAt j.fp 0 != 0 then byteAt j.fp 0
  else if Op.isIso j.op then j.block
  else if Op.isGcm j.op || Op.isCcm j.op || Op.isCmac j.op then 16
  else 0
def Job.ctrWidth (j : Job) : Nat := if byteAt j.fp 1 == 0 then 128 else byteAt j.fp 1
def Job.nonceLen (j : Job) : Nat := if byteAt j.fp 1 == 0 then 12 else byteAt j.fp 1
/-- XTS data-unit size; 0 when the message is one unit. -/
def Job.unitLen (j : Job) : Nat := if byteAt j.fp 1 == 0 then 0 else 2 ^ byteAt j.fp 1
def Job.isKwp (j : Job) : Bool := byteAt j.fp 1 == 1
/-- ALG 3; a loaded program ignores ALG (R168). -/
def Job.isAlg3 (j : Job) : Bool := Op.isIso j.op && j.prog.isNone && byteAt j.fp 1 == 3
/-- V: the generated-IV prefix. -/
def Job.ivLen (j : Job) : Nat :=
  if !j.ivGen then 0 else if Op.isGcm j.op then 12 else if Op.isCbc j.op then j.block else 16
/-- A: AAD_LEN. -/
def Job.aadLen (j : Job) : Nat :=
  if Op.isGcm j.op then leAt j.p 12 4 else if Op.isCcm j.op then leAt j.p 13 3 else 0
/-- Bytes of the input that are the tag of a GCM or CCM decryption, or the expected MAC of HMAC_VERIFY. -/
def Job.tailLen (j : Job) : Nat :=
  match j.op with
  | .gcmDecrypt | .ccmDecrypt => j.tagLen
  | _ => 0
/-- Where the text ends in the input. -/
def Job.textEnd (j : Job) : Nat := j.total - j.tailLen

/-! The parameter block P (R140, Table 5.7) -/

/-- P bytes that an opcode names, given its tag length and whether the key is TDEA. -/
def pNamed (j : Job) (tdea : Bool) : List Nat :=
  if Op.isCbc j.op || Op.isCfb j.op then (if j.ivGen then [] else List.range (if tdea then 8 else 16))
  else if j.op == .ofbCrypt || j.op == .ctrCrypt || Op.isXts j.op then List.range 16
  else if Op.isGcm j.op then (if j.ivGen then [12, 13, 14, 15] else List.range 16)
  else if Op.isCcm j.op then List.range j.nonceLen ++ [13, 14, 15]
  else []

/-- The first AREA byte from off on that is not 0 and not among the P bytes named, P beginning at base. -/
def badAreaByte (m : Msg) (base : Nat) (named : List Nat) (off : Nat) : Option Final :=
  ((List.range (64 - off)).find? (fun i =>
    byteAt m.cell.area (off + i - 40) != 0 && !(off + i ≥ base && named.contains (off + i - base)))).map
    (fun i => Final.refuse Status.reservedNonzero (off + i))

/-- AREA of a cipher message by its segment. tdea is known only at step 8 (R488); before that the wider reading holds. -/
def cipherArea (j : Job) (m : Msg) (tdea : Bool) : Option Final :=
  let mac := List.range j.tagLen
  match m.seg with
  | 0 => badAreaByte m 40 (if Op.isMacVerify j.op then mac else pNamed j tdea) 40
  | 1 => badAreaByte m 48 (if Op.isMacVerify j.op then [] else pNamed j tdea) 48
  | 2 => badAreaByte m 40 [] 40
  | _ => badAreaByte m 40 (if Op.isMacVerify j.op then mac else []) 40

/-! Padding (R135, R136) -/

/-- Bytes the padding adds to a total input of l bytes. -/
def padAdds (code b l : Nat) : Nat :=
  match code with
  | 1 => b - l % b
  | 2 => if l == 0 then b else (b - l % b) % b
  | 3 => b - l % b
  | 4 => if l == 0 then b else (b - l % b) % b
  | _ => 0

/-- The padding bytes for a total input; fill is used for code 4. -/
def padBytes (code b l : Nat) (fill : Bytes) : Bytes :=
  let n := padAdds code b l
  match code with
  | 1 => List.replicate n (BitVec.ofNat 8 n)
  | 2 => zeros n
  | 3 => 0x80 :: zeros (n - 1)
  | 4 => fit n fill
  | _ => []

/-- Bytes of padding on a final block, none when malformed (R136). -/
def padOn (code b : Nat) (blk : Bytes) : Option Nat :=
  if code == 1 then
    let k := byteAt blk (b - 1)
    if k == 0 || k > b || (blk.drop (b - k)).any (fun x => x.toNat != k) then none else some k
  else
    match (List.range b).reverse.find? (fun i => byteAt blk i != 0) with
    | some i => if byteAt blk i == 0x80 then some (b - i) else none
    | none => none

/-- Random bytes a message draws before its first lap: generated IV, then fill (R137, R141). -/
def cipherRandom (j : Job) (m : Msg) : Nat :=
  (if m.seg ≤ 1 then j.ivLen else 0)
    + (if (m.seg == 0 || m.seg == 3) && j.padding == 4 && (Op.isEcb j.op || Op.isCbc j.op)
       then padAdds 4 j.block j.total else 0)

/-! Lengths and largest output (R138, R143) -/

/-- Table 5.8 on the total input. -/
def cipherLengthBad (j : Job) : Bool :=
  let l := j.total
  if Op.isEcb j.op || Op.isCbc j.op then
    if j.padding == 0 then l % j.block != 0
    else Op.isDecrypt j.op && (l == 0 || l % j.block != 0)
  else if j.op == .ctrCrypt then
    j.ctrWidth == 32 && ceilDiv l 16 > 2 ^ 32 - beNat (slice j.p 12 4)
  else if Op.isXts j.op then
    l < 16 || (j.unitLen == 0 && l > 65536) || (j.unitLen != 0 && l % j.unitLen != 0)
  else if Op.isGcm j.op then
    j.aadLen + j.tailLen > l || l - j.aadLen - j.tailLen > 2 ^ 36 - 32
  else if Op.isCcm j.op then
    j.aadLen + j.tailLen > l || l - j.aadLen - j.tailLen ≥ 2 ^ (8 * (15 - j.nonceLen))
  else if j.op == .dataWrap then
    if j.isKwp then l == 0 || l > 16384 else l < 16 || l % 8 != 0 || l > 16384
  else if j.op == .dataUnwrap then
    if j.isKwp then l < 16 || l % 8 != 0 || l > 16392 else l < 24 || l % 8 != 0 || l > 16392
  else if Op.isIso j.op then j.padding == 0 && (l == 0 || l % j.block != 0)
  else false

/-- How much of the span [lo, hi) of the input lies in [a, b). -/
def overlap (lo hi a b : Nat) : Nat := min hi b - max lo a

/-- The largest output of a message or segment (Table 5.5); pos is the input of the stream before it. -/
def cipherLargest (j : Job) (m : Msg) (pos : Nat) : Nat :=
  let l := m.inLen
  let final := m.seg == 0 || m.seg == 3
  let v := if m.seg ≤ 1 then j.ivLen else 0
  let aad := overlap pos (pos + l) 0 j.aadLen
  let tail := overlap pos (pos + l) j.textEnd j.total
  let pads := if final then padAdds j.padding j.block l else 0
  match j.op with
  | .ecbEncrypt | .cbcEncrypt => v + l + pads
  | .ecbDecrypt | .cbcDecrypt => if m.seg == 3 && j.padding != 0 then l + j.block else l
  | .cfbEncrypt => v + l
  | .gcmEncrypt => v + l - aad + (if final then j.tagLen else 0)
  | .ccmEncrypt => l - aad + (if final then j.tagLen else 0)
  | .gcmDecrypt | .ccmDecrypt => l - aad - tail
  | .dataWrap => if j.isKwp then 8 * ceilDiv l 8 + 8 else l + 8
  | .dataUnwrap => l - 8
  | .cmacGenerate | .iso9797Generate => if final then j.tagLen else 0
  | .cmacVerify | .iso9797Verify => 0
  | _ => l

/-! Engine time (Table 5.3) -/

/-- b: cycles per block of a key. -/
def blockCycles (alg : BitVec 16) : Nat :=
  if isTdea alg then 48 else if alg.toNat % 256 == 0x18 then 13 else if alg.toNat % 256 == 0x20 then 15 else 11

/-- Padding that the engine adds to the input: none where padding is removed. -/
def Job.padsIn (j : Job) : Nat := if Op.isDecrypt j.op && !Op.isIso j.op then 0 else padAdds j.padding j.block j.total

/-- Blocks of size bs that begin in [lo, hi) of a region of bytes. -/
def blocksFrom (bs lo hi : Nat) : Nat := ceilDiv hi bs - ceilDiv lo bs

/-- The encoded AAD length of CCM, in bytes (SP 800-38C). -/
def ccmHeadLen (a : Nat) : Nat := if a == 0 then 0 else if a < 65280 then 2 else 6

/-- Engine time of n input bytes at a position of the message or stream; last adds the fixed cycles. A block counts in the lap where
it begins; the AAD of CCM is counted as formatted. -/
def cipherCycles (j : Job) (pos n : Nat) (last : Bool) : Nat :=
  let b := if j.isAlg3 then 48 else blockCycles j.alg
  let hi := pos + n
  let blocks := blocksFrom j.block pos (hi + (if last then j.padsIn else 0))
  let aad := blocksFrom 16 (min pos j.aadLen) (min hi j.aadLen)
  let head := ccmHeadLen j.aadLen
  let formatted := blocksFrom 16 (if pos == 0 then 0 else head + min pos j.aadLen) (head + min hi j.aadLen)
  let text := blocksFrom 16 (min pos j.textEnd - j.aadLen) (min hi j.textEnd - j.aadLen)
  if Op.isXts j.op then
    blocks * (b + 2) + (if last then b * (if j.unitLen == 0 then 1 else ceilDiv j.total j.unitLen) else 0)
  else if Op.isGcm j.op then text * (b + 2) + 2 * aad + (if last then b + 2 else 0)
  else if Op.isCcm j.op then text * (2 * b + 2) + formatted * (b + 2) + (if last then 2 * b + 2 else 0)
  else if Op.isCmac j.op then (if j.total == 0 then 1 else blocks) * b + (if last then 2 else 0)
  else if Op.isWrap j.op then
    let s := if j.op == .dataWrap then ceilDiv n 8 else n / 8 - 1
    if s ≤ 1 then b else 6 * s * (b + 2)
  else if j.isAlg3 then blocks * 48 + (if last then 96 else 0)
  else blocks * b

/-! One lap -/

/-- ECB over whole blocks. -/
def ecbRun (f : Bytes → Bytes) (b : Nat) (x : Bytes) : Bytes := (chunks b x).flatMap f

/-- CBC encryption: output and last block. -/
def cbcEnc (f : Bytes → Bytes) : List Bytes → Bytes → Bytes × Bytes
  | [], c => ([], c)
  | x :: r, c =>
    let y := f (xorB x c)
    let t := cbcEnc f r y
    (y ++ t.1, t.2)

/-- CBC decryption: output and last block. -/
def cbcDec (f : Bytes → Bytes) : List Bytes → Bytes → Bytes × Bytes
  | [], c => ([], c)
  | x :: r, c =>
    let t := cbcDec f r x
    (xorB (f x) c ++ t.1, t.2)

/-- CFB128, with the ciphertext fed back: encryption and decryption differ in which side is ciphertext. -/
def cfbRun (key : Bytes) (enc : Bool) : List Bytes → Bytes → Bytes × Bytes
  | [], c => ([], c)
  | x :: r, c =>
    let y := xorB x (aesEnc key c)
    let t := cfbRun key enc r (if enc then y else x)
    (y ++ t.1, t.2)

/-- OFB: output and output block. -/
def ofbRun (key : Bytes) : List Bytes → Bytes → Bytes × Bytes
  | [], c => ([], c)
  | x :: r, c =>
    let o := aesEnc key c
    let t := ofbRun key r o
    (xorB x o ++ t.1, t.2)

/-- The counter block i blocks after the initial one (R140, R143). -/
def ctrBlock (width : Nat) (p : Bytes) (i : Nat) : Bytes :=
  if width == 32 then p.take 12 ++ beBytes 4 ((beNat (slice p 12 4) + i) % 2 ^ 32)
  else beBytes 16 ((beNat (fit 16 p) + i) % 2 ^ 128)

/-- Multiplication by α in GF(2^128), little-endian (IEEE 1619). -/
def mulAlpha (t : Bytes) : Bytes :=
  let v := leNat t
  leBytes 16 ((2 * v) % 2 ^ 128 ^^^ (if v >>> 127 == 1 then 0x87 else 0))

/-- One XTS block under a tweak. -/
def xtsBlock (enc : Bool) (key t x : Bytes) : Bytes :=
  xorB ((if enc then aesEnc key else aesDec key) (xorB x t)) t

/-- One XTS data unit of 16 bytes or more, with ciphertext stealing for a partial last block (IEEE 1619). -/
def xtsUnit (enc : Bool) (key : Bytes) : List Bytes → Bytes → Bytes
  | [], _ => []
  | [x], t => xtsBlock enc key t x
  | [x, y], t =>
    if y.length == 16 then xtsBlock enc key t x ++ xtsBlock enc key (mulAlpha t) y
    else if enc then
      let c := xtsBlock enc key t x
      xtsBlock enc key (mulAlpha t) (y ++ c.drop y.length) ++ c.take y.length
    else
      let q := xtsBlock enc key (mulAlpha t) x
      xtsBlock enc key t (y ++ q.drop y.length) ++ q.take y.length
  | x :: r, t => xtsBlock enc key t x ++ xtsUnit enc key r (mulAlpha t)

/-- XTS over data units; the tweak value rises by 1 for each. -/
def xtsRun (enc : Bool) (key key2 : Bytes) (unit : Nat) (x : Bytes) (tweak : Nat) : Bytes :=
  let us := if unit == 0 then [x] else chunks unit x
  ((List.range us.length).flatMap (fun i =>
    xtsUnit enc key (chunks 16 (us.getD i [])) (aesEnc key2 (leBytes 16 (tweak + i)))))

/-- Feed bytes into a block function with a buffer of bytes not yet forming a block. -/
def feed (f : Bytes → Bytes → Bytes) (acc held x : Bytes) : Bytes × Bytes :=
  let d := held ++ x
  let n := d.length / 16 * 16
  ((chunks 16 (d.take n)).foldl f acc, d.drop n)

/-- Close a region: its last partial block is filled with zeros. -/
def feedEnd (f : Bytes → Bytes → Bytes) (ah : Bytes × Bytes) : Bytes × Bytes :=
  if ah.2.isEmpty then ah else (f ah.1 (fit 16 ah.2), [])

/-- The GHASH step on bytes, under the hash subkey. -/
def ghashStep (h acc blk : Bytes) : Bytes := beBytes 16 (gfMul (beNat acc ^^^ beNat blk) (beNat h))

/-- The CBC-MAC step of CCM. -/
def ccmStep (key acc blk : Bytes) : Bytes := aesEnc key (xorB acc blk)

/-- CCM counter block i and B0 (SP 800-38C). -/
def ccmCounter (j : Job) (i : Nat) : Bytes :=
  [BitVec.ofNat 8 (14 - j.nonceLen)] ++ j.p.take j.nonceLen ++ beBytes (15 - j.nonceLen) i
def ccmB0 (j : Job) : Bytes :=
  [BitVec.ofNat 8 ((if j.aadLen == 0 then 0 else 64) + 8 * ((j.tagLen - 2) / 2) + (14 - j.nonceLen))]
    ++ j.p.take j.nonceLen ++ beBytes (15 - j.nonceLen) (j.textEnd - j.aadLen)
/-- The encoded AAD length. -/
def ccmAadHead (a : Nat) : Bytes :=
  if a == 0 then [] else if a < 65280 then beBytes 2 a else [0xFF, 0xFE] ++ beBytes 4 a

/-- The part of a chunk at a position that lies in [a, b). -/
def part (chunk : Bytes) (pos a b : Nat) : Bytes :=
  let lo := max pos a
  (chunk.drop (lo - pos)).take (min (pos + chunk.length) b - lo)

/-- One lap of an AEAD program: the step of its MAC, the counter blocks from the first text block on, and whether the
MAC runs over the output. -/
def aeadLap (j : Job) (c : Ctx) (chunk : Bytes) (step : Bytes → Bytes → Bytes) (ctr : Nat → Bytes)
    (overOutput : Bool) : Ctx × Bytes :=
  let pos := c.pos
  let aad := part chunk pos 0 j.aadLen
  let text := part chunk pos j.aadLen j.textEnd
  let out := xorB text (keystream j.key ctr (max pos j.aadLen - j.aadLen) text.length)
  let m1 := feed step c.acc c.aadHeld aad
  let m2 := if pos ≤ j.aadLen && j.aadLen ≤ pos + chunk.length then feedEnd step m1 else m1
  let m3 := feed step m2.1 m2.2 (if overOutput then out else text)
  ({ c with acc := m3.1, aadHeld := m3.2, held := c.held ++ part chunk pos j.textEnd j.total }, out)

/-- What the last lap of an AEAD program does with its tag: append it, or compare it. -/
def aeadEnd (j : Job) (r : Ctx × Bytes) (tag : Bytes) : Ctx × Bytes :=
  if Op.isDecrypt j.op then
    if r.1.held == tag.take j.tagLen then r else ({ r.1 with fail := true }, [])
  else (r.1, r.2 ++ tag.take j.tagLen)

/-- GCM, with H from the derived-value register. -/
def gcmLap (h : Bytes) (j : Job) (c : Ctx) (chunk : Bytes) (last : Bool) : Ctx × Bytes :=
  let iv := if j.ivGen then c.iv else j.p.take 12
  let step := ghashStep h
  let r := aeadLap j c chunk step (gcmCounter iv) (!Op.isDecrypt j.op)
  if last then
    let f := feedEnd step (r.1.acc, r.1.aadHeld)
    aeadEnd j r (gcmTagWith (beNat h) j.key iv (beNat f.1) j.aadLen (j.textEnd - j.aadLen))
  else r

/-- CCM. -/
def ccmLap (j : Job) (c : Ctx) (chunk : Bytes) (last : Bool) : Ctx × Bytes :=
  let step := ccmStep j.key
  let c0 := if c.pos == 0
            then { c with acc := step (zeros 16) (ccmB0 j), aadHeld := ccmAadHead j.aadLen } else c
  let r := aeadLap j c0 chunk step (fun i => ccmCounter j (i + 1)) (Op.isDecrypt j.op)
  if last then
    let f := feedEnd step (r.1.acc, r.1.aadHeld)
    aeadEnd j r (xorB f.1 (aesEnc j.key (ccmCounter j 0)))
  else r

/-- The end of a MAC program: the tag as output, or its comparison with the expected MAC. -/
def macEnd (j : Job) (c : Ctx) (mac expected : Bytes) : Ctx × Bytes :=
  if Op.isDecrypt j.op then
    ({ c with fail := c.fail || mac.take j.tagLen != expected.take j.tagLen }, [])
  else (c, mac.take j.tagLen)

/-- CMAC, with K1 and K2 from the derived-value register: the last block is held back until more input follows (R142). -/
def cmacLap (k1 k2 : Bytes) (j : Job) (c : Ctx) (chunk : Bytes) (last : Bool) (expected : Bytes) : Ctx × Bytes :=
  let st := if c.chain.isEmpty then zeros 16 else c.chain
  let d := c.held ++ chunk
  let n := (d.length - 1) / 16 * 16
  let s1 := cbcMacAes j.key st (chunks 16 (d.take n))
  let c1 := { c with chain := s1, held := d.drop n }
  if last then macEnd j c1 (cmacMask k1 k2 j.key s1 (d.drop n)) expected else (c1, [])

/-- ISO/IEC 9797-1 MAC algorithms 1 and 3 (R147). -/
def isoLap (j : Job) (c : Ctx) (chunk : Bytes) (last : Bool) (expected : Bytes) : Ctx × Bytes :=
  let b := if j.isAlg3 then 8 else j.block
  let enc := if j.isAlg3 then desEnc (j.key.take 8) else blockEnc j.alg j.key
  let st := if c.chain.isEmpty then zeros b else c.chain
  let d := chunk ++ (if last then padBytes j.padding b j.total [] else [])
  let s1 := (chunks b d).foldl (fun s x => enc (xorB s x)) st
  let c1 := { c with chain := s1 }
  if last then
    macEnd j c1 (if j.isAlg3 then desEnc (j.key.take 8) (desDec (slice j.key 8 8) s1) else s1) expected
  else (c1, [])

/-- Decryption with removable padding: the final block of a segment is held, and the padding of the last one checked
and removed. A last segment releases nothing before that check (R136). -/
def unpadLap (j : Job) (c : Ctx) (dec : Bytes) (segEnd last : Bool) : Ctx × Bytes :=
  let d := c.held ++ dec
  if last then
    match padOn j.padding j.block (d.drop (d.length - j.block)) with
    | some k => ({ c with held := [] }, d.take (d.length - k))
    | none => ({ c with held := [], fail := true }, [])
  else if j.seg == 3 then ({ c with held := d }, [])
  else if segEnd then ({ c with held := d.drop (d.length - j.block) }, d.take (d.length - j.block))
  else ({ c with held := [] }, d)

/-- One lap of a built-in cipher program on the next input bytes, under the engine's key registers: the context after it and the
output it releases. segEnd: the last lap of its message; last: the last lap of the message or stream. -/
def cipherLap (k : KeyRegs) (j : Job) (c : Ctx) (chunk : Bytes) (segEnd last : Bool) (expected : Bytes) : Ctx × Bytes :=
  let j := j.withRegs k
  let b := j.block
  let pads := if last then padBytes j.padding b j.total c.fill else []
  let iv := if j.ivGen then c.iv else j.p.take b
  let st := if c.chain.isEmpty then iv else c.chain
  let r : Ctx × Bytes :=
    match j.op with
    | .ecbEncrypt => (c, ecbRun (blockEnc j.alg j.key) b (chunk ++ pads))
    | .ecbDecrypt =>
      let d := ecbRun (blockDec j.alg j.key) b chunk
      if j.padding == 0 then (c, d) else unpadLap j c d segEnd last
    | .cbcEncrypt =>
      let t := cbcEnc (blockEnc j.alg j.key) (chunks b (chunk ++ pads)) st
      ({ c with chain := t.2 }, t.1)
    | .cbcDecrypt =>
      let t := cbcDec (blockDec j.alg j.key) (chunks b chunk) st
      let c1 := { c with chain := t.2 }
      if j.padding == 0 then (c1, t.1) else unpadLap j c1 t.1 segEnd last
    | .cfbEncrypt =>
      let t := cfbRun j.key true (chunks 16 chunk) st
      ({ c with chain := t.2 }, t.1)
    | .cfbDecrypt =>
      let t := cfbRun j.key false (chunks 16 chunk) st
      ({ c with chain := t.2 }, t.1)
    | .ofbCrypt =>
      let t := ofbRun j.key (chunks 16 chunk) st
      ({ c with chain := t.2 }, t.1)
    | .ctrCrypt => (c, xorB chunk (keystream j.key (ctrBlock j.ctrWidth j.p) c.pos chunk.length))
    | .xtsEncrypt => (c, xtsRun true j.key j.key2 j.unitLen chunk (leNat (fit 16 j.p) + c.pos / max 1 j.unitLen))
    | .xtsDecrypt => (c, xtsRun false j.key j.key2 j.unitLen chunk (leNat (fit 16 j.p) + c.pos / max 1 j.unitLen))
    | .gcmEncrypt | .gcmDecrypt => gcmLap k.h j c chunk last
    | .ccmEncrypt | .ccmDecrypt => ccmLap j c chunk last
    | .dataWrap => (c, if j.isKwp then kwpWrap j.key chunk else kwWrap j.key chunk)
    | .dataUnwrap =>
      match if j.isKwp then kwpUnwrap j.key chunk else kwUnwrap j.key chunk with
      | some x => (c, x)
      | none => ({ c with fail := true }, [])
    | .cmacGenerate | .cmacVerify => cmacLap k.k1 k.k2 j c chunk last expected
    | .iso9797Generate | .iso9797Verify => isoLap j c chunk last expected
    | _ => (c, [])
  let prefixIv := if c.pos == 0 && j.ivGen then c.iv else []
  ({ r.1 with pos := c.pos + chunk.length }, if r.1.fail then [] else prefixIv ++ r.2)

/-- The status a set verify flag ends with (R136, R146, R148, R149). -/
def failStatus (o : Op) : BitVec 16 := if o == .dataUnwrap then Status.unwrapFailed else Status.verifyFailed

/-! Keys (Table 5.5, R128, R138, R144, R147) -/

def isAesAlg (alg : BitVec 16) : Bool := alg.toNat / 256 == 1
/-- TDEA material whose parts differ, parity bits apart (R128, log 10). -/
def tdeaDistinct (k : Bytes) : Bool :=
  let p (b : Bytes) : Bytes := b.map (fun x => x &&& 0xFE)
  p (k.take 8) != p (slice k 8 8) && (k.length < 24 || p (slice k 8 8) != p (slice k 16 8))

/-- The algorithm of a key fits a cipher opcode. -/
def cipherAlgOk (o : Op) (fp : Bytes) (alg : BitVec 16) (material : Bytes) : Bool :=
  let alg3 := Op.isIso o && byteAt fp 1 == 3
  if Op.isXts o then alg == 0x0110 || alg == 0x0120
  else if isTdea alg then
    Op.dependsOnB o && tdeaDistinct material && (!alg3 || alg == 0x0210) && !(Op.isIso o && byteAt fp 0 > 8)
  else isAesAlg alg && !alg3

/-- The built-in slot of an opcode for a key (Table 6.5, R167). -/
def cipherSlot (o : Op) (fp : Bytes) (tdea : Bool) : Nat :=
  match o with
  | .ecbEncrypt | .ecbDecrypt => if tdea then 16 else 0
  | .cbcEncrypt => if tdea then 17 else 1
  | .cbcDecrypt => if tdea then 18 else 2
  | .cfbEncrypt | .cfbDecrypt => 3
  | .ofbCrypt => 4
  | .ctrCrypt => 5
  | .xtsEncrypt | .xtsDecrypt => 6
  | .gcmEncrypt => 7
  | .gcmDecrypt => 8
  | .ccmEncrypt => 9
  | .ccmDecrypt => 10
  | .dataWrap => 11
  | .dataUnwrap => 12
  | .cmacGenerate | .cmacVerify => 13
  | .iso9797Generate | .iso9797Verify => if byteAt fp 1 == 3 then 15 else 14
  | _ => 0xFF

end Sys2Proof.Machine
end

