-- ==== Sys2Proof/Machine/Digest.lean ====
section
/-! DEFINITION. The built-in digest programs (R170 to R189): parameters, lengths and largest outputs, the attributes of a
derived key, engine time, the cut into laps, and what one lap does. -/

namespace Sys2Proof.Machine

/-- The function of a digest opcode; an HMAC opcode takes the one its key names (R174). -/
def digestHash (o : Op) (alg : BitVec 16) : Option Hash :=
  match o with
  | .sha224 => some .sha224
  | .sha256 => some .sha256
  | .sha384 => some .sha384
  | .sha512 => some .sha512
  | .sha3_224 => some .sha3_224
  | .sha3_256 => some .sha3_256
  | .sha3_384 => some .sha3_384
  | .sha3_512 => some .sha3_512
  | .shake128 => some .shake128
  | .shake256 => some .shake256
  | .hmacGenerate | .hmacVerify => hmacHash alg
  | _ => none

def Op.isHmac (o : Op) : Bool := match o with | .hmacGenerate | .hmacVerify => true | _ => false
def Op.isShake (o : Op) : Bool := match o with | .shake128 | .shake256 => true | _ => false

def Job.hash (j : Job) : Hash := (digestHash j.op j.alg).getD .sha256

/-- HOLD of a digest flow (Table 7.4). -/
def Job.hold (j : Job) : Bool := j.route == 0 && j.op.kind == some 1 && byteAt j.fp 2 == 1

/-- OUT_LEN of SHAKE. -/
def Job.outLen (j : Job) : Nat := leAt j.p 0 4

/-- TAG_LEN of an HMAC opcode; 0 stands for D. -/
def Job.macLen (j : Job) : Nat := if byteAt j.fp 0 == 0 || j.route == 1 then j.hash.size else byteAt j.fp 0

/-- The result length R of a message or HOLD flow. -/
def Job.resultLen (j : Job) : Nat :=
  if Op.isShake j.op then j.outLen else if Op.isHmac j.op then j.macLen else j.hash.size

/-! Flow parameters (R177) -/

/-- ALG and key length a DTYPE names; the parent's D for DTYPE 6 (R183). -/
def dtypeLen (dtype d : Nat) : Nat :=
  match dtype with
  | 1 | 4 => 16
  | 2 | 5 => 24
  | 3 => 32
  | _ => d

def dtypeAlg (dtype : Nat) (parent : BitVec 16) : BitVec 16 :=
  match dtype with
  | 1 => 0x0110
  | 2 => 0x0118
  | 3 => 0x0120
  | 4 => 0x0210
  | 5 => 0x0218
  | _ => parent

/-- Usage bits that fit a DTYPE (R184), at the positions of Table 10.6. -/
def dtypeUsage (dtype : Nat) : Nat :=
  if dtype ≤ 3 then 0x3F else if dtype ≤ 5 then 0x33 else 0x830

/-- FPARAM of a digest flow (Table 7.4). -/
def digestFparam (o : Op) (route : Nat) (fp : Bytes) : Option Final :=
  if route == 1 then
    let dt := byteAt fp 0
    let us := leAt fp 4 4
    failIf (dt == 0 || dt > 6) Status.paramRange 48
    <|> failIf (byteAt fp 1 == 0 || byteAt fp 1 > 3) Status.paramRange 49
    <|> failIf (byteAt fp 2 == 0 || byteAt fp 2 > 63) Status.paramRange 50
    <|> failIf (byteAt fp 3 > 1) Status.paramRange 51
    <|> failIf (us == 0 || us % 2 ^ 32 &&& (0xFFFFFFFF ^^^ dtypeUsage dt) != 0) Status.paramRange 52
    <|> checkFpZero fp 56
  else
    (if Op.isHmac o then failIf (byteAt fp 0 != 0 && (byteAt fp 0 < 8 || byteAt fp 0 > 64)) Status.paramRange 48
      else checkFpByte fp 48 none)
    <|> checkFpByte fp 49 none
    <|> checkFpByte fp 50 (if Op.isShake o || o == .hmacVerify then none else some [0, 1])
    <|> checkFpZero fp 51

/-! The parameter block P (R178) -/

/-- AREA of a digest message by its segment. -/
def digestArea (j : Job) (m : Msg) : Option Final :=
  let base := if m.seg == 1 then 48 else 40
  if m.seg ≤ 1 && Op.isShake j.op then
    failIf (leAt m.pBlock 0 4 == 0 || leAt m.pBlock 0 4 > 65536) Status.paramRange base
    <|> m.mustZero (base + 4) (60 - base)
  else if m.seg ≤ 1 && j.route == 1 then
    failIf (leAt m.pBlock 0 4 ≥ 2 ^ 30) Status.paramRange base
    <|> m.mustZero (base + 4) (60 - base)
  else m.mustZero base (64 - base)

/-- HMAC_VERIFY names its own TAG_LEN, which no key changes (R179). -/
def Job.tagNamed (j : Job) : Bool := j.op == .hmacVerify && byteAt j.fp 0 != 0

/-- LENGTH_INVALID of a digest opcode (R179). -/
def digestLengthBad (j : Job) : Bool :=
  match j.op with
  | .sha224 | .sha256 => j.total > 2 ^ 61 - 1
  | .hmacGenerate => (j.hash == .sha224 || j.hash == .sha256) && j.total > 2 ^ 61 - 65
  | .hmacVerify => ((j.hash == .sha224 || j.hash == .sha256) && j.total > 2 ^ 61 - 65) || j.total < j.macLen
  | _ => false

/-- The largest output of a message or segment (Table 7.3). -/
def digestLargest (j : Job) (m : Msg) : Nat :=
  if m.seg == 1 || m.seg == 2 || j.hold || j.op == .hmacVerify then 0
  else if j.route == 1 then 8
  else j.resultLen

/-- An HMAC key the opcode accepts (R174, R177, R183). -/
def digestAlgOk (o : Op) (route : Nat) (fp : Bytes) (alg : BitVec 16) (material : Bytes) : Bool :=
  match hmacHash alg with
  | none => false
  | some h =>
    14 ≤ material.length && material.length ≤ 192 &&
    (if route == 1 then o != .hmacGenerate || dtypeLen (byteAt fp 0) h.size ≤ h.size else byteAt fp 0 ≤ h.size)

/-- The built-in slot (Table 6.5). -/
def digestSlot (o : Op) : Nat :=
  match o with
  | .sha224 | .sha256 | .sha384 | .sha512 => 20
  | .hmacGenerate | .hmacVerify => 22
  | _ => 21

/-! Laps (R171, R172) -/

/-- Message bytes hashed: the input without the expected MAC of HMAC_VERIFY. -/
def Job.hashed (j : Job) : Nat := if j.op == .hmacVerify then j.total - j.macLen else j.total

/-- Compressions or permutations that h held bytes and n more cost; last adds the finalization. -/
def digestSteps (j : Job) (h n : Nat) (last : Bool) : Nat :=
  let b := j.hash.block
  if !last then (h + n) / b
  else
    let outer := bit (Op.isHmac j.op)
    if j.hash.isSha2 then ceilDiv (h + n + (if b == 64 then 9 else 17)) b + outer
    else if Op.isShake j.op then (h + n) / b + ceilDiv j.outLen b
    else (h + n) / b + 1 + outer

/-- Cycles of one step (Table 7.1). -/
def digestCycle (h : Hash) : Nat := match h with | .sha224 | .sha256 => 66 | .sha384 | .sha512 => 82 | _ => 24

/-- Engine time of a lap of n bytes with h bytes held. -/
def digestCycles (j : Job) (h n : Nat) (last : Bool) : Nat := digestCycle j.hash * digestSteps j h n last

/-- Input bytes the next lap of a digest message takes, of rest left in the message, text of them hashed, and whether it ends the
message (R172). A remainder that with its finalization needs more than one lap runs as two: the first takes 65,536 - B bytes with those
held, or all there are where the message has up to 8 fewer, and the second the rest, of which nothing need be left, and the
finalization (DEDUCED, log 63). -/
def digestTake (j : Job) (held rest text : Nat) (last : Bool) : Nat × Bool :=
  let b := j.hash.block
  if rest > 65536 then (65536, false)
  else if last && j.hash.isSha2 && digestSteps j held text true > 65536 / b then (min rest (65536 - b - held), false)
  else (rest, true)

/-! Key load (R129, R130, R175) -/

/-- What the key load of a lap leaves in the registers: keys A and B with H, K1 and K2, or in a digest engine the states of one
block over K0 xor ipad and one over K0 xor opad. -/
def Job.load (j : Job) : KeyRegs :=
  if j.op.kind == some 1 then
    let h := j.hash
    if Op.isHmac j.op then
      { KeyRegs.reset with padIn := h.step h.init (hmacPad h 0x36 j.key), padOut := h.step h.init (hmacPad h 0x5C j.key) }
    else KeyRegs.reset
  else
    let l := blockEnc j.alg j.key (zeros j.block)
    let k1 := subkeyDouble l
    { KeyRegs.reset with a := j.key, b := j.key2, h := fit 16 l, k1 := fit 16 k1, k2 := fit 16 (subkeyDouble k1) }

/-- The outer pass of HMAC from the outer pad state, over the pass buffer. -/
def outerPass (h : Hash) (padOut : List (BitVec 64)) (pass : Bytes) : Bytes :=
  let a := h.absorb padOut [] pass
  h.final a.1 a.2 (h.block + pass.length) 0

/-! One lap -/

/-- The digest of the message at its end; of HMAC the inner one, which stands in the pass buffer (R175). -/
def digestInner (j : Job) (c : Ctx) : Bytes :=
  j.hash.final c.hash c.buf (j.hashed + (if Op.isHmac j.op then j.hash.block else 0)) (if Op.isShake j.op then j.outLen else 0)

/-- One lap of a built-in digest program, with the pad-state registers: the context and the full digest or MAC at the last lap. -/
def digestLap (k : KeyRegs) (j : Job) (c : Ctx) (chunk : Bytes) (last : Bool) : Ctx × Bytes :=
  let h := j.hash
  let text := part chunk c.pos 0 j.hashed
  let first := c.hash.isEmpty
  let s1 := if first then (if Op.isHmac j.op then k.padIn else h.init) else c.hash
  let a := h.absorb s1 c.buf text
  let c1 := { c with hash := a.1, buf := a.2, pos := c.pos + chunk.length,
                     held := c.held ++ part chunk c.pos j.hashed j.total }
  if !last then (c1, [])
  else
    let inner := digestInner j c1
    let value := if Op.isHmac j.op then outerPass h k.padOut inner else inner
    if j.op == .hmacVerify then
      ({ c1 with fail := value.take j.macLen != c1.held }, [])
    else (c1, if Op.isHmac j.op && j.route == 0 then value.take j.macLen else value)

end Sys2Proof.Machine
end

