-- ==== Sys2Proof/Machine/Rsa.lean ====
section
/-! DEFINITION. RSA as RFC 8017 gives it, in the forms of Table 8.11: PKCS#1 v1.5 and PSS signatures and OAEP, with
e = 65537 and the input checks of Table 8.4. -/

namespace Sys2Proof.Machine

/-- HASH of Table 8.6. -/
def pkHash (code : Nat) : Hash := if code == 3 then .sha512 else if code == 2 then .sha384 else .sha256

/-- The DER prefix of DigestInfo for the hash (RFC 8017). -/
def digestInfo (code : Nat) : Bytes :=
  let tail : Nat × Nat × Nat := if code == 3 then (0x51, 3, 64) else if code == 2 then (0x41, 2, 48) else (0x31, 1, 32)
  [0x30, BitVec.ofNat 8 tail.1, 0x30, 0x0d, 0x06, 0x09, 0x60, 0x86, 0x48, 0x01, 0x65, 0x03, 0x04, 0x02,
    BitVec.ofNat 8 tail.2.1, 0x05, 0x00, 0x04, BitVec.ofNat 8 tail.2.2]

/-- MGF1 with a hash. -/
def mgf1 (h : Hash) (seed : Bytes) (n : Nat) : Bytes :=
  ((List.range (ceilDiv n h.size)).flatMap (fun i => h.run (seed ++ beBytes 4 i) 0)).take n

/-- EMSA-PKCS1-v1_5 of a digest, k bytes. -/
def emsaPkcs1 (code k : Nat) (digest : Bytes) : Bytes :=
  let t := digestInfo code ++ digest
  [0x00, 0x01] ++ List.replicate (k - 3 - t.length) 0xFF ++ [0x00] ++ t

/-- EMSA-PSS with a salt of hash length, for a modulus of 8k bits. -/
def emsaPss (code k : Nat) (digest salt : Bytes) : Bytes :=
  let h := pkHash code
  let hh := h.run (zeros 8 ++ digest ++ salt) 0
  let db := zeros (k - 2 * h.size - 2) ++ [0x01] ++ salt
  let masked := xorB db (mgf1 h hh (k - h.size - 1))
  (masked.take 1).map (· &&& 0x7F) ++ masked.drop 1 ++ hh ++ [0xBC]

/-- EMSA-PSS verification. -/
def pssVerify (code k : Nat) (digest em : Bytes) : Bool :=
  let h := pkHash code
  let masked := em.take (k - h.size - 1)
  let hh := slice em (k - h.size - 1) h.size
  let db := (xorB masked (mgf1 h hh (k - h.size - 1)))
  let db := (db.take 1).map (· &&& 0x7F) ++ db.drop 1
  let pad := k - 2 * h.size - 2
  let salt := db.drop (pad + 1)
  byteAt em (k - 1) == 0xBC && byteAt em 0 < 128 && allZero (db.take pad) && byteAt db pad == 1
    && h.run (zeros 8 ++ digest ++ salt) 0 == hh

/-- RSAES-OAEP encoding with an empty label. -/
def oaepEncode (code k : Nat) (m seed : Bytes) : Bytes :=
  let h := pkHash code
  let db := h.run [] 0 ++ zeros (k - m.length - 2 * h.size - 2) ++ [0x01] ++ m
  let mdb := xorB db (mgf1 h seed (k - h.size - 1))
  [0x00] ++ xorB seed (mgf1 h mdb h.size) ++ mdb

/-- RSAES-OAEP decoding; none when it fails. -/
def oaepDecode (code k : Nat) (em : Bytes) : Option Bytes :=
  let h := pkHash code
  let mdb := em.drop (1 + h.size)
  let seed := xorB (slice em 1 h.size) (mgf1 h mdb h.size)
  let db := xorB mdb (mgf1 h seed (k - h.size - 1))
  let rest := (db.drop h.size).dropWhile (· == 0)
  if byteAt em 0 == 0 && db.take h.size == h.run [] 0 && byteAt rest 0 == 1 then some (rest.drop 1) else none

/-- The modulus n of a key image or public key of k bytes. -/
def rsaN (k : Nat) (material : Bytes) : Nat := beNat (material.take k)

/-- The private operation by the Chinese remainder theorem on n ‖ p ‖ q ‖ dP ‖ dQ ‖ qInv. -/
def rsaPrivate (k : Nat) (material : Bytes) (c : Nat) : Nat :=
  let hk := k / 2
  let f (i : Nat) : Nat := beNat (slice material (k + i * hk) hk)
  let m1 := powMod c (f 2) (f 0)
  let m2 := powMod c (f 3) (f 1)
  m2 + f 1 * ((m1 + (f 0 - m2 % f 0)) * f 4 % f 0)

/-- The modulus check of Table 8.4. -/
def rsaModulusOk (k n : Nat) : Bool := n % 2 == 1 && n >>> (8 * k - 1) == 1

/-- The check of a ciphertext or signature of Table 8.4. -/
def rsaValueOk (n v : Nat) : Bool := 2 ≤ v && v < n

/-- RSA_SIGN: SCHEME 0 PKCS#1 v1.5, 1 PSS with the salt given. -/
def rsaSign (scheme code k : Nat) (material digest salt : Bytes) : Bytes :=
  let em := if scheme == 1 then emsaPss code k digest salt else emsaPkcs1 code k digest
  beBytes k (rsaPrivate k material (beNat em))

/-- RSA_VERIFY: none when Table 8.4 refuses n or s. -/
def rsaVerify (scheme code k : Nat) (nB digest sB : Bytes) : Option Bool :=
  let n := beNat nB
  let sv := beNat sB
  if rsaModulusOk k n && rsaValueOk n sv then
    let em := beBytes k (powMod sv 65537 n)
    some (if scheme == 1 then pssVerify code k digest em else em == emsaPkcs1 code k digest)
  else none

/-- RSA_ENCRYPT: none when Table 8.4 refuses n. -/
def rsaEncrypt (code k : Nat) (nB m seed : Bytes) : Option Bytes :=
  let n := beNat nB
  if rsaModulusOk k n then some (beBytes k (powMod (beNat (oaepEncode code k m seed)) 65537 n)) else none

/-- RSA_DECRYPT: none when Table 8.4 refuses c; else the decoding, itself none when it fails. -/
def rsaDecrypt (code k : Nat) (material c : Bytes) : Option (Option Bytes) :=
  let v := beNat c
  if rsaValueOk (rsaN k material) v then some (oaepDecode code k (beBytes k (rsaPrivate k material v))) else none

/-! Key pair generation (R193) -/

/-- Candidates for each prime of a modulus of k bytes. -/
def rsaBudget (k : Nat) : Nat := if k == 256 then 4096 else 8192

/-- The numbers that drawn bytes give as candidates for a prime of n bytes: odd, with the two highest bits set, so that the product
of two has all its bits (PRESUMED, log 7). -/
def rsaCandidates (n : Nat) (drawn : Bytes) : List Nat := (chunks n drawn).map (fun b => beNat b ||| 3 * 2 ^ (8 * n - 2) ||| 1)

/-- The sieve: no small divisor, and p - 1 prime to e = 65537. -/
def rsaSieve (p : Nat) : Bool :=
  (List.range Config.sieveBound).all (fun d => d < 2 || p % d != 0) && Nat.gcd (p - 1) 65537 == 1

/-- Powers of 2 in a number, and what is left of it; fuel bounds the divisions. -/
def oddPart : Nat → Nat → Nat × Nat
  | 0, m => (0, m)
  | f + 1, m => if m % 2 == 1 then (0, m) else ((oddPart f (m / 2)).1 + 1, (oddPart f (m / 2)).2)

/-- One Miller-Rabin round under a base (FIPS 186-5, Appendix B). -/
def millerRabin (p base : Nat) : Bool :=
  let am := oddPart (p.log2 + 1) (p - 1)
  let z := powMod (2 + base % (p - 3)) am.2 p
  z == 1 || (List.range am.1).any (fun i => powMod z (2 ^ i) p == p - 1)

/-- Rounds of the full test for a prime of n bytes (PRESUMED, FIPS 186-5, Appendix B, log 7). -/
def rsaRounds (n : Nat) : Nat := if n == 128 then 5 else 4

/-- The prime of a budget of candidates: the first that passes the sieve and one round, if it then passes the full number. None when
no candidate passes, or the one selected fails the full test (DESIGN CHOICE, log 7: R193 does not say what follows then). -/
def rsaPrime (n : Nat) (drawn : Bytes) : Option Nat :=
  ((rsaCandidates n drawn).find? (fun p => rsaSieve p && millerRabin p (Config.millerRabinBase p 0))).filter
    (fun p => (List.range (rsaRounds n)).all (fun i => millerRabin p (Config.millerRabinBase p (i + 1))))

/-- Bytes drawn for a pair with a modulus of k bytes: the budgets of both primes. -/
def rsaDraw (k : Nat) : Nat := 2 * rsaBudget k * (k / 2)

/-- The key image n ‖ p ‖ q ‖ dP ‖ dQ ‖ qInv of two primes. -/
def rsaImage (k p q : Nat) : Bytes :=
  let l := (p - 1) * (q - 1) / Nat.gcd (p - 1) (q - 1)
  let d := invMod 65537 l
  let hk := k / 2
  beBytes k (p * q) ++ beBytes hk p ++ beBytes hk q ++ beBytes hk (d % (p - 1)) ++ beBytes hk (d % (q - 1))
    ++ beBytes hk (invMod q p)

/-- A pair with a modulus of k bytes from the candidates drawn. -/
def rsaPair (k : Nat) (drawn : Bytes) : Option Bytes :=
  let half := rsaDraw k / 2
  match rsaPrime (k / 2) (drawn.take half), rsaPrime (k / 2) (drawn.drop half) with
  | some p, some q => some (rsaImage k p q)
  | _, _ => none

/-- The Montgomery constant of a modulus of k bytes, R² mod n with R = 2^(8k) (R197; the form is PRESUMED, log 65). -/
def rsaMontgomery (k : Nat) (n : Nat) : Bytes := beBytes k (2 ^ (16 * k) % n)

end Sys2Proof.Machine
end

