-- ==== Sys2Proof/Machine/PublicKey.lean ====
section
/-! DEFINITION. The public-key operations (R190 to R212): parameter sets, parameters, lengths and largest outputs of the
public-key opcodes, fixed engine time, the values drawn, and what each operation answers. -/

namespace Sys2Proof.Machine

/-! Parameter sets (Table 8.1) -/

/-- PSET codes built in. -/
def psets : List Nat := [0x01, 0x02, 0x03, 0x10, 0x11, 0x12, 0x20, 0x21, 0x30, 0x31, 0x40, 0x41]

/-- PSET of a public-key algorithm code (R238); 0 for others. -/
def algPset (alg : BitVec 16) : Nat := if alg.toNat / 256 == 4 then alg.toNat % 256 else 0

/-- Modulus size k of an RSA set. -/
def rsaSize (ps : Nat) : Nat := if ps == 1 then 256 else if ps == 2 then 384 else 512

def psetCurve (ps : Nat) : Curve := if ps == 0x10 then p256 else if ps == 0x11 then p384 else p521
def psetKem (ps : Nat) : KemSet := if ps == 0x30 then mlkem768 else mlkem1024
def psetDsa (ps : Nat) : DsaSet := if ps == 0x40 then mldsa65 else mldsa87

/-- Bytes of a public key. -/
def pubLen (ps : Nat) : Nat :=
  match ps with
  | 0x01 => 256
  | 0x02 => 384
  | 0x03 => 512
  | 0x10 => 65
  | 0x11 => 97
  | 0x12 => 133
  | 0x20 => 32
  | 0x21 => 32
  | 0x30 => 1184
  | 0x31 => 1568
  | 0x40 => 1952
  | 0x41 => 2592
  | _ => 0

/-- Bytes of a signature, or of a ciphertext for ML-KEM. -/
def sigLen (ps : Nat) : Nat :=
  match ps with
  | 0x01 => 256
  | 0x02 => 384
  | 0x03 => 512
  | 0x10 => 64
  | 0x11 => 96
  | 0x12 => 132
  | 0x21 => 64
  | 0x30 => 1088
  | 0x31 => 1568
  | 0x40 => 3309
  | 0x41 => 4627
  | _ => 0

/-- Bytes of the material of a pair (Table 10.5). -/
def pairLen (ps : Nat) : Nat :=
  match ps with
  | 0x01 | 0x02 | 0x03 => rsaSize ps * 7 / 2
  | 0x10 | 0x11 | 0x12 => (psetCurve ps).size + pubLen ps
  | 0x20 | 0x21 => 64
  | 0x30 => 2400
  | 0x31 => 3168
  | 0x40 => 4032 + 1952
  | 0x41 => 4896 + 2592
  | _ => 0

/-- Bytes of a shared secret. -/
def secretSize (ps : Nat) : Nat := match ps with | 0x11 => 48 | 0x12 => 66 | _ => 32

/-- Material that holds the private half. -/
def isPair (alg : BitVec 16) (material : Bytes) : Bool := algPset alg != 0 && material.length == pairLen (algPset alg)

/-- The public half of an object's material. -/
def publicHalf (alg : BitVec 16) (material : Bytes) : Bytes :=
  let ps := algPset alg
  if !isPair alg material then material
  else if ps ≤ 3 then material.take (rsaSize ps)
  else if ps == 0x30 || ps == 0x31 then kemEkOf (psetKem ps) material
  else material.drop (material.length - pubLen ps)

/-! Opcodes (Table 8.5) -/

/-- Parameter sets of an opcode's family. -/
def opPsets (o : Op) : List Nat :=
  match o with
  | .rsaSign | .rsaVerify | .rsaEncrypt | .rsaDecrypt => [1, 2, 3]
  | .ecdsaSign | .ecdsaVerify | .ecdh => [0x10, 0x11, 0x12]
  | .x25519 => [0x20]
  | .ed25519Sign | .ed25519Verify => [0x21]
  | .mlkemEncaps | .mlkemDecaps => [0x30, 0x31]
  | .mldsaSign | .mldsaVerify => [0x40, 0x41]
  | _ => []

/-- KEY_A may be none. -/
def Op.keyOptional (o : Op) : Bool :=
  match o with
  | .rsaVerify | .rsaEncrypt | .ecdsaVerify | .ed25519Verify | .mlkemEncaps | .mldsaVerify => true
  | _ => false

/-- The private half is needed (R191). -/
def Op.needsPrivate (o : Op) : Bool := o.family == 4 && !Op.keyOptional o

/-- ROUTE 1 is allowed (Table 8.5). -/
def Op.pkRoute1 (o : Op) : Bool :=
  match o with
  | .ecdh | .x25519 | .mlkemEncaps | .mlkemDecaps => true
  | _ => false

def Op.isRsa (o : Op) : Bool := match o with | .rsaSign | .rsaVerify | .rsaEncrypt | .rsaDecrypt => true | _ => false

/-- The parameter set of a message: PSET in P, or the one of KEY_A. -/
def Job.pset (j : Job) : Nat := if j.keyA.isSome then algPset j.alg else byteAt j.p 0
def Job.scheme (j : Job) : Nat := byteAt j.p 1
def Job.hashCode (j : Job) : Nat := byteAt j.p 2
def Job.ctxLen (j : Job) : Nat := byteAt j.p 3
def Job.attemptBase (j : Job) : Nat := leAt j.p 4 2
/-- h of Table 8.5. -/
def hashLen (code : Nat) : Nat := (pkHash code).size

/-! Parameters (R204, R205) -/

/-- P of a public-key message. hasKey: KEY_A, or the flow, names a key. PSET 0x00 without a key, which is not in Table 8.1 and names no
key's set either, is PARAM_RANGE (DESIGN CHOICE, log 67: R190 and R204 each name a status for it). -/
def pkArea (o : Op) (route : Nat) (hasKey : Bool) (m : Msg) : Option Final :=
  let b (i : Nat) : Nat := byteAt (m.area 40 16) i
  let mode := b 1
  let pure := mode ≤ 1
  failIf (if hasKey then b 0 != 0 else b 0 == 0 || (psets.contains (b 0) && !(opPsets o).contains (b 0)))
    Status.paramRange 40
  <|> (match o with
    | .rsaSign | .rsaVerify => failIf (b 1 > 1) Status.paramRange 41
    | .mldsaSign => failIf (b 1 > 3) Status.paramRange 41
    | .mldsaVerify => failIf (b 1 != 0 && b 1 != 2) Status.paramRange 41
    | _ => failIf (b 1 != 0) Status.reservedNonzero 41)
  <|> (if Op.isRsa o then failIf (b 2 == 0 || b 2 > 3) Status.paramRange 42
       else failIf (b 2 != 0) Status.reservedNonzero 42)
  <|> (match o with
    | .mldsaSign | .mldsaVerify => failIf (!pure && b 3 != 0) Status.paramRange 43
    | _ => failIf (b 3 != 0) Status.reservedNonzero 43)
  <|> (if o == .mldsaSign then
         let a := leAt (m.area 40 16) 4 2
         failIf (if mode % 2 == 1 then a % 16 != 0 || a > 1024 else a != 0) Status.paramRange 44
       else m.mustZero 44 2)
  <|> m.mustZero 46 2
  <|> (if route == 1 then failIf (m.field 48 4 ≥ 2 ^ 30) Status.paramRange 48 else m.mustZero 48 4)
  <|> m.mustZero 52 12

/-- FPARAM of a public-key flow (Table 8.7). -/
def pkFparam (o : Op) (route : Nat) (hasKey : Bool) (fp : Bytes) : Option Final :=
  if route == 1 then
    let us := leAt fp 4 4
    failIf (byteAt fp 0 > 3) Status.paramRange 48
    <|> failIf (byteAt fp 1 == 0 || byteAt fp 1 > 3) Status.paramRange 49
    <|> failIf (byteAt fp 2 == 0 || byteAt fp 2 > 63) Status.paramRange 50
    <|> failIf (byteAt fp 3 > 1 || (o == .mlkemEncaps && !hasKey && byteAt fp 3 == 0)) Status.paramRange 51
    <|> failIf (us == 0 || us &&& (0xFFFFFFFF ^^^ 0x830) != 0) Status.paramRange 52
    <|> checkFpZero fp 56
  else checkFpZero fp 48

/-- HMAC algorithm of a ROUTE 1 object (Table 8.7). -/
def route1Alg (j : Job) : BitVec 16 :=
  match byteAt j.fp 0 with
  | 1 => 0x0302
  | 2 => 0x0303
  | 3 => 0x0304
  | _ => if secretSize j.pset == 48 then 0x0303 else if secretSize j.pset == 66 then 0x0304 else 0x0302

/-! Lengths and largest output (Table 8.5) -/

/-- PSET names no built-in set. -/
def Job.psetUnknown (j : Job) : Bool := !psets.contains j.pset

/-- Public key bytes that lead the input. -/
def Job.lead (j : Job) : Nat := if j.keyA.isSome then 0 else pubLen j.pset

/-- The input length is not that of Table 8.5. -/
def pkLengthBad (j : Job) : Bool :=
  let ps := j.pset
  let l := j.total
  let h := hashLen j.hashCode
  let body := l - j.lead
  let msg (n : Nat) : Bool := if j.scheme ≤ 1 then n < j.ctxLen || n > j.ctxLen + 4096 else n != 64
  l < j.lead ||
  (match j.op with
  | .rsaSign => l != h
  | .rsaVerify => body != h + sigLen ps
  | .rsaEncrypt => body < 1 || body > rsaSize ps - 2 * h - 2
  | .rsaDecrypt => l != rsaSize ps
  | .ecdsaSign => l < 28 || l > 64
  | .ecdsaVerify => body < sigLen ps + 28 || body > sigLen ps + 64
  | .ecdh => l != pubLen ps
  | .x25519 => l != 32
  | .ed25519Sign => l > 4096
  | .ed25519Verify => body < 64 || body > 64 + 4096
  | .mlkemEncaps => body != 0
  | .mlkemDecaps => l != sigLen ps
  | .mldsaSign => msg l
  | .mldsaVerify => body < sigLen ps || msg (body - sigLen ps)
  | _ => false)

/-- The largest output (Table 8.5), and the output length of a refused input (R200). What a valid ciphertext of RSA_DECRYPT would have
given depends on its message; of a refused one the largest, k - 2h - 2, is taken (DESIGN CHOICE, log 66). -/
def pkLargest (j : Job) : Nat :=
  let ps := j.pset
  match j.op with
  | .rsaSign | .rsaEncrypt => rsaSize ps
  | .rsaDecrypt => rsaSize ps - 2 * hashLen j.hashCode - 2
  | .ecdsaSign | .ed25519Sign | .mldsaSign => sigLen ps
  | .ecdh | .x25519 | .mlkemDecaps => if j.route == 1 then 8 else secretSize ps
  | .mlkemEncaps => if j.route == 1 then 8 + sigLen ps else sigLen ps + 32
  | _ => 0

/-! Fixed engine time (Table 8.2) -/

/-- Cycles of key pair generation. -/
def generateCycles (ps : Nat) : Nat :=
  match ps with
  | 0x01 => 1280000000
  | 0x02 => 8200000000
  | 0x03 => 18850000000
  | 0x10 => 48000
  | 0x11 => 108000
  | 0x12 => 240000
  | 0x20 | 0x21 => 36000
  | 0x30 => 36000
  | 0x31 => 50400
  | 0x40 => 120000
  | _ => 192000

/-- Cycles of an operation of a data message. -/
def pkCycles (o : Op) (ps : Nat) : Nat :=
  let three (a b c : Nat) : Nat := if ps % 16 == 1 || ps == 0x10 then a else if ps == 2 || ps == 0x11 then b else c
  match o with
  | .rsaSign | .rsaDecrypt => three 312000 1000000 2300000
  | .rsaVerify | .rsaEncrypt => three 9600 21600 38400
  | .ecdsaSign | .ecdh => if ps == 0x10 then 48000 else if ps == 0x11 then 108000 else 240000
  | .ecdsaVerify => if ps == 0x10 then 96000 else if ps == 0x11 then 216000 else 480000
  | .x25519 | .ed25519Sign => 36000
  | .ed25519Verify => 96000
  | .mlkemEncaps => if ps == 0x30 then 42000 else 58800
  | .mlkemDecaps => if ps == 0x30 then 48000 else 67200
  | .mldsaSign => if ps == 0x40 then 1440000 else 2304000
  | .mldsaVerify => if ps == 0x40 then 180000 else 288000
  | _ => 0

/-- Operations the engines held by R29 may start: 260 µs or less at 1.2 GHz. -/
def pkShort (cycles : Nat) : Bool := cycles ≤ 312000

/-- Operations above 10 ms, of which at most 4 run at once (R194). -/
def pkLong (cycles : Nat) : Bool := cycles > 12000000

/-- Cycles of a signature and of its verification under a parameter set, as the internal world makes them (R198). -/
def signCycles (ps : Nat) : Nat :=
  if ps / 16 == 0 then pkCycles .rsaSign ps else if ps / 16 == 1 then pkCycles .ecdsaSign ps
  else if ps / 16 == 2 then pkCycles .ed25519Sign ps else pkCycles .mldsaSign ps
def verifyCycles (ps : Nat) : Nat :=
  if ps / 16 == 0 then pkCycles .rsaVerify ps else if ps / 16 == 1 then pkCycles .ecdsaVerify ps
  else if ps / 16 == 2 then pkCycles .ed25519Verify ps else pkCycles .mldsaVerify ps

/-- An operation of the internal world on these inputs. -/
def IntWork.on (cycles : Nat) (input : Bytes) : IntWork := { IntWork.reset with cycles := cycles, input := input }

/-- An identity signature for the owner of these inputs, and the verification of one: the ML-DSA-87 half, then the P-384 half (R279,
R406). -/
def State.idSignWork (s : State) (input : Bytes) : List IntWork :=
  [{ IntWork.on (signCycles 0x41) input with image := s.idMldsa.2 },
   { IntWork.on (signCycles 0x11) input with image := beBytes 48 s.idSecret }]
def idVerifyWork (input : Bytes) : List IntWork := [.on (verifyCycles 0x41) input, .on (verifyCycles 0x11) input]

/-! Random values (R207) -/

/-- Bytes drawn at dispatch of a data message. -/
def pkRandom (j : Job) : Nat :=
  match j.op with
  | .ecdsaSign => (psetCurve j.pset).secretLen
  | .rsaSign => if j.scheme == 1 then hashLen j.hashCode else 0
  | .rsaEncrypt => hashLen j.hashCode
  | .mlkemEncaps => 32
  | .mldsaSign => if j.scheme % 2 == 0 then 32 else 0
  | _ => 0

/-- Bytes drawn for key pair generation: seeds, and the candidates of an RSA generation (R193, R207). -/
def generateRandom (ps : Nat) : Nat :=
  match ps with
  | 0x01 | 0x02 | 0x03 => rsaDraw (rsaSize ps)
  | 0x10 | 0x11 | 0x12 => (psetCurve ps).secretLen
  | 0x20 | 0x21 => 32
  | 0x30 | 0x31 => 64
  | _ => 32

/-- Key pair generation: the material of the pair; none when no RSA candidate passes (R193). -/
def generatePair (ps : Nat) (rnd : Bytes) : Option Bytes :=
  match ps with
  | 0x01 | 0x02 | 0x03 => rsaPair (rsaSize ps) rnd
  | 0x10 | 0x11 | 0x12 =>
    let c := psetCurve ps
    let d := c.secret (c.trim rnd)
    some (beBytes c.size d ++ c.public d)
  | 0x20 => some (rnd ++ x25519Public rnd)
  | 0x21 => some (rnd ++ edPublic rnd)
  | 0x30 | 0x31 => some (kemKeyGen (psetKem ps) (rnd.take 32) (rnd.drop 32)).2
  | _ =>
    let k := dsaKeyGen (psetDsa ps) rnd
    some (k.2 ++ k.1)

/-! Operand memory (R196, R197) -/

/-- What the key load computes from a key image: the Montgomery constants of an RSA modulus. -/
def Job.montgomery (j : Job) : Bytes :=
  if Op.isRsa j.op && j.keyA.isSome then rsaMontgomery (rsaSize j.pset) (rsaN (rsaSize j.pset) j.key) else []

/-- Operand memory after the key load of an operation: kept tells that the image of KEY_A is already there. -/
def Job.operands (j : Job) (kept : Bool) (old : OpMem) (input rnd inter : Bytes) : OpMem :=
  { input := input, image := if kept then old.image else j.key, consts := if kept then old.consts else j.montgomery, random := rnd
    inter := inter }

/-- Operand memory of an internal-world operation: the image of its object's key, or of the identity's or receive key's, with the
Montgomery constants of an RSA modulus. -/
def IntWork.operands (w : IntWork) (rnd inter : Bytes) : OpMem :=
  let image := (w.key.map (·.material)).getD w.image
  let ps := (w.key.map (fun o => algPset o.alg)).getD 0
  { input := w.input, image := image, random := rnd, inter := inter
    consts := if 1 ≤ ps && ps ≤ 3 then rsaMontgomery (rsaSize ps) (rsaN (rsaSize ps) image) else [] }

/-- The job with the key image in operand memory. -/
def Job.withImage (j : Job) (image : Bytes) : Job := { j with keyA := j.keyA.map (fun x => { x with material := image }) }

/-! Operations -/

/-- What an operation ends with: its status, its output, and the shared secret of a ROUTE 1 opcode. -/
structure PkEnd where
  status : BitVec 16
  output : Bytes
  secret : Bytes
deriving DecidableEq, Repr

def PkEnd.ok (output : Bytes) : PkEnd := { status := Status.ok, output := output, secret := [] }
def PkEnd.verdict (v : Option Bool) : PkEnd :=
  match v with
  | none => { status := Status.pkInputRejected, output := [], secret := [] }
  | some true => PkEnd.ok []
  | some false => { status := Status.verifyFailed, output := [], secret := [] }

/-- A refused input: all-zero output of the length of a valid one, for RSA_DECRYPT the largest (R200; DESIGN CHOICE, log 66). -/
def PkEnd.rejected (j : Job) : PkEnd :=
  { status := Status.pkInputRejected, output := zeros (if j.route == 1 then 8 else pkLargest j), secret := [] }

/-- An agreement: the secret to the host, or kept for the new object. -/
def PkEnd.agreed (j : Job) (ct secret : Bytes) : PkEnd :=
  if j.route == 1 then { status := Status.ok, output := ct, secret := secret } else PkEnd.ok (ct ++ secret)

/-- The operation of a data message on its whole input with the values drawn. -/
def pkRun (j : Job) (input rnd : Bytes) : PkEnd :=
  let ps := j.pset
  let pub := if j.keyA.isSome then publicHalf j.alg j.key else input.take (pubLen ps)
  let x := input.drop j.lead
  let k := rsaSize ps
  let c := psetCurve ps
  let d := beNat (j.key.take c.size)
  let h := hashLen j.hashCode
  let mu (msg : Bytes) : Bytes := if j.scheme ≤ 1 then dsaMu (dsaTr pub) (msg.take j.ctxLen) (msg.drop j.ctxLen) else msg
  match j.op with
  | .rsaSign => PkEnd.ok (rsaSign j.scheme j.hashCode k j.key x rnd)
  | .rsaVerify => PkEnd.verdict (rsaVerify j.scheme j.hashCode k pub (x.take h) (x.drop h))
  | .rsaEncrypt =>
    match rsaEncrypt j.hashCode k pub x rnd with
    | some y => PkEnd.ok y
    | none => PkEnd.rejected j
  | .rsaDecrypt =>
    match rsaDecrypt j.hashCode k j.key x with
    | none => PkEnd.rejected j
    | some none => { status := Status.verifyFailed, output := [], secret := [] }
    | some (some y) => PkEnd.ok y
  | .ecdsaSign => PkEnd.ok (c.sign d (c.secret (c.trim rnd)) x)
  | .ecdsaVerify => PkEnd.verdict (c.verify pub (x.take (2 * c.size)) (x.drop (2 * c.size)))
  | .ecdh =>
    match c.ecdh d x with
    | some y => PkEnd.agreed j [] y
    | none => PkEnd.rejected j
  | .x25519 =>
    let y := x25519 (j.key.take 32) x
    if allZero y then PkEnd.rejected j else PkEnd.agreed j [] y
  | .ed25519Sign => PkEnd.ok (edSign (j.key.take 32) x)
  | .ed25519Verify => PkEnd.verdict (edVerify pub (x.take 64) (x.drop 64))
  | .mlkemEncaps =>
    if kemEkOk (psetKem ps) pub then
      let r := kemEncaps (psetKem ps) pub rnd
      PkEnd.agreed j r.1 r.2
    else PkEnd.rejected j
  | .mlkemDecaps => PkEnd.agreed j [] (kemDecaps (psetKem ps) j.key x)
  | .mldsaSign =>
    let rn := if j.scheme % 2 == 0 then rnd else zeros 32
    match dsaSign (psetDsa ps) j.key (mu x) rn j.attemptBase with
    | some y => PkEnd.ok y
    | none => { status := Status.signRetry, output := [], secret := [] }
  | .mldsaVerify =>
    let n := sigLen ps
    PkEnd.verdict (some (dsaVerify (psetDsa ps) pub (mu (x.drop n)) (x.take n)))
  | _ => PkEnd.ok []

/-- The algorithm of KEY_A fits a public-key opcode (R191, R202). -/
def pkAlgOk (o : Op) (alg : BitVec 16) (material : Bytes) : Bool :=
  (opPsets o).contains (algPset alg) && (!Op.needsPrivate o || isPair alg material)

end Sys2Proof.Machine
end

