-- ==== Sys2Proof/Machine/Random.lean ====
section
/-! DEFINITION. The random source (chapter 9): the tests of a window, conditioned blocks and the order in which they
serve generators, generators with their queues, the failure sequence, and when a request is served or held. -/

namespace Sys2Proof.Machine

/-! Generators (R218 to R221) -/

/-- The nonce and the personalization string of an instantiation (R219), little-endian as the module's other multi-byte
values (DEDUCED, log 11). -/
def State.drbgNonce (s : State) (g : Nat) : Bytes :=
  leBytes 4 s.prf.cycles ++ leBytes 4 s.rng.instCount.toNat ++ leBytes 2 g ++ zeros 6 ++ serialBytes s ++ leBytes 2 g

/-- A generator takes a conditioned block: instantiated when it has no state, reseeded otherwise (R219, R224). The
queue is left; a generator with no seed has an empty one. -/
def State.seedGen (s : State) (g : Nat) (block additional : Bytes) : State :=
  let x := s.rng.getGen g
  let fresh := x.key.isEmpty
  let kv := if fresh then drbgInit (block ++ s.drbgNonce g) else drbgReseed (x.key, x.v) (block ++ additional)
  let t := s.modGen g (fun x =>
    { x with seeded := true, marked := false, key := kv.1, v := kv.2, calls := 0, reinst := false,
             background := false, since := s.opTime,
             reseeds := if fresh then x.reseeds else satAdd 16 x.reseeds 1 })
  if fresh then { t with rng := { t.rng with instCount := t.rng.instCount + 1 } } else t

/-- A queue takes 1 KiB from one generate call (R221). -/
def State.refillGen (s : State) (g : Nat) : State :=
  let r := s.genBytes g 1024
  r.2.modGen g (fun x => { x with queue := x.queue ++ r.1 })

/-- The generator holds a seed. -/
def State.genSeeded (s : State) (g : Nat) : Bool := (s.rng.getGen g).seeded

/-- Bytes from a queue in one act (R221); none when it holds fewer. -/
def State.takeQueue (s : State) (g n : Nat) : Option (Bytes × State) :=
  let q := (s.rng.getGen g).queue
  if n ≤ q.length then some (q.take n, s.modGen g (fun x => { x with queue := q.drop n })) else none

/-- Bytes for a consumer inside the module: from the queue, or from a generate call made for them alone. -/
def State.drawBytes (s : State) (g n : Nat) : Bytes × State := (s.takeQueue g n).getD (s.genBytes g n)

/-- The random values that an owner's operations of the internal world drew at their dispatch; where none of n bytes was, they are drawn
now (R207). -/
def State.opBytes (s : State) (o : IntOwner) (n : Nat) : Bytes × State :=
  match s.sch.internal.find? (fun x => x.owner == o && x.ended && x.random.length == n && n != 0) with
  | some x => (x.random, { s with sch := { s.sch with internal := s.sch.internal.map (fun y =>
      if y.id == x.id then { y with random := [] } else y) } })
  | none => s.drawBytes 259 n

/-! Registers (R231) -/

def Rng.seededCount (r : Rng) : Nat := (r.gens.toList.filter Gen.seeded).length

/-- RNG_STAT. -/
def Rng.stat (r : Rng) : Nat :=
  r.cellFail.toNat * 2 ^ 24 + r.retries * 2 ^ 22 + r.phase * 2 ^ 16 + r.seededCount

/-! Windows (R214 to R216) -/

def livenessFails (c : Nat × Nat) : Bool := c.2 < 128 || c.2 > 896
def lockFails (c : Nat × Nat) : Bool := c.1 < 4

/-- The cells whose window fails a test, as CELL_FAIL. -/
def cellMask (cells : List (Nat × Nat)) : BitVec 8 :=
  BitVec.ofNat 8 (((List.range 8).map (fun i =>
    if ((cells[i]?).map (fun c => livenessFails c || lockFails c)).getD false then 2 ^ i else 0)).foldl (· + ·) 0)

/-- A window noted in RNG_CELL, RNG_FAILS and, when it fails, CELL_FAIL. -/
def Rng.window (r : Rng) (cells : List (Nat × Nat)) : Rng :=
  let mask := cellMask cells
  { r with
    cells := cells.map (fun c => (min c.1 0xFFFF, min c.2 1023))
    failLock := satAdd 16 r.failLock (cells.filter lockFails).length
    failLive := satAdd 16 r.failLive (cells.filter livenessFails).length
    cellFail := if mask == 0 then r.cellFail else mask }

/-! Failure and recovery (R224 to R227) -/

/-- The record of the random source (Table 19.4). -/
def State.rngRecord (s : State) : State := s.record 0x0901 0 3 (pay s.rng.stat 0 0)

/-- Vector 1 of every virtual function with rings on (R224). -/
def State.raiseVfs (s : State) : State :=
  ((List.range 256).filter (fun n => n != 0 && (s.getInst n).rings.ringOn)).foldl (fun t n => t.raise n 1) s

/-- A generator loses its seed to a health-test failure and keeps its state for the reseed. -/
def Gen.fail (g : Gen) : Gen :=
  { g with queue := [], cause := g.cause || g.seeded, seeded := false, marked := true, background := false }

/-- A generate call under way for one request is discarded and the request held (R221). -/
def MsgRec.holdCall (r : MsgRec) : MsgRec := if r.phase == .genCall then { r with phase := .rngWait } else r

/-- Steps 1 to 3 of Table 9.3 and the stop of step 4. -/
def State.healthFailure (s : State) : State :=
  let t := { s with
    rng := { s.rng with phase := 4, recover := true, stopped := true, testing := false,
                        gens := s.rng.gens.map Gen.fail }
    sch := { s.sch with msgs := s.sch.msgs.map MsgRec.holdCall } }
  (t.rngRecord.raise 0 6).raiseVfs

/-- The failed state (R225). Held requests end when the pump of the pipeline sees phase 5. -/
def State.sourceFailed (s : State) : State :=
  let t := { s with rng := { s.rng with phase := 5, stopped := false, testing := false,
                                        failed := satAdd 16 s.rng.failed 1 } }
  t.rngRecord.raise 0 6

/-- Phase 3 when every generator holds a seed and no queue is below 3 KiB: those of the instances at the start, and every one at
step 6 of a recovery (Tables 9.2 and 9.3). -/
def State.rngSettle (s : State) : State :=
  let full := s.rng.gens.toList.all Gen.seeded
    && (s.rng.gens.toList.take (if s.rng.recover then 260 else 256)).all (fun g => g.queue.length ≥ 3072)
  if s.rng.phase == 2 && full then
    let t := { s with rng := { s.rng with phase := 3, recover := false } }
    if s.rng.recover then (t.rngRecord.raise 0 6) else t
  else s

/-- Every queue and generator state wiped, all instantiated again as from step 3 of Table 9.2 (R227). A source in its
failure sequence or in the failed state stays there. -/
def State.wipeGens (s : State) : State :=
  let wipe (g : Gen) : Gen := { Gen.reset with reseeds := g.reseeds }
  let r := { s.rng with gens := s.rng.gens.map wipe }
  { s with
    rng := if r.phase == 0 || r.phase ≥ 4 then r else { r with phase := 1, testing := true, recover := false }
    sch := { s.sch with msgs := s.sch.msgs.map MsgRec.holdCall } }

/-- What the random source counts since power-up (R219, R231); all else is at reset. -/
def Rng.counted (r : Rng) : Rng :=
  { Rng.reset with
    failLock := r.failLock, failLive := r.failLive, failed := r.failed, restarts := r.restarts, instCount := r.instCount
    gens := r.gens.map (fun g => { Gen.reset with reseeds := g.reseeds }) }

/-- The random stage begins (step 1 of Table 9.2). -/
def State.startRandom (s : State) : State := { s with rng := { s.rng.counted with phase := 1, testing := true } }

/-- A function-level reset of instance n (R227, R231). A generator that held a seed has lost it last to the reset, no health-test failure
(R223). -/
def State.flrGen (s : State) (n : Nat) : State :=
  s.modGen n (fun g => { Gen.reset with reseeds := g.reseeds, cause := g.cause && !g.seeded, reinst := s.rng.phase == 3, marked := s.rng.phase != 3 })

/-! Requests (R220, R221, R223, R226, R228, R229) -/

/-- RANDOM_GENERATE with prediction resistance, and RANDOM_RESEED: served by a conditioned block of its own. -/
def MsgRec.wantsBlock (r : MsgRec) : Bool :=
  match r.op with
  | .randomReseed => true
  | .randomGenerate => r.m.field 44 1 == 1
  | _ => false

/-- The oldest request of a generator that waits for a block, once the source is healthy; a pause holds it (R121). -/
def State.blockRequest (s : State) (g : Nat) : Option MsgRec :=
  if s.rng.phase == 3 && s.genSeeded g then
    s.sch.msgs.find? (fun r => r.phase == .rngWait && r.gen == g && r.wantsBlock && !s.holdsBack r)
  else none

/-- A generator needs a block before it can serve. -/
def State.genNeeds (s : State) (g : Nat) : Bool := !s.genSeeded g || (s.blockRequest g).isSome

/-- A generator has requests held. -/
def State.genHeld (s : State) (g : Nat) : Bool := s.sch.msgs.any (fun r => r.phase == .rngWait && r.gen == g)

/-- The order of R220. Among the generators of a function-level reset, and among background reseeds, the lowest number is first
(DESIGN CHOICE, log 62: the rule orders neither). -/
def State.nextGen (s : State) : Option Nat :=
  ([257, 256, 258, 259].find? s.genNeeds)
  <|> ((List.range 256).find? (fun g => s.genNeeds g && (s.rng.getGen g).reinst))
  <|> ((List.range 256).find? (fun g => s.genNeeds g && s.genHeld g))
  <|> ((List.range 256).find? s.genNeeds)
  <|> ((List.range 260).find? (fun g => (s.rng.getGen g).background))

/-- The request served by a block: a reseed flushes the queue and completes; prediction resistance starts its call. -/
inductive BlockServed where
  | none
  | reseeded (id : Nat)
deriving DecidableEq, Repr

/-- A conditioned block reaches the next generator (R217, R219, R220, R228, R229). -/
def State.takeBlock (s : State) (raw : Bytes) : State × BlockServed :=
  let block := sha256 raw
  match s.nextGen with
  | none => (s, .none)
  | some g =>
    match s.blockRequest g with
    | none => ((s.seedGen g block []).rngSettle, .none)
    | some r =>
      if r.op == .randomReseed then
        (((s.seedGen g block r.m.input).modGen g (fun x => { x with queue := [] })), .reseeded r.id)
      else ((s.seedGen g block []).modMsg r.id (fun r => { r with phase := .genCall }), .none)

/-- How a request for bytes of a generator fares (R221, R223, R225). -/
inductive Served where
  /-- Its bytes were in the queue. -/
  | bytes (b : Bytes) (s : State)
  /-- A generate call made for it alone is under way. -/
  | call
  /-- Its generator holds no seed. -/
  | hold
  /-- The source has failed. -/
  | fault

/-- A request of n bytes. -/
def State.request (s : State) (g n : Nat) : Served :=
  if s.rng.phase == 5 then .fault
  else if !s.genSeeded g then .hold
  else match s.takeQueue g n with
    | some r => .bytes r.1 r.2
    | none => .call

/-- Key generation needs a healthy source (R226): true when it ends with RNG_FAULT. In warm-up it is held or served
like any other request. -/
def State.keyGenFault (s : State) (g : Nat) : Bool :=
  s.rng.phase ≥ 4 || (s.rng.phase == 2 && s.rng.recover) || (s.rng.phase == 3 && (s.rng.getGen g).marked)

/-- A request is held: its generator holds no seed, or it needs a block of a source that is not in phase 3 (R223, R228, R229). One that
waits for its block of a healthy source, or that a pause alone keeps back, is not. -/
def State.heldRequest (s : State) (r : MsgRec) : Bool :=
  r.phase == .rngWait && (!s.genSeeded r.gen || (r.wantsBlock && s.rng.phase != 3))

/-- The status of a held request at its wait limit (R223). -/
def State.waitStatus (s : State) (g : Nat) : BitVec 16 :=
  if (s.rng.getGen g).cause then Status.rngFault else Status.rngWarming

/-! The rows of the random source, but for what they do to messages -/

/-- NOISE_WINDOW (R216, R222, R224, R225). -/
def State.noiseWindow (s : State) (cells : List (Nat × Nat)) (katPass : Bool) : State :=
  if s.rng.phase == 0 || s.rng.stopped then s
  else if s.rng.phase == 1 && !s.rng.kat && !katPass then s.sourceFailed
  else
    let t := { s with rng := { s.rng.window cells with kat := true } }
    let bad := cellMask cells != 0
    match s.rng.phase with
    | 5 => t
    | 4 =>
      if !bad then ({ t with rng := { t.rng with phase := 2, testing := false, retries := 0 } }).rngSettle
      else
        let u := { t with rng := { t.rng with retries := t.rng.retries + 1 } }
        if u.rng.retries ≥ 3 then u.sourceFailed
        else { u with rng := { u.rng with stopped := true, testing := false } }
    | 1 =>
      if bad then t.healthFailure else { t with rng := { t.rng with phase := 2, testing := false } }
    | _ => if bad then t.healthFailure else t

/-- OSCILLATOR_RESTART (step 4 of Table 9.3). -/
def State.oscillatorRestart (s : State) : State :=
  if s.rng.phase == 4 && s.rng.stopped then
    { s with rng := { s.rng with stopped := false, testing := true, restarts := satAdd 16 s.rng.restarts 1 } }
  else s

/-- A write of RNG_CTL.RETEST (R225). -/
def State.retest (s : State) : State :=
  if s.rng.phase == 5 then
    { s with rng := { s.rng with phase := 4, recover := true, stopped := true, testing := false, retries := 0 } }
  else s

/-- DRBG_RESEED_DUE (R219): 65,536 generate calls, or 60 s since the last reseed. -/
def State.reseedDue (s : State) (g : Nat) : State :=
  let x := s.rng.getGen g
  if x.seeded && !x.background then
    let t := s.modGen g (fun x => { x with background := true })
    if x.calls ≥ 65536 then t else t.advance (x.since + 60000)
  else s

/-- QUEUE_REFILL (R221). -/
def State.queueRefill (s : State) (g : Nat) : State :=
  let x := s.rng.getGen g
  if x.seeded && x.queue.length < 3072 then (s.refillGen g).rngSettle else s

end Sys2Proof.Machine
end

