-- ==== Sys2Proof/Machine/Objects.lean ====
section
/-! DEFINITION. Key objects and the vault's commits (R234 to R248): records, units and check values, sealed images,
placement, internal objects, the checks of a use and of a creation, what each change of a commit does, and batches. -/

namespace Sys2Proof.Machine

/-! Objects (R234 to R240) -/

/-- Numbers of internal objects, and the number never assigned (Table 10.2). -/
def internalNumber (num : Nat) : Bool := num ≥ 0x3FFFFF00

/-- k of R236. -/
def unitsOf (n : Nat) : Nat := ceilDiv (n + 144) 256
def Obj.units (o : Obj) : Nat := unitsOf o.material.length

/-- The public key of a public-key object. -/
def Obj.publicKey (o : Obj) : Bytes := if o.pair then publicHalf o.alg o.material else o.material

/-- The check value of R240. -/
def Obj.check (o : Obj) : Bytes := checkValue o.alg o.material o.publicKey

/-- An internal object (Table 10.2). -/
def Obj.internal (o : Obj) : Bool := internalNumber (handleNumber o.handle)

/-- Record bytes 0 to 95 (Table 10.4). -/
def Obj.header (o : Obj) : Bytes :=
  leBytes 2 o.alg.toNat ++ leBytes 2 o.material.length ++ leBytes 4 o.usage.toNat ++ leBytes 1 o.world
    ++ leBytes 1 o.lcmask.toNat ++ leBytes 1 (bit o.pair + 2 * bit o.exportable + 4 * bit o.internal) ++ leBytes 1 o.origin
    ++ leBytes 4 o.version ++ leBytes 8 o.validFrom ++ leBytes 8 o.validUntil ++ fit 3 o.kcv ++ zeros 5
    ++ leBytes 32 o.insts.toNat ++ leBytes 8 o.created ++ zeros 16

/-- What OBJECT_INFO returns (R265). -/
def Obj.info (o : Obj) : Bytes := leBytes 5 o.handle ++ leBytes 1 o.units ++ [0x01, 0x00] ++ o.header

/-- The seal prefix (Table 10.3, bytes 0 to 31). -/
def Obj.sealPrefix (o : Obj) : Bytes :=
  leBytes 5 o.handle ++ leBytes 1 o.units ++ [0x01, 0x00] ++ leBytes 8 o.seq ++ leBytes 4 o.index ++ zeros 12

/-- The record as it is sealed: Table 10.4, zeros after the material. -/
def Obj.recordBytes (o : Obj) : Bytes := fit (o.units * 256 - 48) (o.header ++ o.material)

/-- The sealed image (R236): the prefix is the additional data and SEQ, INDEX the IV. -/
def Obj.image (key : Bytes) (o : Obj) : Bytes :=
  let c := gcmSeal key (leBytes 8 o.seq ++ leBytes 4 o.index) o.sealPrefix o.recordBytes
  o.sealPrefix ++ c.1 ++ c.2

/-- An image unsealed: its record, when the tag and the HANDLE are right (R244). -/
def openImage (key : Bytes) (h : Nat) (b : Bytes) : Option Bytes :=
  let n := b.length - 16
  if leAt b 0 5 == h then gcmOpen key (slice b 8 12) (b.take 32) (slice b 32 (n - 32)) (b.drop n) else none

/-- Objects of a domain, their units, and the units in use, internal objects among them (DEDUCED, log 13: R236 gives every
object units and Table 10.2 calls internal records objects). -/
def State.domainObjs (s : State) (d : Nat) : List Obj := s.vlt.objs.filter (fun o => handleDomain o.handle == d)
def sumUnits (l : List Obj) : Nat := (l.map Obj.units).foldl (· + ·) 0
def State.domainUnits (s : State) (d : Nat) : Nat := sumUnits (s.domainObjs d)
def State.vaultUnits (s : State) : Nat := sumUnits s.vlt.objs

/-! Placement (R242) -/

/-- The low 27 bits of AES-256 of (handle, tag, zeros) under the placement key, read little-endian (DEDUCED, log 13). -/
def pageHash (key : Bytes) (h tag : Nat) : Nat := leNat (aesEnc key (leBytes 5 h ++ leBytes 1 tag ++ zeros 10)) % 2 ^ 27

/-- The two candidate pages of a handle. -/
def State.candidates (s : State) (h : Nat) : Nat × Nat :=
  let p1 := pageHash s.vlt.placement h 1
  let p2 := pageHash s.vlt.placement h 2
  (p1, if p1 == p2 then p1 ^^^ 1 else p2)

def freeIn (objs : List Obj) (page : Nat) : Nat := 64 - sumUnits (objs.filter (fun o => o.page == page))

/-- The other candidate page of an object. -/
def State.otherPage (s : State) (o : Obj) : Nat :=
  let c := s.candidates o.handle
  if o.page == c.1 then c.2 else c.1

/-- Move objects of a page to their other candidates until k positions are free, at most m of them (DESIGN CHOICE, log
13: the specification says the module may): the objects after it and the moves left. -/
def State.makeRoom (s : State) (page k : Nat) : Nat → List Obj → List Obj × Nat
  | 0, objs => (objs, 0)
  | m + 1, objs =>
    if freeIn objs page ≥ k then (objs, m + 1)
    else match objs.find? (fun o => o.page == page && s.otherPage o != page && freeIn objs (s.otherPage o) ≥ o.units) with
      | some o => s.makeRoom page k m (objs.map (fun x => if x.handle == o.handle then { x with page := s.otherPage o } else x))
      | none => (objs, m + 1)

/-- A page for k units of a handle, with the objects after any relocation and the relocations left to the commit; none
when there is no room. -/
def State.place (s : State) (objs : List Obj) (h k : Nat) : Option (Nat × List Obj × Nat) :=
  let c := s.candidates h
  let best := if freeIn objs c.2 > freeIn objs c.1 then c.2 else c.1
  if freeIn objs best ≥ k then some (best, objs, s.vlt.moves)
  else
    let m1 := s.makeRoom c.1 k s.vlt.moves objs
    if freeIn m1.1 c.1 ≥ k then some (c.1, m1)
    else
      let m2 := s.makeRoom c.2 k s.vlt.moves objs
      if freeIn m2.1 c.2 ≥ k then some (c.2, m2) else none

/-- Objects by rising handle. -/
def insertObj (o : Obj) : List Obj → List Obj
  | [] => [o]
  | x :: r => if o.handle < x.handle then o :: x :: r else if o.handle == x.handle then o :: r else x :: insertObj o r

/-! Creation (R185, R235) -/

/-- A number in use or reserved, or internal (OBJECT_EXISTS). -/
def State.numberTaken (s : State) (h : Nat) : Bool :=
  internalNumber (handleNumber h) || (s.findObj h).isSome || s.vlt.reserved.contains h

/-- The next number after n that is free, in the range of R235; fuel bounds the numbers in use. -/
def State.freeNumberF (s : State) (d : Nat) : Nat → Nat → Nat
  | 0, n => n
  | f + 1, n =>
    if s.numberTaken (mkHandle d n) then s.freeNumberF d f (if n ≥ 0x3FFFFEFF then 0x20000000 else n + 1) else n

/-- The assignment counter of a domain. -/
def State.assignCounter (s : State) (d : Nat) : Nat :=
  ((s.vlt.assignNext.find? (fun p => p.1 == d)).map (·.2)).getD 0x20000000

/-- Every number of the assigned range is in use (R235). -/
def State.rangeFull (s : State) (d : Nat) : Bool :=
  ((s.domainObjs d).filter (fun o => handleNumber o.handle ≥ 0x20000000 && !o.internal)).length == 0x1FFFFF00

/-- The tests of R185 and R235 on OBJECT, in order. -/
def State.checkNew (s : State) (d num : Nat) : Option Final :=
  failIf (s.vlt.state == 3) Status.vaultReadOnly 0
  <|> (if num == 0x3FFFFFFF then failIf (s.rangeFull d) Status.vaultFull 3
       else failIf (s.numberTaken (mkHandle d num)) Status.objectExists 0)

/-- Reserve the number of a creation: the handle and the state with it reserved (R185, R235). -/
def State.reserve (s : State) (d num : Nat) : Nat × State :=
  if num == 0x3FFFFFFF then
    let n := s.freeNumberF d (s.vlt.objs.length + s.vlt.reserved.length + 1) (s.assignCounter d)
    let h := mkHandle d n
    (h, { s with vlt := { s.vlt with
      reserved := s.vlt.reserved ++ [h]
      assignNext := assign s.vlt.assignNext d (if n ≥ 0x3FFFFEFF then 0x20000000 else n + 1) } })
  else
    let h := mkHandle d num
    (h, { s with vlt := { s.vlt with reserved := s.vlt.reserved ++ [h] } })

/-! Use (R97, R241, R250) -/

/-- Read an object for use: KEY_NOT_FOUND for none or an internal one, VAULT_INTEGRITY for one whose image is lost. -/
def State.readObj (s : State) (h : Nat) : Final ⊕ Obj :=
  match if internalNumber (handleNumber h) then none else s.findObj h with
  | none => .inl (Final.plain Status.keyNotFound)
  | some o => if s.vlt.badHandles.contains h then .inl (Final.plain Status.vaultIntegrity) else .inr o

/-- The bit of the present life-cycle state in LCMASK. -/
def State.lcBit (s : State) : BitVec 8 := if s.lc ≤ 5 then (1 : BitVec 8) <<< s.lc else 0

/-- The rights of a use after the algorithm check (R97, R241): usage bit, instance, world, life cycle, validity. -/
def State.checkRights (s : State) (n usageBit world : Nat) (o : Obj) : Option Final :=
  failIf (!o.usage.getLsbD usageBit) Status.usageNotPermitted 0
  <|> failIf (!o.insts.getLsbD n) Status.instanceNotPermitted 0
  <|> failIf (o.world &&& world == 0) Status.worldNotPermitted 0
  <|> failIf (o.lcmask &&& s.lcBit == 0) Status.keyLifecycle 0
  <|> failIf (s.seconds < o.validFrom || s.seconds ≥ o.validUntil) Status.keyValidity 0

/-- A key for use by instance n: the checks of R97 step 8 up to the policy. -/
def State.checkKey (s : State) (n h usageBit world : Nat) (algOk : Obj → Bool) : Final ⊕ Obj :=
  match s.readObj h with
  | .inl f => .inl f
  | .inr o =>
    if !algOk o then .inl (Final.plain Status.keyAlgorithm)
    else match s.checkRights n usageBit world o with
      | some f => .inl f
      | none => .inr o

/-- What a flow, template or message keeps of a key. -/
def Obj.ref (o : Obj) : KeyRef :=
  { handle := o.handle, version := o.version, validFrom := o.validFrom, validUntil := o.validUntil, alg := o.alg,
    usage := o.usage, insts := o.insts, material := o.material }

/-! The changes of a commit (R245, R266, R267, R282, R303) -/

/-- What a change does: a refusal, or the state after it and the output it settles. -/
abbrev Applied := Final ⊕ (State × Option Bytes)

/-- An object sealed by commit seq at an index, in place of one of so many units, within the domain's quota, which binds only what adds
units (R303), and in a page with room. -/
def State.sealOver (s : State) (o : Obj) (seq index old : Nat) : Final ⊕ State :=
  let d := handleDomain o.handle
  let present := ((s.findObj o.handle).map Obj.units).getD 0
  let quota := ((s.domRec d).map (·.unitQuota)).getD 0
  let rest := s.vlt.objs.filter (fun x => x.handle != o.handle)
  if o.units > old && quota != 0 && s.domainUnits d - present + o.units > quota then
    .inl (Final.refuse Status.vaultFull 1)
  else
    let keep := match s.findObj o.handle with
      | some x => if freeIn rest x.page ≥ o.units then some (x.page, rest, s.vlt.moves) else none
      | none => none
    match keep <|> s.place rest o.handle o.units with
    | none => .inl (Final.refuse Status.vaultFull 0)
    | some (page, objs, moves) =>
      let sealed := { o with kcv := o.check, page := page, seq := seq, index := index }
      .inr { s with vlt := { s.vlt with objs := insertObj sealed objs, moves := moves
                                        badHandles := s.vlt.badHandles.filter (· != o.handle) } }

/-- An object sealed in place of any older version. -/
def State.seal (s : State) (o : Obj) (seq index : Nat) : Final ⊕ State :=
  s.sealOver o seq index (((s.findObj o.handle).map Obj.units).getD 0)

/-- The version of an object fits EXPECT_VERSION (R266). -/
def versionOk (o : Obj) (expect : Nat) : Bool := expect == 0 || expect == o.version

/-- The attributes a restriction leaves; none when one of its values is no subset (R267). A cleared usage bit that is
already clear changes nothing (DEDUCED, log 21). -/
def Obj.restrict (o : Obj) (b : Bytes) : Option Obj :=
  let clear := BitVec.ofNat 32 (leAt b 0 4)
  let world := byteAt b 4
  let mask := BitVec.ofNat 8 (byteAt b 5)
  let until_ := leAt b 8 8
  let insts := BitVec.ofNat 256 (leAt b 16 32)
  let w := if world == 0 then o.world else world
  let m := if mask == 0 then o.lcmask else mask
  let u := if until_ == 0 then o.validUntil else until_
  let i := if insts == 0 then o.insts else insts
  if w &&& o.world != w || m &&& ~~~o.lcmask != 0 || u > o.validUntil || i &&& ~~~o.insts != 0
  then none
  else some { o with usage := o.usage &&& ~~~clear, world := w, lcmask := m, validUntil := u, insts := i }

/-- VERSION at its limit (R241). -/
def versionLimit : Nat := 0xFFFFFFFF

/-- A chain record committed: COMMITTED and the latest checkpoint; the head in QDR goes on (R348). -/
def Chain.committed (y c : Chain) : Chain :=
  let y := { y with commCount := c.commCount, commTime := c.commTime, commHead := c.commHead, commResumes := c.commResumes
                    body := c.body, sealVal := c.sealVal, prevCount := c.prevCount, prevHead := c.prevHead
                    due := y.due.filter (fun x => x.1 > c.commCount), blocked := none }
  -- A commit under way when the head was lost moves the head that returned to COMMITTED; its resumption is still to come (R350;
  -- DEDUCED, log 75).
  if y.resumeDue && c.commResumes != y.resumes then { y with count := c.commCount, time := c.commTime, head := c.commHead }
  else { y with resumeDue := false }

/-! Internal objects (R302, R343, R364): the layouts of their material are the model's (DESIGN CHOICE, log 13) -/

/-- The domain record: roster block, PROHIBIT, AUTHKIND and quotas. -/
def DomRec.material (r : DomRec) : Bytes :=
  fit 1024 (r.roster.flatMap (fun e => fit 48 e.digest ++ leBytes 1 e.keyAlg ++ leBytes 1 e.roles.toNat ++ zeros 14))
    ++ leBytes 4 r.prohibit.toNat ++ leBytes 1 r.authKind ++ zeros 3 ++ leBytes 8 r.unitQuota ++ leBytes 4 r.flowLimit

/-- A chain record: COMMITTED, the seal key, the instances and the latest checkpoint. -/
def Chain.material (c : Chain) : Bytes :=
  leBytes 1 c.num ++ leBytes 8 c.commCount ++ leBytes 8 c.commTime ++ fit 48 c.commHead ++ leBytes 4 c.commResumes
    ++ leBytes 32 c.insts.toNat ++ leBytes 5 c.sealKey ++ leBytes 8 c.prevCount ++ fit 48 c.prevHead ++ c.body ++ c.sealVal

/-- Labels in one object of the label table. -/
def labelsEach : Nat := 600

/-- The internal objects that hold what a domain's record holds: number and material. Domain 0 keeps its roster and policy
in the PRF (R301). Numbers and layouts are the model's (DESIGN CHOICE, log 13: Table 10.2 gives the range alone). -/
def DomRec.internals (r : DomRec) (d : Nat) : List (Nat × Bytes) :=
  (if d == 0 then [] else (0x3FFFFF00, r.material) :: (if r.authKey.isEmpty then [] else [(0x3FFFFF01, r.authKey)]))
    ++ r.chains.map (fun c => (0x3FFFFF40 + c.num, c.material))
    ++ (List.range (ceilDiv r.labels.length labelsEach)).map (fun i =>
        (0x3FFFFF80 + i, ((r.labels.drop (i * labelsEach)).take labelsEach).flatMap (fun p => fit 8 p.1 ++ leBytes 5 p.2)))

/-- An internal object (R237, R238). -/
def State.internalObj (s : State) (d num : Nat) (m : Bytes) (old : Option Obj) : Obj :=
  { Obj.reset with
    handle := mkHandle d num, alg := 0x0700, world := 2, lcmask := 0x3F, origin := 1, validUntil := 2 ^ 64 - 1
    version := (old.map (·.version)).getD 0 + 1, created := (old.map (·.created)).getD s.seconds, material := m }

/-- Seal the internal objects of a list that are not stored as they should be; old are the objects they follow. -/
def State.sealInternals (s : State) (d seq : Nat) (old : List Obj) : List (Nat × Bytes) → Nat → Final ⊕ State
  | [], _ => .inr s
  | (num, m) :: r, i =>
    let h := mkHandle d num
    if (s.findObj h).any (fun o => o.material == m) then s.sealInternals d seq old r i
    else match s.sealOver (s.internalObj d num m (old.find? (fun o => o.handle == h))) seq i
        (((old.find? (fun o => o.handle == h)).map Obj.units).getD 0) with
      | .inl f => .inl f
      | .inr t => t.sealInternals d seq old r (i + 1)

/-- The internal objects of a domain brought up to its record: those it no longer needs go, those that differ are sealed
again. -/
def State.storeDomain (s : State) (d seq index : Nat) (old : List Obj) : Final ⊕ State :=
  let want := ((s.domRec d).map (fun r => r.internals d)).getD []
  let keep (o : Obj) : Bool := handleDomain o.handle != d || !o.internal || want.any (fun p => mkHandle d p.1 == o.handle)
  { s with vlt := { s.vlt with objs := s.vlt.objs.filter keep } }.sealInternals d seq old want index

/-- A domain's label table with one mapping set, or one label taken out and the last put in its place. -/
def DomRec.setLabel (r : DomRec) (name : Bytes) (h : Option Nat) : DomRec :=
  match h with
  | some h =>
    if r.labels.any (fun p => p.1 == name) then
      { r with labels := r.labels.map (fun p => if p.1 == name then (name, h) else p) }
    else { r with labels := r.labels ++ [(name, h)] }
  | none =>
    match r.labels.getLast? with
    | some z => { r with labels := if z.1 == name then r.labels.dropLast
                                   else r.labels.dropLast.map (fun p => if p.1 == name then z else p) }
    | none => r

/-- The handles of a domain's objects. -/
def State.domainHandles (s : State) (d : Nat) : List Nat := (s.domainObjs d).map (·.handle)

/-- The epoch of a domain advances: its objects, labels and chains go (R282). -/
def State.advanceEpoch (s : State) (d : Nat) : State :=
  let hs := s.domainHandles d
  let s := { s with vlt := { s.vlt with
    objs := s.vlt.objs.filter (fun o => handleDomain o.handle != d)
    badHandles := s.vlt.badHandles.filter (fun h => handleDomain h != d)
    epochs := assign s.vlt.epochs d (s.epoch d + 1) } }
  let s := hs.foldl (fun t h => (t.markStale h true).forgetKey h) s
  match s.domRec d with
  | some r => s.setDomRec d { r with labels := [], chains := [], drk := false }
  | none => s

/-- One change of a commit, checked again against the state the changes before it left (R245). -/
def State.applyChange (s : State) (c : Change) (seq index : Nat) : Applied :=
  let stored (d : Nat) (t : State) (out : Option Bytes) : Applied :=
    match t.storeDomain d seq index s.vlt.objs with
    | .inl f => .inl f
    | .inr t => .inr (t, out)
  let rec_ (d : Nat) (g : DomRec → DomRec) : Applied :=
    match s.domRec d with
    | some r => stored d (s.setDomRec d (g r)) none
    | none => .inl (Final.refuse Status.paramRange 40)
  match c with
  | .create o =>
    if (s.findObj o.handle).isSome && !s.vlt.badHandles.contains o.handle then .inl (Final.plain Status.objectExists)
    else match s.seal o seq index with
      | .inl f => .inl f
      | .inr t =>
        -- Over an object whose image is lost (R245): what stands on the old one is stale (R101).
        let t : State := if (s.findObj o.handle).isSome then (t.markStale o.handle false).forgetKey o.handle else t
        .inr ({ t with vlt := { t.vlt with reserved := t.vlt.reserved.filter (· != o.handle) } },
          some (leBytes 5 o.handle ++ o.check))
  | .replace o expect =>
    match s.findObj o.handle with
    | none => .inl (Final.plain Status.keyNotFound)
    | some x =>
      if !versionOk x expect || x.version ≥ versionLimit then .inl (Final.plain Status.keyVersion)
      else
        let n := { o with version := x.version + 1, created := x.created
                          material := if o.material.isEmpty then x.material else o.material }
        match s.seal n seq index with
        | .inl f => .inl f
        | .inr t => .inr (t.markStale o.handle false, some (leBytes 5 o.handle ++ n.check))
  | .delete h expect =>
    match s.findObj h with
    | none => .inl (Final.plain Status.keyNotFound)
    | some x =>
      if !versionOk x expect then .inl (Final.plain Status.keyVersion)
      else
        let t := { s with vlt := { s.vlt with objs := s.vlt.objs.filter (fun o => o.handle != h)
                                              badHandles := s.vlt.badHandles.filter (· != h) } }
        .inr ((t.markStale h true).forgetKey h, none)
  | .restrict h expect block =>
    match s.findObj h with
    | none => .inl (Final.plain Status.keyNotFound)
    | some x =>
      if !versionOk x expect || x.version ≥ versionLimit then .inl (Final.plain Status.keyVersion)
      else match x.restrict block with
        | none => .inl (Final.plain Status.policyRefused)
        | some y => match s.seal { y with version := x.version + 1 } seq index with
          | .inl f => .inl f
          | .inr t => .inr (t.markStale h false, some (leBytes 4 (x.version + 1)))
  | .domPut d r =>
    if (s.domRec d).isSome then .inl (Final.plain Status.objectExists) else stored d (s.setDomRec d r) none
  | .domDelete d =>
    if (s.domRec d).isNone then .inl (Final.refuse Status.paramRange 40)
    else
      let t := s.advanceEpoch d
      .inr ({ t with dom := { t.dom with recs := t.dom.recs.filter (fun p => p.1 != d) } }, none)
  | .roster d r => rec_ d (fun x => { x with roster := r })
  | .policy d p k key =>
    rec_ d (fun x => { x with prohibit := p
                              authKind := if k == 0 then x.authKind else if k == 0xFF then 0 else k
                              authKey := if k == 0 then x.authKey else if k == 0xFF then [] else key })
  | .quota d u f => rec_ d (fun x => { x with unitQuota := u, flowLimit := f })
  | .purge d => stored d (s.advanceEpoch d) (some (leBytes 4 (s.epoch d + 1)))
  | .label d name (some h) inst replace =>
    let known := (s.domRec d).any (fun x => x.labels.any (fun p => p.1 == name))
    match s.findObj h with
    | none => .inl (Final.plain Status.keyNotFound)
    | some o =>
      if !o.insts.getLsbD inst then .inl (Final.plain Status.instanceNotPermitted)
      else if known && !replace then .inl (Final.plain Status.objectExists)
      else if !known && (s.domRec d).any (fun x => x.labels.length ≥ 65536) then .inl (Final.refuse Status.vaultFull 2)
      else rec_ d (fun x => x.setLabel name (some h))
  | .label d name none _ _ =>
    if (s.domRec d).any (fun x => x.labels.any (fun p => p.1 == name)) then rec_ d (fun x => x.setLabel name none)
    else .inl (Final.refuse Status.zrmLabelUnknown 112)
  | .chain d c =>
    rec_ d (fun x => { x with chains := if x.chains.any (fun y => y.num == c.num)
                                        then x.chains.map (fun y => if y.num == c.num then y.committed c else y)
                                        else x.chains ++ [c] })
  | .chainClose d num => rec_ d (fun x => { x with chains := x.chains.filter (fun y => y.num != num) })
  | .collect _ _ => .inr (s, none)
  | .store d => rec_ d id

/-- Changes one after another: the state and the output the last one settled. -/
def State.applyEach (s : State) (seq : Nat) : List Change → Nat → Option Bytes → Applied
  | [], _, out => .inr (s, out)
  | c :: r, i, out =>
    match s.applyChange c seq i with
    | .inl f => .inl f
    | .inr (t, o) => t.applyEach seq r (i + 1) (o <|> out)

/-- The changes of one commit, all or none, with up to 8 relocations and 32 objects in all (R242, R245). Each object has
two candidate pages, so 32 objects touch at most 64 pages. -/
def State.applyChanges (s : State) (seq : Nat) (l : List Change) : Applied :=
  match { s with vlt := { s.vlt with moves := min 8 (32 - l.length) } }.applyEach seq l 0 none with
  | .inl f => .inl f
  | .inr (t, o) => .inr ({ t with vlt := { t.vlt with moves := 0 } }, o)

/-! Batches (R246, R247) -/

/-- What the commits of a batch leave. -/
def State.afterBatch (s : State) (l : List PendCommit) : State :=
  l.foldl (fun t p => match t.applyChanges p.seq p.changes with
    | .inl _ => t
    | .inr (u, _) => u) s

/-- Vault pages on which two states differ. -/
def touchedPages (a b : State) : List Nat :=
  ((a.vlt.objs.filter (fun o => !b.vlt.objs.contains o)) ++ (b.vlt.objs.filter (fun o => !a.vlt.objs.contains o))).map (·.page)
    |>.eraseDups

/-- Vault pages the open batch touches, chosen against what the batches in flight leave (R246). -/
def State.batchPages (s : State) : Nat :=
  let t := s.afterBatch s.vlt.flight.flatten
  (touchedPages t (t.afterBatch s.vlt.batch)).length

/-- Blocks of the vault pool, and those of them that the ledger journal reserves (R233, R348). -/
def poolBlocks : Nat := 556992
def journalBlocks : Nat := 64

/-- VLT_RETIRED, the blocks that are not retired, and VLT_FREE (R256, R260). -/
def Vlt.retired (v : Vlt) : Nat := (v.blks.filter (·.retired)).length
def Vlt.blocks (v : Vlt) : Nat := poolBlocks - v.retired
def Vlt.freeBlocks (v : Vlt) : Nat :=
  poolBlocks - journalBlocks - (v.blks.filter (fun b => b.retired || b.used != 0)).length

/-- VLT_STAT.THROTTLED (R260). -/
def Vlt.throttled (v : Vlt) : Bool := v.freeBlocks < 1024

/-- Close the open batch while fewer than two are in flight (R246). While the vault is throttled its commits wait for the
space that collection in the foreground makes (R260). -/
def State.batchClose (s : State) : State :=
  if s.vlt.batch.isEmpty then s
  else if s.vlt.flight.length ≥ 2 || s.vlt.throttled then { s with vlt := { s.vlt with closeDue := true } }
  else { s with vlt := { s.vlt with flight := s.vlt.flight ++ [s.vlt.batch], batch := [], closeDue := false } }

/-- Accept a commit (step 1 of Table 10.7): its message, if any, waits for it; the batch closes at 16 pages. -/
def State.accept (s : State) (id : Option Nat) (l : List Change) (f : Final) : State :=
  let seq := s.vlt.sealed + 1
  let n := ((id.bind s.findMsg).map MsgRec.inst).getD 0
  let s := { s with vlt := { s.vlt with
    sealed := seq, batch := s.vlt.batch ++ [{ msg := id, inst := n, seq := seq, changes := l, final := f }] } }
  let s : State := match id with
    | some i => s.modMsg i (fun r => { r with phase := .commit })
    | none => s
  if s.batchPages ≥ 16 then s.batchClose else s

/-! The key cache (R253) -/

def kcLimit : Nat := 786432
def kcPinLimit : Nat := 589824
def kcLines (l : List KcLine) : Nat := (l.map (·.units)).foldl (· + ·) 0

/-- Evict unpinned lines, least recently used first, until the rest fits; fuel bounds the evictions. -/
def kcEvict : Nat → List KcLine → List KcLine
  | 0, l => l
  | f + 1, l =>
    if kcLines l ≤ kcLimit then l
    else match l.find? (fun k => k.pins == 0) with
      | some k => kcEvict f (l.filter (fun x => x.handle != k.handle))
      | none => l

/-- The lines of an object are in the key cache at its present version. -/
def State.kcHas (s : State) (o : Obj) : Bool := s.vlt.kc.any (fun k => k.handle == o.handle && k.version == o.version)

/-- Fill an object's lines, or make them the most recently used. -/
def State.kcTouch (s : State) (o : Obj) : State :=
  let pins := ((s.vlt.kc.find? (fun k => k.handle == o.handle)).map (·.pins)).getD 0
  let l := s.vlt.kc.filter (fun k => k.handle != o.handle)
    ++ [{ handle := o.handle, version := o.version, units := o.units, pins := pins }]
  { s with vlt := { s.vlt with kc := kcEvict l.length l } }

/-- Count and refresh the lines of a key. -/
def State.useLine (s : State) (k : Option KeyRef) : State :=
  match k.bind (fun k => s.findObj k.handle) with
  | some o =>
    if s.kcHas o then { s with vlt := { s.vlt with kcHit := satAdd 64 s.vlt.kcHit 1 } }.kcTouch o
    else { s with vlt := { s.vlt with kcMiss := satAdd 64 s.vlt.kcMiss 1 } }
  | none => s

/-- Submit operations of the internal world for an owner; the lines of the keys they load are counted. -/
def State.submit (s : State) (o : IntOwner) (l : List IntWork) : State :=
  l.foldl (fun t w =>
    let t := t.useLine (w.key.map Obj.ref)
    { t with sch := { t.sch with
      nextId := t.sch.nextId + 1
      internal := t.sch.internal ++ [{ IntOp.reset with id := t.sch.nextId, owner := o, work := w }]
      served := t.sch.served.filter (· != o) } }) s

/-- Pin an object's lines for a flow. -/
def State.kcPin (s : State) (h : Nat) : State :=
  { s with vlt := { s.vlt with kc := s.vlt.kc.map (fun k => if k.handle == h then { k with pins := k.pins + 1 } else k) } }

/-- Pinned lines (VLT_KC_PIN). -/
def State.kcPinned (s : State) : Nat := kcLines (s.vlt.kc.filter (fun k => k.pins != 0))

end Sys2Proof.Machine
end

