-- ==== Sys2Proof/Machine/Act.lean ====
section
/-! DEFINITION. What the control pair answers about a message at step 8 and when it acts, and the checks its opcodes
share (R78, R264, R284, R308, R314, R324). -/

namespace Sys2Proof.Machine

/-- Step 8 of a control-path message. -/
inductive Checked where
  /-- Refused; the state carries what the refusal counts. -/
  | no (f : Final) (s : State)
  /-- Waits at step 8 (R310). -/
  | hold
  /-- Waits at step 8 for public-key operations of the internal world, given by their times (R291, R312, R406). -/
  | work (l : List IntWork)
  /-- Passes; the tandem found, if the act needs one (R314). -/
  | ok (tandem : Option Nat)

/-- What an admitted control-path message does. -/
inductive Acted where
  /-- Completes at once. -/
  | ends (f : Final) (s : State)
  /-- Its commit is accepted; the completion follows the switch (R246). -/
  | commit (l : List Change) (f : Final) (s : State)
  /-- It goes on without the control pair: on an engine (R286), or as its chunk is programmed (R380). -/
  | engine (s : State)
  /-- It runs on the custody pair (R394). -/
  | custody (s : State)

/-- The first refusal of a list of checks, or a pass. -/
def checked (s : State) (f : Option Final) : Checked := match f with | some f => .no f s | none => .ok none

/-- Both handles none (R67). -/
def noKeys (m : Msg) : Option Final := needNone m.keyA 28 <|> needNone m.keyB 33

/-- One handle needed in KEY_A or KEY_B, none in the other. -/
def keyAOnly (m : Msg) : Option Final := needKey m.keyA 28 <|> needNone m.keyB 33
def keyBOnly (m : Msg) : Option Final := needNone m.keyA 28 <|> needKey m.keyB 33

/-- LENGTH_INVALID unless the input has exactly n bytes. -/
def lengthIs (m : Msg) (n : Nat) : Option Final := failIf (m.inLen != n) Status.lengthInvalid 0

/-- Input inline and of n bytes (R267, R284). -/
def inlineIs (m : Msg) (n : Nat) : Option Final := failIf (!m.inlineIn || m.inLen != n) Status.lengthInvalid 0

/-- The domain a message acts in: its instance's when it passed step 4, which an unbinding does not change (R95). -/
def State.dom' (_ : State) (r : MsgRec) : Nat := r.domain

/-- The vault is mounted (R94, R258, R302). -/
def State.mounted (s : State) : Bool := s.vlt.state == 2 || s.vlt.state == 3
def State.needVault (s : State) : Option Final := failIf (!s.mounted) Status.vaultNotMounted 0
/-- A message that commits (R251). -/
def State.needWrites (s : State) : Option Final := s.needVault <|> failIf (s.vlt.state == 3) Status.vaultReadOnly 0
/-- A message that needs the record of its domain (R302). -/
def State.needRecord (s : State) (d : Nat) : Option Final := if d == 0 then none else s.needVault
/-- A message that changes the record of its domain: domain 0 keeps it in the PRF (R301). -/
def State.needRecordWrite (s : State) (d : Nat) : Option Final := if d == 0 then none else s.needWrites

/-! Tandems (R310, R314) -/

/-- A tandem is open until EXPIRES. -/
def State.openTandems (s : State) (d : Nat) : List Tandem :=
  s.dom.tandems.filter (fun t => t.domain == d && s.opTime < t.expires)

def Tandem.complete (t : Tandem) : Bool := t.off2.isSome

/-- The complete, unconsumed, unexpired tandem of a domain with this act and digest that was completed first. -/
def State.findTandem (s : State) (d act : Nat) (digest : Bytes) : Option Tandem :=
  ((s.openTandems d).filter (fun t =>
    t.complete && t.reserved.isNone && t.act == act && t.digest == digest)).foldl (fun a t =>
      match a with
      | some x => if t.doneAt < x.doneAt then some t else some x
      | none => some t) none

/-- The end of the step 8 checks of a tandem act. -/
def State.needTandem (s : State) (d act : Nat) (digest : Bytes) : Checked :=
  match s.findTandem d act digest with
  | some t => .ok (some t.tid)
  | none => .no (Final.plain Status.tandemRequired) s

/-- Checks, then the tandem. -/
def State.checkTandem (s : State) (f : Option Final) (d act : Nat) (digest : Bytes) : Checked :=
  match f with
  | some f => .no f s
  | none => s.needTandem d act digest

/-- The record of a discarded tandem or a refused token (Table 19.3). -/
def State.tandemRecord (s : State) (d : Nat) (st : BitVec 16) (tid officer : Nat) : State :=
  s.record 0x0801 (src 6 d) 1 (pay st.toNat tid officer)

def State.modTandem (s : State) (tid : Nat) (f : Tandem → Tandem) : State :=
  { s with dom := { s.dom with tandems := s.dom.tandems.map (fun t => if t.tid == tid then f t else t) } }

/-- Discard tandems, each recorded. -/
def State.discardTandems (s : State) (p : Tandem → Bool) : State :=
  let gone := s.dom.tandems.filter p
  let s := { s with dom := { s.dom with tandems := s.dom.tandems.filter (fun t => !p t) } }
  gone.foldl (fun t x => t.tandemRecord x.domain 0 x.tid 0xFF) s

/-- The record of policy, roster, purge, domain and binding acts. -/
def State.domainRecord (s : State) (o : Op) (d n : Nat) : State := s.record 0x0802 (src 6 d) 1 (pay o.code.toNat d n)

/-- A byte in a structure supplied as input (R267, R285, R291, R307). -/
def inputRange (base off : Nat) : Final := Final.refuse Status.paramRange (base + off)

end Sys2Proof.Machine
end

