-- ==== Sys2Proof/Machine/Domains.lean ====
section
/-! DEFINITION. Owners, officers and tandem control (chapter 12): rosters, challenges and tokens, policies, the life of a
domain and the binding of instances. -/

namespace Sys2Proof.Machine

/-! Rosters (R306, R307) -/

def RosterEntry.bytes (e : RosterEntry) : Bytes :=
  fit 48 e.digest ++ leBytes 1 e.keyAlg ++ leBytes 1 e.roles.toNat ++ zeros 14

/-- The roster block of a roster. -/
def rosterBlock (r : List RosterEntry) : Bytes :=
  (List.range 16).flatMap (fun i => (r.getD i RosterEntry.reset).bytes)

def parseEntry (b : Bytes) : RosterEntry :=
  { digest := if byteAt b 48 == 0 then [] else b.take 48, keyAlg := byteAt b 48, roles := BitVec.ofNat 8 (byteAt b 49) }

def parseRoster (b : Bytes) : List RosterEntry := (List.range 16).map (fun i => parseEntry (slice b (64 * i) 64))

/-- The first byte of an entry that R307 refuses, with the roles a domain may hold. -/
def entryBad (b : Bytes) (roles : Nat) : Option Nat :=
  if byteAt b 48 == 0 then firstNonZero b 0 64
  else if byteAt b 48 > 5 then some 48
  else if byteAt b 49 == 0 || byteAt b 49 &&& (0xFF ^^^ roles) != 0 then some 49
  else firstNonZero b 50 14

/-- Entries that are active. -/
def activeRoster (r : List RosterEntry) : List RosterEntry := r.filter (fun e => e.keyAlg != 0)

/-- An entry whose KEYDIGEST an earlier active entry has. -/
def twinEntry (r : List RosterEntry) : Option Nat :=
  (List.range r.length).find? (fun i =>
    let e := r.getD i RosterEntry.reset
    e.keyAlg != 0 && (r.take i).any (fun x => x.keyAlg != 0 && x.digest == e.digest))

/-- Active entries holding a role. -/
def roleCount (r : List RosterEntry) (role : Nat) : Nat := ((activeRoster r).filter (fun e => e.roles.getLsbD role)).length

/-- R307 on a roster block of domain d. -/
def checkRoster (d : Nat) (b : Bytes) : Option Final :=
  let roles := if d == 0 then 0x1F else 0x03
  let r := parseRoster b
  let bad := ((List.range 16).findSome? (fun i => (entryBad (slice b (64 * i) 64) roles).map (64 * i + ·)))
    <|> ((twinEntry r).map (64 * ·))
  (bad.map (inputRange 0x100))
  <|> (((if d == 0 then [0, 2, 3, 4] else [0]).find? (fun k => roleCount r k < 2)).map
        (fun k => Final.refuse Status.policyRefused k))

/-! TANDEM_BEGIN (R309, R310) -/

def tandemBegin7 (m : Msg) (d : Nat) : Option Final :=
  let act := m.field 40 1
  noKeys m
  <|> failIf (act == 0 || act > 12 || (act ≥ 8 && d != 0)) Status.paramRange 40
  <|> m.mustZero 41 23
  <|> lengthIs m 48
  <|> checkCap m 152

/-- All 8 tandems of a domain are reserved: one more waits. -/
def State.tandemsFull (s : State) (d : Nat) : Bool :=
  (s.openTandems d).length ≥ 8 && (s.openTandems d).all (fun t => t.reserved.isSome)

def tandemBegin8 (s : State) (r : MsgRec) : Checked :=
  let d := s.dom' r
  match s.needRecord d with
  | some f => .no f s
  | none => if s.tandemsFull d then .hold else .ok none

/-- The tandem that a ninth one discards: the oldest incomplete, else the oldest complete that no act has reserved. -/
def State.victim (s : State) (d : Nat) : Option Nat :=
  let l := s.openTandems d
  ((l.find? (fun t => !t.complete)) <|> (l.find? (fun t => t.reserved.isNone))).map (·.tid)

/-- The challenge of Table 12.4. -/
def challengeOf (d act tid expires : Nat) (nonce ident digest : Bytes) : Bytes :=
  [0x54, 0x44, 0x43, 0x31] ++ leBytes 2 d ++ leBytes 1 act ++ [0] ++ leBytes 4 tid ++ zeros 4 ++ leBytes 8 expires
    ++ fit 32 nonce ++ fit 48 ident ++ fit 48 digest

def tandemBeginAct (s : State) (r : MsgRec) : Acted :=
  let d := s.dom' r
  let s := if (s.openTandems d).length ≥ 8 then
      match s.victim d with
      | some v => s.discardTandems (fun t => t.tid == v)
      | none => s
    else s
  let tid := s.dom.nextTid
  let act := r.m.field 40 1
  let ex := s.opTime + 120000
  let c := challengeOf d act tid ex r.random s.identDigest r.m.input
  let t : Tandem := { Tandem.reset with tid := tid, domain := d, act := act, digest := r.m.input, challenge := c, expires := ex }
  .ends (Final.good c) { s with dom := { s.dom with tandems := s.dom.tandems ++ [t], nextTid := (tid + 1) % 2 ^ 32 } }

/-! TANDEM_SIGN and TANDEM_STATUS (R311, R312) -/

/-- Public-key and signature bytes of a KEYALG. -/
def tokenPset (alg : Nat) : Nat :=
  match alg with
  | 1 => 0x10
  | 2 => 0x11
  | 3 => 0x21
  | 4 => 0x40
  | _ => 0x41
def tokenLen (alg : Nat) : Nat := 16 + pubLen (tokenPset alg) + sigLen (tokenPset alg)

def tandemSign7 (m : Msg) : Option Final :=
  noKeys m <|> m.mustZero 40 24
  <|> failIf (! [145, 209, 112, 5277, 7235].contains m.inLen) Status.lengthInvalid 0
  <|> checkCap m 8

/-- Check 1 of Table 12.5. -/
def tokenHeader (b : Bytes) : Option Final :=
  let bad := (if b.take 4 != [0x54, 0x4F, 0x4B, 0x31] then some 0 else none)
    <|> (if byteAt b 4 > 15 then some 4 else none)
    <|> (if byteAt b 5 == 0 || byteAt b 5 > 5 then some 5 else none)
    <|> firstNonZero b 6 2 <|> firstNonZero b 12 4
  (bad.map (inputRange 0x100)) <|> failIf (b.length != tokenLen (byteAt b 5)) Status.lengthInvalid 0

/-- The token's signature over M (R311). -/
def tokenVerifies (alg : Nat) (pub sig m : Bytes) : Bool :=
  match alg with
  | 1 => p256.verify pub sig (sha256 m) == some true
  | 2 => p384.verify pub sig (sha384 m) == some true
  | 3 => edVerify pub sig m == some true
  | 4 => dsaVerify mldsa65 pub (dsaMu (dsaTr pub) [] m) sig
  | _ => dsaVerify mldsa87 pub (dsaMu (dsaTr pub) [] m) sig

/-- The role of an act (Table 12.3), as a bit of ROLES. -/
def actRole (act : Nat) : Nat := if act ≤ 4 then 1 else if act ≤ 7 || act == 9 then 0 else if act == 8 then 2 else if act == 10 then 3 else 4

/-- The checks of Table 12.5 after the first. -/
def State.checkToken (s : State) (d : Nat) (b : Bytes) : Option (BitVec 16) :=
  let off := byteAt b 4
  let alg := byteAt b 5
  let pub := slice b 16 (pubLen (tokenPset alg))
  let sig := b.drop (16 + pubLen (tokenPset alg))
  match (s.openTandems d).find? (fun t => t.tid == leAt b 8 4) with
  | none => some Status.tokenExpired
  | some t =>
    let e := (s.roster d).getD off RosterEntry.reset
    if e.keyAlg == 0 || e.keyAlg != alg || sha384 pub != e.digest then some Status.tokenInvalid
    else if !tokenVerifies alg pub sig (ascii "VW.TOK" ++ t.challenge ++ leBytes 1 off) then some Status.tokenInvalid
    else if !e.roles.getLsbD (actRole t.act) then some Status.roleNotPermitted
    else if t.off1 == some off || t.off2 == some off then some Status.tandemSameOfficer
    else none

/-- A token has passed checks 2 and 3, so that its signature is verified. -/
def State.tokenStands (s : State) (d : Nat) (b : Bytes) : Bool :=
  let e := (s.roster d).getD (byteAt b 4) RosterEntry.reset
  (s.openTandems d).any (fun t => t.tid == leAt b 8 4) && e.keyAlg != 0 && e.keyAlg == byteAt b 5
    && sha384 (slice b 16 (pubLen (tokenPset (byteAt b 5)))) == e.digest

def tandemSign8 (s : State) (r : MsgRec) : Checked :=
  let d := s.dom' r
  let b := r.m.input
  match s.needRecord d with
  | some f => .no f s
  | none =>
    let tid := leAt b 8 4
    let refused (f : Final) : Checked :=
      let s := s.tandemRecord d f.status tid (byteAt b 4)
      let s := if f.status == Status.tokenInvalid then s.modTandem tid (fun t => { t with invalids := t.invalids + 1 }) else s
      .no f (s.discardTandems (fun t => t.tid == tid && t.domain == d && t.invalids ≥ 4))
    match tokenHeader b with
    | some f => refused f
    | none =>
      if s.tokenStands d b && !s.served (.message r.id) then .work [.on (verifyCycles (tokenPset (byteAt b 5))) b]
      else match s.checkToken d b with
        | some st => refused (Final.plain st)
        | none => .ok none

/-- The 8 bytes of TANDEM_SIGN and TANDEM_STATUS. -/
def Tandem.status (t : Tandem) (now : Nat) : Bytes :=
  leBytes 1 (bit t.off1.isSome + bit t.off2.isSome) ++ leBytes 1 (t.off1.getD 0xFF) ++ leBytes 1 (t.off2.getD 0xFF) ++ [0]
    ++ leBytes 4 (t.expires - now)

/-- An officer accepted: the first, the second, or one more than needed. -/
def Tandem.accept (t : Tandem) (off doneAt : Nat) : Tandem :=
  if t.off1.isNone then { t with off1 := some off }
  else if t.off2.isNone then { t with off2 := some off, doneAt := doneAt }
  else t

def tandemSignAct (s : State) (r : MsgRec) : Acted :=
  let tid := leAt r.m.input 8 4
  let next := (s.dom.tandems.map (·.doneAt)).foldl max 0 + 1
  let s := s.modTandem tid (fun t => t.accept (byteAt r.m.input 4) next)
  match s.dom.tandems.find? (fun t => t.tid == tid) with
  | some t => .ends (Final.good (t.status s.opTime)) s
  | none => .ends (Final.plain Status.tokenExpired) s

def tandemStatus7 (m : Msg) : Option Final := noKeys m <|> m.mustZero 44 20 <|> checkNoInput m <|> checkCap m 8

def tandemStatus8 (s : State) (r : MsgRec) : Checked :=
  let d := s.dom' r
  checked s (s.needRecord d
    <|> failIf (!(s.openTandems d).any (fun t => t.tid == r.m.field 40 4)) Status.tokenExpired 0)

def tandemStatusAct (s : State) (r : MsgRec) : Acted :=
  match (s.openTandems (s.dom' r)).find? (fun t => t.tid == r.m.field 40 4) with
  | some t => .ends (Final.good (t.status s.opTime)) s
  | none => .ends (Final.plain Status.tokenExpired) s

/-! DOMAIN_INFO (R323) -/

def domainInfo7 (m : Msg) (d : Nat) : Option Final :=
  let n := m.field 40 2
  noKeys m
  <|> failIf (d == 0 && n > 1023) Status.paramRange 40
  <|> (if d != 0 && n == d then m.mustZero 40 2 else none)
  <|> m.mustZero 42 22
  <|> failIf (d != 0 && n != 0 && n != d) Status.domainMismatch 0
  <|> checkNoInput m <|> checkCap m 1120

/-- The domain a DOMAIN_INFO is about. -/
def State.infoDomain (s : State) (r : MsgRec) : Nat :=
  let d := s.dom' r
  if d == 0 then r.m.field 40 2 else d

def domainInfo8 (s : State) (r : MsgRec) : Checked :=
  let d := s.infoDomain r
  checked s (s.needRecord d <|> failIf ((s.domRec d).isNone) Status.paramRange 40)

/-- AUTHKIND in force. -/
def State.authKind (s : State) (d : Nat) : Nat :=
  if d == 0 then s.prf.auth0Kind else ((s.domRec d).map (·.authKind)).getD 0

/-- The authority public key: of domain 0, a copy of the recovery area that matches the digest in the PRF (R301). -/
def State.authKey (s : State) (d : Nat) : Bytes :=
  if d == 0 then ((s.nor.authKey.find? (fun k => sha384 k == s.prf.auth0Digest)).getD [])
  else ((s.domRec d).map (·.authKey)).getD []

/-- Instances bound to a domain, as a bitmap. -/
def State.boundMap (s : State) (d : Nat) : Nat :=
  ((List.range 256).filter (fun n => s.domainOf n == some d)).foldl (fun a n => a + 2 ^ n) 0

/-- Table 12.9. -/
def State.domainInfo (s : State) (d : Nat) : Bytes :=
  let r := (s.domRec d).getD DomRec.reset
  leBytes 2 d ++ zeros 2 ++ leBytes 4 (s.epoch d) ++ leBytes 4 (s.prohibit d).toNat ++ leBytes 1 (s.authKind d) ++ zeros 3
    ++ leBytes 8 r.unitQuota ++ leBytes 8 (s.domainUnits d) ++ leBytes 2 r.flowLimit ++ leBytes 2 (s.domainFlows d)
    ++ leBytes 8 (lookup0 s.prf.kumCounters d) ++ leBytes 1 (s.openTandems d).length ++ zeros 3
    ++ leBytes 32 (s.boundMap d) ++ zeros 16 ++ rosterBlock (s.roster d)

def domainInfoAct (s : State) (r : MsgRec) : Acted := .ends (Final.good (s.domainInfo (s.infoDomain r))) s

/-! POLICY_SET (R317) -/

def policySet7 (m : Msg) : Option Final :=
  noKeys m <|> m.mustZero 40 24 <|> failIf (! [64, 161, 2656, 2753].contains m.inLen) Status.lengthInvalid 0

/-- IN_LEN for an AUTHKIND. -/
def policyLen (k : Nat) : Nat := match k with | 1 => 2656 | 2 => 161 | 3 => 2753 | _ => 64

def checkPolicy (b : Bytes) : Option Final :=
  let bad := (if leAt b 0 4 ≥ 2 ^ 11 then some (if byteAt b 1 ≥ 8 then 1 else if byteAt b 2 != 0 then 2 else 3) else none)
    <|> (if byteAt b 4 > 3 && byteAt b 4 != 0xFF then some 4 else none)
    <|> firstNonZero b 5 59
  (bad.map (inputRange 0x100)) <|> failIf (b.length != policyLen (byteAt b 4)) Status.lengthInvalid 0

def policySet8 (s : State) (r : MsgRec) : Checked :=
  let d := s.dom' r
  s.checkTandem (s.needRecordWrite d <|> checkPolicy r.m.input) d 5
    (sha384 (ascii "VW.POL" ++ leBytes 2 d ++ r.m.input))

/-- Domain 0's policy and authority key, in the PRF and the recovery area (R301). -/
def State.setPolicy0 (s : State) (b : Bytes) : Final × State :=
  let kind := byteAt b 4
  let key := b.drop 64
  let w := s.prfWrite (prfPolicy ++ (if kind == 0 then [] else prfAuth))
  if !w.1 then (prfRefusal, w.2)
  else
    let t := { w.2 with prf := { w.2.prf with policy0 := BitVec.ofNat 32 (leAt b 0 4) } }
    (Final.good [],
      if kind == 0 then t
      else if kind == 0xFF then { t with prf := { t.prf with auth0Kind := 0, auth0Digest := [] }
                                         nor := { t.nor with authKey := [[], []] } }
      else { t with prf := { t.prf with auth0Kind := kind, auth0Digest := sha384 key }
                    nor := { t.nor with authKey := [key, key] } })

def policySetAct (s : State) (r : MsgRec) : Acted :=
  let d := s.dom' r
  let b := r.m.input
  if d == 0 then
    let w := s.setPolicy0 b
    .ends w.1 (if w.1.status == Status.ok then w.2.domainRecord .policySet 0 r.inst else w.2)
  else .commit [.policy d (BitVec.ofNat 32 (leAt b 0 4)) (byteAt b 4) (b.drop 64)] (Final.good []) s

/-! ROSTER_SET (R319) -/

def rosterSet7 (m : Msg) : Option Final := noKeys m <|> m.mustZero 40 24 <|> lengthIs m 1024

def rosterSet8 (s : State) (r : MsgRec) : Checked :=
  let d := s.dom' r
  s.checkTandem (s.needRecordWrite d <|> checkRoster d r.m.input) d 6
    (sha384 (ascii "VW.ROS" ++ leBytes 2 d ++ r.m.input))

def rosterSetAct (s : State) (r : MsgRec) : Acted :=
  let d := s.dom' r
  if d == 0 then
    let w := s.prfWrite prfRoster
    if !w.1 then .ends prfRefusal w.2
    else
      let t := { w.2 with prf := { w.2.prf with roster0 := parseRoster r.m.input } }
      .ends (Final.good []) ((t.discardTandems (fun x => x.domain == 0)).domainRecord .rosterSet 0 r.inst)
  else .commit [.roster d (parseRoster r.m.input)] (Final.good []) s

/-! DOMAIN_PURGE, DOMAIN_CREATE, DOMAIN_DELETE, DOMAIN_QUOTA (R320 to R322) -/

def domainPurge7 (m : Msg) : Option Final := noKeys m <|> m.mustZero 40 24 <|> checkNoInput m <|> checkCap m 4

def domainPurge8 (s : State) (r : MsgRec) : Checked :=
  let d := s.dom' r
  s.checkTandem s.needWrites d 7 (sha384 (ascii "VW.PRG" ++ leBytes 2 d ++ leBytes 4 (s.epoch d)))

def domainPurgeAct (s : State) (r : MsgRec) : Acted := .commit [.purge (s.dom' r)] (Final.good []) s

/-- DOMAIN in AREA bytes 40 and 41, 1 to 1023, from an instance of domain 0. -/
def domainArea (m : Msg) (d : Nat) : Option Final :=
  failIf (m.field 40 2 == 0 || m.field 40 2 > 1023) Status.paramRange 40
  <|> m.mustZero 42 22
  <|> failIf (d != 0) Status.domainMismatch 0

def domainCreate7 (m : Msg) (d : Nat) : Option Final := noKeys m <|> domainArea m d <|> lengthIs m 1024

def domainCreate8 (s : State) (r : MsgRec) : Checked :=
  let d := r.m.field 40 2
  s.checkTandem
    (s.needWrites <|> checkRoster d r.m.input <|> failIf ((s.domRec d).isSome) Status.objectExists 0) 0 9
    (sha384 (ascii "VW.DCR" ++ leBytes 2 d ++ r.m.input))

def domainCreateAct (s : State) (r : MsgRec) : Acted :=
  .commit [.domPut (r.m.field 40 2) { DomRec.reset with roster := parseRoster r.m.input }] (Final.good []) s

def domainDelete7 (m : Msg) (d : Nat) : Option Final := noKeys m <|> domainArea m d <|> checkNoInput m

def domainDelete8 (s : State) (r : MsgRec) : Checked :=
  let d := r.m.field 40 2
  s.checkTandem (s.needWrites <|> failIf ((s.domRec d).isNone) Status.paramRange 40) 0 9
    (sha384 (ascii "VW.DDL" ++ leBytes 2 d))

def domainDeleteAct (s : State) (r : MsgRec) : Acted := .commit [.domDelete (r.m.field 40 2)] (Final.good []) s

def domainQuota7 (m : Msg) (d : Nat) : Option Final :=
  noKeys m
  <|> failIf (m.field 40 2 > 1023) Status.paramRange 40
  <|> m.mustZero 42 6
  <|> failIf (m.field 48 8 > 2 ^ 33) Status.paramRange 48
  <|> m.mustZero 58 6
  <|> failIf (d != 0) Status.domainMismatch 0
  <|> checkNoInput m

def domainQuota8 (s : State) (r : MsgRec) : Checked :=
  let d := r.m.field 40 2
  checked s (s.needRecordWrite d <|> failIf ((s.domRec d).isNone) Status.paramRange 40)

def domainQuotaAct (s : State) (r : MsgRec) : Acted :=
  let d := r.m.field 40 2
  let q := r.m.field 48 8
  let f := r.m.field 56 2
  if d == 0 then .ends (Final.good []) (s.setDomRec 0 { s.dom.rec0 with unitQuota := q, flowLimit := f })
  else .commit [.quota d q f] (Final.good []) s

/-! INSTANCE_BIND and INSTANCE_UNBIND (R304, R305, R95) -/

def instanceBind7 (s : State) (m : Msg) : Option Final :=
  let n := m.field 40 1
  noKeys m
  <|> failIf (n == 0 || ((s.getInst n).domain).isSome) Status.paramRange 40
  <|> m.mustZero 41 1
  <|> failIf (m.field 42 2 > 1023) Status.paramRange 42
  <|> m.mustZero 44 20
  <|> checkNoInput m

def instanceBind8 (s : State) (r : MsgRec) : Checked :=
  let n := r.m.field 40 1
  let d := r.m.field 42 2
  s.checkTandem
    (failIf ((s.getInst n).domain).isSome Status.paramRange 40
      <|> (if d == 0 then none else s.needVault)
      <|> failIf ((s.domRec d).isNone) Status.paramRange 42) 0 8
    (sha384 (ascii "VW.BND" ++ leBytes 1 n ++ leBytes 2 d))

def instanceBindAct (s : State) (r : MsgRec) : Acted :=
  let n := r.m.field 40 1
  let w := s.prfWrite (prfBinding n)
  if !w.1 then .ends prfRefusal w.2
  else .ends (Final.good [])
    ((w.2.modInst n (fun i => { i with domain := some (r.m.field 42 2) })).domainRecord .instanceBind (r.m.field 42 2) n)

def instanceUnbind7 (s : State) (m : Msg) : Option Final :=
  let n := m.field 40 1
  noKeys m <|> failIf (n == 0 || ((s.getInst n).domain).isNone) Status.paramRange 40 <|> m.mustZero 41 23
  <|> checkNoInput m

def instanceUnbind8 (s : State) (r : MsgRec) : Checked :=
  let n := r.m.field 40 1
  s.checkTandem (failIf ((s.getInst n).domain).isNone Status.paramRange 40) 0 8
    (sha384 (ascii "VW.UBD" ++ leBytes 1 n))

/-- The effects of R95: the binding goes, the instance's flows, templates and component session end, messages on its flows complete with
ABORTED, and the flow of a FLOW_OPEN not yet complete ends as it is installed (R305). -/
def State.unbind (s : State) (n : Nat) : State :=
  let s := s.modInst n (fun i => { i with domain := none, compSession := none })
  let s := s.abortAll (fun r => r.inst == n && r.m.flowId != 0 && r.op != .cancel && r.phase != .commit
    && !(r.op == .flowClose && r.admitted))
  let s := (s.dropFlows (fun f => f.inst == n)).dropTemplates (fun t => t.inst == n && !t.building)
  let opened (r : MsgRec) : MsgRec :=
    if r.inst == n && r.op == .flowOpen then { r with stale := some Status.instanceUnbound } else r
  { s with sch := { s.sch with msgs := s.sch.msgs.map opened } }.raise n 1

def instanceUnbindAct (s : State) (r : MsgRec) : Acted :=
  let n := r.m.field 40 1
  let d := (s.domainOf n).getD 0
  let w := s.prfWrite (prfBinding n)
  if !w.1 then .ends prfRefusal w.2
  else .ends (Final.good []) ((w.2.unbind n).domainRecord .instanceUnbind d n)

/-- The binding word of an instance is written and the instance unbound; a word at its endurance limit stays as it is
(R12). -/
def State.dropBinding (s : State) (n : Nat) : State :=
  let w := s.prfWrite (prfBinding n)
  if w.1 then w.2.unbind n else w.2

/-! What follows a commit of this chapter (R316, R320, R321, R95) -/

/-- After the switch of a domain's commit: tandems discarded, instances unbound, the act recorded. -/
def State.afterChange (s : State) (c : Change) (n : Nat) : State :=
  match c with
  | .roster d _ => (s.discardTandems (fun t => t.domain == d)).domainRecord .rosterSet d n
  | .policy d _ _ _ => s.domainRecord .policySet d n
  | .purge d => (s.discardTandems (fun t => t.domain == d)).domainRecord .domainPurge d n
  | .domPut d _ => s.domainRecord .domainCreate d n
  | .domDelete d =>
    let bound := (List.range 256).filter (fun k => (s.getInst k).domain == some d)
    let s := bound.foldl State.dropBinding s
    (s.discardTandems (fun t => t.domain == d)).domainRecord .domainDelete d n
  | _ => s

end Sys2Proof.Machine
end

