-- ==== Sys2Proof/Machine/KeyMgmt.lean ====
section
/-! DEFINITION. Vault opcodes and key management (R264 to R268, R284 to R298): attribute blocks, generation, Key Update
Messages, clear components, export and restore. -/

namespace Sys2Proof.Machine

/-! Attribute blocks (R238, R239, R285) -/

def algCodes : List Nat :=
  [0x0110, 0x0118, 0x0120, 0x0210, 0x0218, 0x0301, 0x0302, 0x0303, 0x0304, 0x0305, 0x0306, 0x0307, 0x0308, 0x0401,
   0x0402, 0x0403, 0x0410, 0x0411, 0x0412, 0x0420, 0x0421, 0x0430, 0x0431, 0x0440, 0x0441, 0x0600]

/-- Usage bits accepted on an algorithm (Table 10.6). -/
def usageMask (alg : Nat) (pair : Bool) : Nat :=
  let p (n : Nat) : Nat := if pair then n else 0
  match alg / 256 with
  | 1 => 0xF03F
  | 2 => 0xB033
  | 3 => 0x10830
  | 4 =>
    match alg % 256 with
    | 0x01 | 0x02 | 0x03 => 0x81 ||| p 0x10042
    | 0x10 | 0x11 | 0x12 => 0x80 ||| p 0x10140
    | 0x20 => p 0x100
    | 0x30 | 0x31 => 0x200 ||| p 0x400
    | _ => 0x80 ||| p 0x10040
  | _ => 0x2000

/-- Material length of an algorithm with one size; none for HMAC, secret data and public keys. -/
def fixedLen (alg : Nat) : Option Nat :=
  match alg with
  | 0x0110 | 0x0210 => some 16
  | 0x0118 | 0x0218 => some 24
  | 0x0120 => some 32
  | _ => none

/-- Reserved bytes of a structure in input: the first that is not 0. -/
def inputZero (base : Nat) (b : Bytes) (off n : Nat) : Option Final := (firstNonZero b off n).map (inputRange base)

def inputIf (c : Bool) (base off : Nat) : Option Final := if c then some (inputRange base off) else none

/-- A role bit excludes every other usage bit (R327). -/
def roleMixed (us : Nat) : Bool := us &&& 0x1F000 != 0 && us &&& (us - 1) != 0

/-- R285 in byte order. kcvZero: KCV must be 0; lenZero: LENGTH must be 0 (R289); algOk: the opcode accepts ALG. -/
def checkAttr (b : Bytes) (pair kcvZero lenZero : Bool) (algOk : Nat → Bool) : Option Final :=
  let alg := leAt b 0 2
  let n := leAt b 2 2
  let us := leAt b 4 4
  inputIf (!algCodes.contains alg) 0x100 0
  <|> failIf (!algOk alg) Status.keyAlgorithm 0
  <|> inputIf (if lenZero then n != 0
               else if alg / 256 == 3 then n < 14 || n > 192
               else if alg == 0x0600 then n < 1 || n > 8048
               else n != 0) 0x100 2
  <|> inputIf (us == 0 || us &&& (0xFFFFFFFF ^^^ usageMask alg pair) != 0 || roleMixed us) 0x100 4
  <|> inputIf (byteAt b 8 == 0 || byteAt b 8 > 3) 0x100 8
  <|> inputIf (byteAt b 9 == 0 || byteAt b 9 ≥ 64) 0x100 9
  <|> inputIf (byteAt b 10 &&& 0xFD != 0) 0x100 10
  <|> inputZero 0x100 b 11 5
  <|> inputIf (leAt b 16 8 ≥ leAt b 24 8) 0x100 16
  <|> inputIf (kcvZero && leAt b 32 3 != 0) 0x100 32
  <|> inputZero 0x100 b 35 5

def attrExportable (b : Bytes) : Bool := byteAt b 10 &&& 2 != 0
def attrKcv (b : Bytes) : Bytes := slice b 32 3

/-- The record of a new object from its attribute block (Table 10.4). -/
def attrObj (b : Bytes) (h : Nat) (material : Bytes) (pair : Bool) (origin created : Nat) : Obj :=
  { Obj.reset with
    handle := h, alg := BitVec.ofNat 16 (leAt b 0 2), usage := BitVec.ofNat 32 (leAt b 4 4), world := byteAt b 8,
    lcmask := BitVec.ofNat 8 (byteAt b 9), pair := pair, exportable := attrExportable b, origin := origin, version := 1,
    validFrom := leAt b 16 8, validUntil := leAt b 24 8, insts := BitVec.ofNat 256 (leAt b 40 32), created := created,
    material := material }

/-- A PROHIBIT bit of a domain's policy (Table 12.8). -/
def State.forbids (s : State) (d bit : Nat) : Option Final :=
  failIf ((s.prohibit d).getLsbD bit) Status.policyRefused 0

/-- NO_EXPORT on an attribute block. -/
def State.attrPolicy (s : State) (d : Nat) (b : Bytes) : Option Final :=
  failIf (attrExportable b && (s.prohibit d).getLsbD 7) Status.policyRefused 0

/-- OBJECT of R178 in AREA bytes 40 to 43. -/
def objectArea (m : Msg) : Option Final := failIf (m.field 40 4 ≥ 2 ^ 30) Status.paramRange 40

/-! OBJECT_INFO, OBJECT_DELETE, OBJECT_RESTRICT, VAULT_USAGE (R264 to R268) -/

def objectInfo7 (m : Msg) : Option Final := keyAOnly m <|> m.mustZero 40 24

def objectInfo8 (s : State) (r : MsgRec) : Checked :=
  match s.needVault with
  | some f => .no f s
  | none => match s.readObj r.m.keyA with
    | .inl f => .no f s
    | .inr _ => checked s (s.forbids (s.dom' r) 3)

def objectInfoAct (s : State) (r : MsgRec) : Acted :=
  match s.readObj r.m.keyA with
  | .inl f => .ends f s
  | .inr o => .ends (Final.good o.info) s

def objectDelete7 (m : Msg) : Option Final := keyAOnly m <|> m.mustZero 44 20

/-- Checks 1 to 4 of R266 and R267 with a further test on the object. -/
def State.changeChecks (s : State) (r : MsgRec) (more : Obj → Option Final) : Option Final :=
  s.needWrites <|>
  match if internalNumber (handleNumber r.m.keyA) then none else s.findObj r.m.keyA with
  | none => some (Final.plain Status.keyNotFound)
  | some o =>
    failIf (!o.insts.getLsbD r.inst) Status.instanceNotPermitted 0
    <|> failIf (!versionOk o (r.m.field 40 4)) Status.keyVersion 0
    <|> more o

def objectDelete8 (s : State) (r : MsgRec) : Checked :=
  let d := s.dom' r
  let f := s.changeChecks r (fun _ => s.forbids d 4)
  if f.isNone && (s.prohibit d).getLsbD 5 then
    s.needTandem d 4 (sha384 (ascii "VW.DEL" ++ leBytes 5 r.m.keyA ++ leBytes 4 (r.m.field 40 4)))
  else checked s f

def objectDeleteAct (s : State) (r : MsgRec) : Acted := .commit [.delete r.m.keyA (r.m.field 40 4)] (Final.good []) s

/-- Ranges of the restriction block (Table 10.14). -/
def checkRestriction (b : Bytes) : Option Final :=
  inputIf (byteAt b 4 > 3) 0x100 4 <|> inputIf (byteAt b 5 ≥ 64) 0x100 5 <|> inputZero 0x100 b 6 2
  <|> inputZero 0x100 b 48 16

def objectRestrict7 (m : Msg) : Option Final :=
  keyAOnly m <|> m.mustZero 44 20 <|> (if m.inlineIn && m.inLen == 64 then checkRestriction m.input else none)

def objectRestrict8 (s : State) (r : MsgRec) : Checked :=
  checked s (s.changeChecks r (fun o =>
    failIf (s.vlt.badHandles.contains r.m.keyA) Status.vaultIntegrity 0
    <|> failIf (o.version ≥ versionLimit) Status.keyVersion 0
    <|> failIf ((o.restrict r.m.input).isNone) Status.policyRefused 0))

def objectRestrictAct (s : State) (r : MsgRec) : Acted :=
  .commit [.restrict r.m.keyA (r.m.field 40 4) r.m.input] (Final.good []) s

def vaultUsage7 (m : Msg) : Option Final := noKeys m <|> m.mustZero 40 24

def vaultUsage8 (s : State) (_ : MsgRec) : Checked := checked s s.needVault

def vaultUsageAct (s : State) (r : MsgRec) : Acted :=
  let d := s.dom' r
  .ends (Final.good (leBytes 8 (s.domainObjs d).length ++ leBytes 8 (s.domainUnits d) ++ leBytes 8 s.vaultUnits
    ++ leBytes 8 (2 ^ 33))) s

/-! KEY_GENERATE (R286) -/

def keyGenerate7 (m : Msg) : Option Final :=
  noKeys m <|> objectArea m <|> m.mustZero 44 20
  <|> (if m.inlineIn && m.inLen == 72 then checkAttr m.input (leAt m.input 0 2 / 256 == 4) true false (fun _ => true)
       else none)

def keyGenerate8 (s : State) (r : MsgRec) : Checked :=
  let d := s.dom' r
  checked s (s.needVault <|> s.attrPolicy d r.m.input <|> s.checkNew d (r.m.field 40 4))

/-- ALG of an attribute block that leads the input. -/
def MsgRec.attrAlg (r : MsgRec) : Nat := leAt r.m.input 0 2

/-- Generator and bytes that a generation draws. -/
def keyGenerateDraw (r : MsgRec) : Nat × Nat :=
  let alg := r.attrAlg
  if alg / 256 == 4 then (259, generateRandom (alg % 256)) else (257, (fixedLen alg).getD (leAt r.m.input 2 2))

/-- A TDEA draw whose parts are equal is drawn again; fuel bounds the draws. -/
def redrawF (n : Nat) : Nat → State → Bytes → Bytes × State
  | 0, s, b => (b, s)
  | f + 1, s, b => if tdeaDistinct b then (b, s) else
    let t := s.drawBytes 257 n
    redrawF n f t.2 t.1

def keyGenerateAct (s : State) (r : MsgRec) : Acted :=
  let alg := r.attrAlg
  let h := r.reserved.getD 0
  if alg / 256 == 4 then .engine s
  else
    let t := if alg / 256 == 2 then redrawF r.random.length 64 s r.random else (r.random, s)
    .commit [.create (attrObj r.m.input h t.1 false 1 s.seconds)] (Final.good []) t.2

/-- A generation whose candidates all failed is evidence of a failed random source, which is retested (R193). -/
def State.primesMissing (s : State) : State := if s.rng.phase == 0 || s.rng.phase ≥ 4 then s else s.healthFailure

/-- The end of the engine operation of a key pair generation. -/
def keyPairMade (s : State) (r : MsgRec) : Acted :=
  match generatePair (r.attrAlg % 256) r.random with
  | none => .ends (Final.plain Status.rngFault) s.primesMissing
  | some m => .commit [.create (attrObj r.m.input (r.reserved.getD 0) m true 1 s.seconds)] (Final.good []) s

/-! Key Update Messages (R289 to R294) -/

def keyUpdate7 (m : Msg) : Option Final := noKeys m <|> m.mustZero 40 24

def kumSigLen (sigalg : Nat) : Nat := if sigalg == 1 then 4627 else if sigalg == 2 then 96 else 4723

/-- Bytes of a KUM before its signature. -/
def kumBody (b : Bytes) : Nat := b.length - kumSigLen (byteAt b 6)

/-- WRAPPED and its material length. -/
def kumMaterialLen (b : Bytes) : Nat := kumBody b - 1748

/-- Check 1 of Table 11.8. -/
def kumFormat (b : Bytes) : Option Final :=
  let act := byteAt b 7
  let alg := leAt b 80 2
  let fits :=
    if act == 3 then kumBody b == 152
    else kumBody b ≥ 1748 && b.length ≥ kumSigLen (byteAt b 6) &&
      (match fixedLen alg with
      | some n => kumMaterialLen b == n
      | none =>
        if alg / 256 == 4 then !psets.contains (alg % 256) || [pairLen (alg % 256), pubLen (alg % 256)].contains (kumMaterialLen b)
        else if alg / 256 == 3 || alg == 0x0600 then kumMaterialLen b == leAt b 82 2
        else true)
  inputIf (b.take 4 != [0x4B, 0x55, 0x4D, 0x31]) 0x200 0
  <|> inputIf (leAt b 4 2 != b.length) 0x200 4
  <|> inputIf (byteAt b 6 == 0 || byteAt b 6 > 3) 0x200 6
  <|> inputIf (act == 0 || act > 3) 0x200 7
  <|> inputZero 0x200 b 69 3
  <|> inputIf (act == 1 && leAt b 72 4 != 0) 0x200 72
  <|> failIf (!fits) Status.lengthInvalid 0

/-- Check 4: the authority's kind and every signature half. -/
def State.kumSigned (s : State) (d : Nat) (b : Bytes) : Bool :=
  let k := byteAt b 6
  let key := s.authKey d
  let n := kumBody b
  let m := b.take n
  let sig := b.drop n
  k == s.authKind d && !key.isEmpty &&
  (match k with
  | 1 => dsaVerify mldsa87 key (dsaMu (dsaTr key) [] m) sig
  | 2 => p384.verify key sig (sha384 m) == some true
  | _ => idVerify (key.take 2592) (key.drop 2592) m sig)

/-- The pair flag a KUM's object has: the one of its material, or of the object whose attributes change. -/
def State.kumPair (s : State) (b : Bytes) : Bool :=
  let alg := leAt b 80 2
  if byteAt b 7 == 3 then ((s.findObj (leAt b 64 5)).map (·.pair)).getD false
  else alg / 256 == 4 && kumMaterialLen b == pairLen (alg % 256)

/-- Check 8. -/
def State.kumTarget (s : State) (b : Bytes) : Option Final :=
  let h := leAt b 64 5
  if byteAt b 7 == 1 then failIf (s.numberTaken h) Status.objectExists 0
  else match s.readObj h with
    | .inl f => some f
    | .inr o =>
      failIf (o.alg.toNat != leAt b 80 2) Status.keyAlgorithm 0
      <|> failIf (!versionOk o (leAt b 72 4) || o.version ≥ versionLimit) Status.keyVersion 0

/-- The key generation that a domain's receive key still needs (R283). -/
def State.drkWork (s : State) (d : Nat) : List IntWork :=
  if ((s.domRec d).map (·.drk)).getD false then [] else [{ IntWork.on (generateCycles 0x31) [] with drk := some d }]

/-- The material of a KUM (R290); none when its tag fails. -/
def State.kumMaterial (s : State) (d : Nat) (b : Bytes) : Option Bytes :=
  let k := kemDecaps mlkem1024 (s.drk d).2 (slice b 152 1568)
  let w := slice b 1732 (kumBody b - 1732)
  gcmOpen (kumKey k (leAt b 8 8) (leAt b 64 5)) (slice b 1720 12) (b.take 1732) (w.take (w.length - 16)) (w.drop (w.length - 16))

/-- Private values of Table 8.4: 0, 1, or the order or above is refused. -/
def scalarOk (n v : Nat) : Bool := 2 ≤ v && v < n

/-- The public key that an ML-DSA private key gives. -/
def dsaPublicOf (s : DsaSet) (sk : Bytes) : Bytes :=
  let e := 32 * dsaEtaBits s
  let vec (off n : Nat) : List Poly :=
    (List.range n).map (fun i => dsaUnpack (dsaEtaBits s) s.eta (slice sk (off + i * e) e))
  let rho := sk.take 32
  let t := List.zipWith (polyAdd dsaQ) (dsaMatMul s rho ((vec 128 s.l).map dsaNtt)) (vec (128 + s.l * e) s.k)
  rho ++ t.flatMap (fun p => packBits 10 (p.map (fun x => (dsaPower2 x).1)))

/-- Private values in range, and the public half that belongs to the private half (check 11). -/
def pairOk (ps : Nat) (m : Bytes) : Bool :=
  match ps with
  | 0x01 | 0x02 | 0x03 =>
    let k := rsaSize ps
    let f (off : Nat) : Nat := beNat (slice m off (k / 2))
    let n := beNat (m.take k)
    let p := f k
    let q := f (k + k / 2)
    rsaModulusOk k n && p * q == n && scalarOk p (f (2 * k)) && scalarOk q (f (2 * k + k / 2))
      && 65537 * f (2 * k) % (p - 1) == 1 && 65537 * f (2 * k + k / 2) % (q - 1) == 1
      && f (3 * k) < p && f (3 * k) * q % p == 1
  | 0x10 | 0x11 | 0x12 =>
    let c := psetCurve ps
    let d := beNat (m.take c.size)
    scalarOk c.n d && c.public d == m.drop c.size
  | 0x20 => x25519Public (m.take 32) == m.drop 32
  | 0x21 => edPublic (m.take 32) == m.drop 32
  | 0x30 | 0x31 =>
    let ek := kemEkOf (psetKem ps) m
    kemEkOk (psetKem ps) ek && slice m (m.length - 64) 32 == Hash.sha3_256.run ek 0 && kemPrivateOk (psetKem ps) m
  | _ =>
    let pk := m.drop (m.length - pubLen ps)
    dsaPublicOf (psetDsa ps) m == pk && slice m 64 64 == dsaTr pk

/-- Check 11. -/
def checkMaterial (alg : Nat) (pair : Bool) (m : Bytes) : Option Final :=
  failIf (alg / 256 == 2 && !tdeaDistinct m) Status.keyAlgorithm 0
  <|> failIf (pair && !pairOk (alg % 256) m) Status.pkInputRejected 0

/-- Checks 10 to 12 on the material of a CREATE or REPLACE. -/
def State.kumCheckMaterial (s : State) (d : Nat) (b : Bytes) : Option Final :=
  match s.kumMaterial d b with
  | none => some (Final.plain Status.unwrapFailed)
  | some m =>
    let alg := leAt b 80 2
    let pair := s.kumPair b
    let o := attrObj (slice b 80 72) 0 m pair 2 0
    checkMaterial alg pair m <|> failIf (o.check != slice b 112 3) Status.keyCheckMismatch 0

/-- The KUM counter of a domain. -/
def State.kumCounter (s : State) (d : Nat) : Nat := lookup0 s.prf.kumCounters d

/-- The recovery area's copies of domain 0's authority key as a use reads them (R376): a copy that fails against the
digest in the PRF is rewritten from the other; when both fail, that is recorded (its type and CODE a DESIGN CHOICE,
log 77). -/
def State.mendAuth (s : State) (d : Nat) : State :=
  if d != 0 || s.prf.auth0Kind == 0 then s
  else
    let good := fun k => sha384 k == s.prf.auth0Digest
    match s.nor.authKey.find? good with
    | some k => if s.nor.authKey.all good then s else { s with nor := { s.nor with authKey := s.nor.authKey.map (fun _ => k) } }
    | none => s.record 0x0302 0 2 (pay (prfAuth.headD 0) 2 0)

/-- Checks 4 to 9 of Table 11.8. -/
def State.kumSignedChecks (s : State) (d : Nat) (b : Bytes) : Option Final :=
  let ctr := s.kumCounter d
  let worn := lookup0 s.prf.counts d ≥ 100000000
  failIf (!s.kumSigned d b) Status.kumSignature 0
    <|> (if leAt b 8 8 ≤ ctr || worn then
          some { Final.refuse Status.kumCounter (if worn then 0xFFFFFFFF else 0) with info := leBytes 8 ctr }
        else none)
    <|> failIf (leAt b 76 4 != s.epoch d) Status.kumCounter 1
    <|> checkAttr (slice b 80 72) (s.kumPair b) (byteAt b 7 == 3) (byteAt b 7 == 3) (fun _ => true)
    <|> s.kumTarget b
    <|> s.forbids d 6
    <|> s.attrPolicy d (slice b 80 72)

/-- What the internal world does for check 4 of a Key Update Message: its signature verified under the authority in force. -/
def State.kumVerifyWork (s : State) (d : Nat) (b : Bytes) : List IntWork :=
  if byteAt b 6 != s.authKind d then [] else
  match s.authKind d with
    | 1 => [.on (verifyCycles 0x41) b]
    | 2 => [.on (verifyCycles 0x11) b]
    | 3 => idVerifyWork b
    | _ => []

/-- What it does for check 10: the domain's receive key made when none is, and the encapsulated secret opened (R283). -/
def State.kumOpenWork (s : State) (d : Nat) (b : Bytes) : List IntWork :=
  s.drkWork d ++ [{ IntWork.on (pkCycles .mlkemDecaps 0x31) b with image := (s.drk d).2 }]

/-- Table 11.8. -/
def keyUpdate8 (s : State) (r : MsgRec) : Checked :=
  let d := s.dom' r
  let b := r.m.input
  let h := leAt b 64 5
  match s.needWrites
    <|> kumFormat b
    <|> failIf (handleDomain h != d) Status.domainMismatch 0
    <|> failIf (internalNumber (handleNumber h)) (if byteAt b 7 == 1 then Status.objectExists else Status.keyNotFound) 0
    <|> failIf (slice b 16 48 != s.identDigest) Status.kumIdentity 0 with
  | some f => checked s (some f)
  | none =>
    if !(s.kumVerifyWork d b).isEmpty && !s.served (.message r.id) then .work (s.kumVerifyWork d b)
    else match (s.mendAuth d).kumSignedChecks d b with
      | some f => .no f (s.mendAuth d)
      | none =>
        if byteAt b 7 == 3 then checked (s.mendAuth d) none
        else if !s.opEnded (.message r.id) (pkCycles .mlkemDecaps 0x31) then .work (s.kumOpenWork d b)
        else checked (s.mendAuth d) ((s.mendAuth d).kumCheckMaterial d b)

/-- The counter is written, then the commit begins (R292). -/
def keyUpdateAct (s : State) (r : MsgRec) : Acted :=
  let d := s.dom' r
  let s := s.mendAuth d
  let b := r.m.input
  let h := leAt b 64 5
  let w := s.prfWrite (prfKum d)
  let t := { w.2 with prf := { w.2.prf with kumCounters := assign w.2.prf.kumCounters d (leAt b 8 8) } }
  let m := if byteAt b 7 == 3 then [] else (s.kumMaterial d b).getD []
  let o := attrObj (slice b 80 72) h m (s.kumPair b) 2 s.seconds
  .commit [if byteAt b 7 == 1 then .create o else .replace o (leAt b 72 4)] (Final.good []) t

/-! RECEIVE_KEY_GET, PUBLIC_KEY_GET, IDENTITY_GET (R287, R288) -/

def receiveKeyGet7 (m : Msg) : Option Final := noKeys m <|> m.mustZero 40 24

def receiveKeyGet8 (s : State) (_ : MsgRec) : Checked := checked s s.needVault

def receiveKeyGetAct (s : State) (r : MsgRec) : Acted :=
  let d := s.dom' r
  let b := [0x44, 0x52, 0x4B, 0x31] ++ leBytes 2 d ++ zeros 2 ++ leBytes 4 (s.epoch d) ++ zeros 4
    ++ leBytes 8 (s.kumCounter d) ++ s.identDigest ++ (s.drk d).1
  .ends (Final.good (b ++ s.idSign b r.random)) s

def publicKeyGet7 (m : Msg) : Option Final := keyAOnly m <|> m.mustZero 40 24

def publicKeyGet8 (s : State) (r : MsgRec) : Checked :=
  match s.needVault with
  | some f => .no f s
  | none => match s.readObj r.m.keyA with
    | .inl f => .no f s
    | .inr o =>
      checked s (failIf (algPset o.alg == 0) Status.keyAlgorithm 0 <|> s.forbids (s.dom' r) 3
        <|> checkCap r.m o.publicKey.length)

def publicKeyGetAct (s : State) (r : MsgRec) : Acted :=
  match s.readObj r.m.keyA with
  | .inl f => .ends f s
  | .inr o => .ends (Final.good o.publicKey) s

/-- The certificate chain as IDENTITY_GET returns it: none when its leaf keys are not the derived ones (R280). -/
def State.certChain (s : State) : Bytes :=
  if s.nor.chainMldsa == s.idMldsa.1 && s.nor.chainEc == s.idPoint then s.nor.chain else []

def identityGet7 (m : Msg) : Option Final := noKeys m <|> m.mustZero 40 24

/-- Answered in every state in which the root row is valid (R287); in the others LC_STATE (log 21). -/
def identityGet8 (s : State) (_ : MsgRec) : Checked := checked s (failIf (!s.rootValid) Status.lcState 0)

def identityGetAct (s : State) (_ : MsgRec) : Acted :=
  let c := s.certChain
  .ends (Final.good (s.identDigest ++ leBytes 4 c.length ++ zeros 12 ++ s.idMldsa.1 ++ s.idPoint ++ c)) s

/-! KEY_COMPONENT (R295, R296) -/

def compAlgOk (alg : Nat) : Bool := alg / 256 == 1 || alg / 256 == 2

def keyComponent7 (m : Msg) : Option Final :=
  noKeys m <|> objectArea m
  <|> failIf (m.field 44 1 == 0 || m.field 44 1 > 3) Status.paramRange 44
  <|> failIf (m.field 45 1 < 2 || m.field 45 1 > 3) Status.paramRange 45
  <|> m.mustZero 46 18
  <|> (if m.field 44 1 == 1 && m.inlineIn && m.inLen ≥ 72 then checkAttr m.input false false false compAlgOk else none)

/-- Length of part 1: the attribute block and a component. -/
def componentLength (m : Msg) : Option Final :=
  failIf (!m.inlineIn || (m.field 44 1 == 1 && m.inLen != 72 + (fixedLen (leAt m.input 0 2)).getD 0))
    Status.lengthInvalid 0

/-- D of a component import. -/
def componentDigest (d : Nat) (c : CompSession) (last : Bytes) : Bytes :=
  let alg := BitVec.ofNat 16 (leAt c.attr 0 2)
  sha384 (ascii "VW.KCI" ++ leBytes 5 (mkHandle d c.object) ++ c.attr
    ++ (c.comps ++ [last]).flatMap (fun x => checkValue alg x []))

def keyComponent8 (s : State) (r : MsgRec) : Checked :=
  let d := s.dom' r
  let base := s.needVault <|> s.forbids d 8
    <|> failIf ((s.prohibit d).getLsbD 9 && !s.lnk.ideIo) Status.policyRefused 0
  if r.m.field 44 1 == 1 then checked s (base <|> s.attrPolicy d r.m.input)
  else
    match base with
    | some f => .no f (if componentFinal r.m && (s.sessionFor r).isSome then s.endSession r.inst else s)
    | none =>
      match s.sessionFor r with
      | none => .no (Final.refuse Status.paramRange 44) s
      | some c =>
        let len := failIf (r.m.inLen != (fixedLen (leAt c.attr 0 2)).getD 0) Status.lengthInvalid 0
        if r.m.field 44 1 != c.parts then checked s len
        else match s.checkTandem (len <|> s.checkNew d c.object) d 1 (componentDigest d c r.m.input) with
          | .no f t => .no f (t.endSession r.inst)
          | x => x

def keyComponentAct (s : State) (r : MsgRec) : Acted :=
  let n := r.inst
  let answer (alg : Nat) (x : Bytes) : Final := Final.good (zeros 5 ++ checkValue (BitVec.ofNat 16 alg) x [])
  if r.m.field 44 1 == 1 then
    let x := r.m.input.drop 72
    let c : CompSession :=
      { object := r.m.field 40 4, parts := r.m.field 45 1, attr := r.m.input.take 72, comps := [x], until_ := s.opTime + 120000 }
    .ends (answer r.attrAlg x) (s.modInst n (fun i => { i with compSession := some c }))
  else
    match s.sessionFor r with
    | none => .ends (Final.refuse Status.paramRange 44) s
    | some c =>
      let l := c.comps ++ [r.m.input]
      let alg := leAt c.attr 0 2
      if r.m.field 44 1 != c.parts then
        .ends (answer alg r.m.input) (s.modInst n (fun i => { i with compSession := some { c with comps := l } }))
      else
        let t := s.endSession n
        let key := l.foldl xorB (zeros ((fixedLen alg).getD 0))
        if alg / 256 == 2 && !tdeaDistinct key then .ends (Final.plain Status.keyAlgorithm) t
        else if checkValue (BitVec.ofNat 16 alg) key [] != attrKcv c.attr then .ends (Final.plain Status.keyCheckMismatch) t
        else .commit [.create (attrObj c.attr (r.reserved.getD 0) key false 4 s.seconds)] (Final.good []) t

/-! KEY_EXPORT (R297) -/

/-- An ML-KEM-1024 key of a usage for use by the instance. -/
def State.kemKey (s : State) (r : MsgRec) (h usage : Nat) (pair : Bool) : Final ⊕ Obj :=
  s.checkKey r.inst h usage 1 (fun o => o.alg == 0x0431 && (!pair || o.pair))

def exportFirst (m : Msg) : Nat := m.field 40 4
def exportCount (m : Msg) : Nat := m.field 44 4

def exportLargest (m : Msg) : Nat := 4365 + exportCount m * 8152 + 16 + 4723

def keyExport7 (m : Msg) : Option Final :=
  keyBOnly m
  <|> failIf (exportFirst m > 0x3FFFFEFF) Status.paramRange 40
  <|> failIf (exportCount m == 0 || exportCount m > 65536 || exportFirst m + exportCount m > 0x3FFFFF00) Status.paramRange 44
  <|> m.mustZero 48 16

def keyExport8 (s : State) (r : MsgRec) : Checked :=
  let d := s.dom' r
  match s.needVault with
  | some f => .no f s
  | none => match s.kemKey r r.m.keyB 9 false with
    | .inl f => .no f s
    | .inr o =>
      s.checkTandem (s.forbids d 7) d 2
        (sha384 (ascii "VW.EXP" ++ leBytes 5 r.m.keyB ++ o.check ++ leBytes 4 (exportFirst r.m) ++ leBytes 4 (exportCount r.m)))

/-- One entry of BODY. -/
def exportEntry (o : Obj) : Bytes :=
  leBytes 4 (handleNumber o.handle) ++ leBytes 1 o.units ++ zeros 3 ++ o.header ++ o.material

/-- Objects of the range that may leave the module. -/
def State.exportable (s : State) (d first count : Nat) : List Obj :=
  (s.domainObjs d).filter (fun o =>
    o.exportable && first ≤ handleNumber o.handle && handleNumber o.handle < first + count)

def keyExportAct (s : State) (r : MsgRec) : Acted :=
  let d := s.dom' r
  let first := exportFirst r.m
  let count := exportCount r.m
  let l := s.exportable d first count
  match s.readObj r.m.keyB with
  | .inl f => .ends f s
  | .inr k =>
    if l.any (fun o => s.vlt.badHandles.contains o.handle) then .ends (Final.plain Status.vaultIntegrity) s
    else
      let kem := kemEncaps mlkem1024 k.publicKey (slice r.random 12 32)
      let plain := l.flatMap exportEntry
      let head := [0x4B, 0x42, 0x45, 0x31] ++ leBytes 2 d ++ zeros 2 ++ leBytes 4 first ++ leBytes 4 count
        ++ leBytes 4 l.length ++ leBytes 4 (count - l.length) ++ leBytes 8 s.seconds ++ s.identDigest ++ k.check ++ zeros 5
        ++ leBytes 8 (plain.length + 16) ++ s.idMldsa.1 ++ s.idPoint ++ kem.1 ++ r.random.take 12
      let body := gcmSeal (bodyKey kem.2 first count s.seconds) (r.random.take 12) head plain
      let all := head ++ body.1 ++ body.2
      .ends (Final.good (all ++ s.idSign all (r.random.drop 44))) s

/-! KEY_RESTORE (R298) -/

def keyRestore7 (m : Msg) : Option Final := keyAOnly m <|> m.mustZero 40 24

def keyRestore8 (s : State) (r : MsgRec) : Checked :=
  let d := s.dom' r
  match s.needWrites with
  | some f => .no f s
  | none => match s.kemKey r r.m.keyA 10 true with
    | .inl f => .no f s
    | .inr _ =>
      s.checkTandem (s.forbids d 10) d 3 (sha384 (ascii "VW.RST" ++ leBytes 5 r.m.keyA ++ r.m.input.take 96))

/-- The header format of an envelope. -/
def envelopeOk (b : Bytes) : Bool :=
  b.length ≥ 9104 && b.take 4 == [0x4B, 0x42, 0x45, 0x31] && allZero (slice b 6 2) && allZero (slice b 83 5)
    && leAt b 88 8 ≥ 16 && leAt b 88 8 + 9088 == b.length

/-- An object from the record bytes of an entry, in domain d (R298). -/
def entryObj (d num : Nat) (e : Bytes) : Obj :=
  { Obj.reset with
    handle := mkHandle d num, alg := BitVec.ofNat 16 (leAt e 0 2), usage := BitVec.ofNat 32 (leAt e 4 4), world := byteAt e 8,
    lcmask := BitVec.ofNat 8 (byteAt e 9), pair := byteAt e 10 % 2 == 1, exportable := byteAt e 10 / 2 % 2 == 1, origin := 5,
    version := leAt e 12 4, validFrom := leAt e 16 8, validUntil := leAt e 24 8, insts := BitVec.ofNat 256 (leAt e 40 32),
    created := leAt e 72 8, material := slice e 96 (leAt e 2 2) }

/-- An entry that may be committed: an algorithm and a length of Table 10.5, and usage bits of its class (R238, R239). The
material of a set of Table 8.1 has the length of its set. -/
def entryOk (o : Obj) : Bool :=
  let alg := o.alg.toNat
  let n := o.material.length
  let us := o.usage.toNat
  algCodes.contains alg && us &&& (0xFFFFFFFF ^^^ usageMask alg o.pair) == 0
    && (if alg / 256 == 3 then 14 ≤ n && n ≤ 192
        else if alg == 0x0600 then 1 ≤ n && n ≤ 8048
        else if alg / 256 == 4 then n == (if o.pair then pairLen else pubLen) (alg % 256)
        else fixedLen alg == some n)
    && (alg / 256 == 4 || !o.pair)

/-- The entries of a body; none when one runs past its end. Fuel bounds the entries. -/
def entriesF (d : Nat) : Nat → Bytes → Option (List Obj)
  | 0, _ => none
  | f + 1, b =>
    if b.isEmpty then some []
    else if b.length < 104 || b.length < 104 + leAt b 10 2 then none
    else (entriesF d f (b.drop (104 + leAt b 10 2))).map (fun l => entryObj d (leAt b 0 4) (b.drop 8) :: l)

/-- Pass 1: the entries, or the status that ends the message. An entry that no vault may hold fails like one that cannot be
read (DESIGN CHOICE, log 72: R239 has the creating chapter refuse it and R298 names no status). -/
def restoreEntries (d : Nat) (k : Obj) (b : Bytes) : BitVec 16 ⊕ List Obj :=
  if !envelopeOk b then .inl Status.lengthInvalid
  else
    let mldsa := slice b 96 2592
    let ec := slice b 2688 97
    let n := 4365 + leAt b 88 8
    if sha384 (mldsa ++ ec) != slice b 32 48 || !idVerify mldsa ec (b.take n) (b.drop n) then .inl Status.unwrapFailed
    else if slice b 80 3 != k.check then .inl Status.keyCheckMismatch
    else
      let secret := kemDecaps mlkem1024 k.material (slice b 2785 1568)
      let body := slice b 4365 (leAt b 88 8)
      match gcmOpen (bodyKey secret (leAt b 8 4) (leAt b 12 4) (leAt b 24 8)) (slice b 4353 12) (b.take 4365)
          (body.take (body.length - 16)) (body.drop (body.length - 16)) with
      | none => .inl Status.unwrapFailed
      | some p => match entriesF d (p.length + 1) p with
        | none => .inl Status.unwrapFailed
        | some l => if l.all entryOk then .inr l else .inl Status.unwrapFailed

/-- Entries restored and skipped by the batches that have switched, as RESULT gives them; the counts with the batch on its way
follow them in the record. -/
def restoreCounts (r : MsgRec) : Bytes := fit 8 r.params

/-- The batch on its way has switched. -/
def MsgRec.restored (r : MsgRec) : MsgRec := { r with params := slice r.params 8 8 }

/-- The counts go with the status that a commit of KEY_RESTORE ends with. -/
def MsgRec.withCounts (r : MsgRec) (f : Final) : Final :=
  if r.op == .keyRestore then { f with output := restoreCounts r } else f

/-- The next batch of up to 32 entries; its numbers are reserved until its commit. An object lost with its page is restored in
place (R250). -/
def restoreNext (s : State) (r : MsgRec) (l : List Obj) : Acted :=
  let rest := l.drop r.done_
  if rest.isEmpty then .ends (r.withCounts (Final.good [])) s
  else
    let now := rest.take 32
    let free := now.filter (fun o => !s.numberTaken o.handle || (s.vlt.badHandles.contains o.handle && !o.internal))
    let c := restoreCounts r
    let p := leBytes 4 (leAt c 0 4 + free.length) ++ leBytes 4 (leAt c 4 4 + now.length - free.length)
    let t := (s.modMsg r.id (fun r => { r with done_ := r.done_ + now.length, params := c ++ p }))
    let t := { t with vlt := { t.vlt with reserved := t.vlt.reserved ++ free.map (·.handle) } }
    .commit (free.map .create) (Final.good []) t

def keyRestoreAct (s : State) (r : MsgRec) : Acted :=
  match s.readObj r.m.keyA with
  | .inl f => .ends f s
  | .inr k => match restoreEntries (s.dom' r) k r.m.input with
    | .inl st => .ends (r.withCounts (Final.plain st)) s
    | .inr l => restoreNext s r l

end Sys2Proof.Machine
end

