-- ==== Sys2Proof/Machine/Sequencer.lean ====
section
/-! DEFINITION. Image programs (chapter 6): the instruction word, the walk over a program's words, the loader's verifier
with the lap lengths it computes, and one lap of a loaded program. -/

namespace Sys2Proof.Machine

/-! The instruction word (R154, Table 6.2) -/

/-- Bits lo to lo + n - 1 of a word. -/
def wordBits (w : BitVec 64) (lo n : Nat) : Nat := w.toNat / 2 ^ lo % 2 ^ n

def wOp (w : BitVec 64) : Nat := wordBits w 58 6
def wPar (w : BitVec 64) : Bool := wordBits w 57 1 == 1
def wRd (w : BitVec 64) : Nat := wordBits w 53 4
def wRa (w : BitVec 64) : Nat := wordBits w 49 4
def wRb (w : BitVec 64) : Nat := wordBits w 45 4
/-- Bits lo to lo + n - 1 of the word, within OPX, bits 44 to 32. -/
def wOpx (w : BitVec 64) (lo n : Nat) : Nat := wordBits w lo n
def wLds (w : BitVec 64) : Nat := wordBits w 30 2
def wLdr (w : BitVec 64) : Nat := wordBits w 26 4
def wSts (w : BitVec 64) : Nat := wordBits w 24 2
def wStr (w : BitVec 64) : Nat := wordBits w 20 4
def wImm (w : BitVec 64) : Nat := wordBits w 0 16

def opBlock : Nat := 0x01
def opLoop : Nat := 0x10
def opBr : Nat := 0x11
def opEnd : Nat := 0x12
def opCompress : Nat := 0x20
def opPermute : Nat := 0x21

def wIsInc (w : BitVec 64) : Bool := wOp w == 0x09 || wOp w == 0x0A
def wIsControl (w : BitVec 64) : Bool := wOp w == opLoop || wOp w == opBr || wOp w == opEnd
/-- The main operation has a destination register. -/
def wHasRd (w : BitVec 64) : Bool := !(wIsControl w || wOp w == opCompress || wOp w == opPermute)

/-- KSEL of a BLOCK: key register B. -/
def wKeyB (w : BitVec 64) : Bool := wOpx w 41 1 == 1

/-- Cycles of a word for a key A of b cycles per block and a key B of b2 (R155). -/
def wCost (b : Nat) (w : BitVec 64) (b2 : Nat := b) : Nat :=
  if wOp w == opBlock then (if wOpx w 38 2 != 0 then 48 else if wKeyB w then b2 else b)
  else if wIsControl w then 0
  else if wIsInc w && wPar w then 0
  else if wOp w == opCompress then (if wOpx w 44 1 == 1 then 82 else 66)
  else if wOp w == opPermute then 24
  else 1

/-! Length counters and conditions (R159, Table 6.4) -/

/-- The counters and conditions of a lap. -/
structure LapEnv where
  nAad    : Nat
  nTxt    : Nat
  nDu     : Nat
  nBpu    : Nat
  nSemi   : Nat
  first   : Bool
  last    : Bool
  isPart  : Bool
  noAad   : Bool
  noTxt   : Bool
  decrypt : Bool
deriving DecidableEq, Repr

/-- Iterations of a LOOP. -/
def LapEnv.count (e : LapEnv) (w : BitVec 64) : Nat :=
  match wOpx w 32 4 with
  | 0 => wOpx w 36 9
  | 1 => e.nAad
  | 2 => e.nTxt
  | 3 => e.nDu
  | 4 => e.nBpu
  | _ => e.nSemi

/-- The condition of a BR, with its inversion. -/
def LapEnv.holds (e : LapEnv) (w : BitVec 64) : Bool :=
  (match wOpx w 32 4 with
   | 0 => true
   | 1 => e.first
   | 2 => e.last
   | 3 => e.isPart
   | 4 => e.noAad
   | 5 => e.noTxt
   | _ => e.decrypt) != (wOpx w 36 1 == 1)

/-! Walking a program -/

/-- Run words i to e - 1 on a value: act is the effect of the word of an index, for LOOP and BR that of their side transfers, rep
repeats a loop body, stop tells that END was met. Fuel bounds the words of a path. -/
def walkF {α : Type} (ws : List (BitVec 64)) (env : LapEnv) (rep : Nat → (α → α) → α → α)
    (act : Nat → BitVec 64 → α → α) (stop : α → Bool) : Nat → Nat → Nat → α → α
  | 0, _, _, a => a
  | f + 1, i, e, a =>
    if i ≥ e || stop a then a
    else
      let w := ws.getD i 0
      let a := act i w a
      if wOp w == opLoop then
        let b := i + 1 + wImm w
        walkF ws env rep act stop f b e (rep (env.count w) (walkF ws env rep act stop f (i + 1) b) a)
      else walkF ws env rep act stop f (if wOp w == opBr && env.holds w then wImm w else i + 1) e a

/-- What a path counts. -/
structure Tally where
  cost  : Nat
  aad   : Nat
  txt   : Nat
  st    : Nat
  stt   : Nat
  ended : Bool
deriving DecidableEq, Repr

def Tally.zero : Tally := { cost := 0, aad := 0, txt := 0, st := 0, stt := 0, ended := false }

/-- a followed by n times b. -/
def Tally.add (a b : Tally) (n : Nat) : Tally :=
  { cost := a.cost + n * b.cost, aad := a.aad + n * b.aad, txt := a.txt + n * b.txt, st := a.st + n * b.st,
    stt := a.stt + n * b.stt, ended := b.ended }

def tallyRep (n : Nat) (f : Tally → Tally) (a : Tally) : Tally :=
  if n == 0 then a
  else
    let b := f Tally.zero
    a.add b (if b.ended then 1 else n)

/-- A COMPRESS or PERMUTE that takes the next block of the padded text (Table 7.6). -/
def wTakesText (w : BitVec 64) : Bool :=
  (wOp w == opCompress || (wOp w == opPermute && wOpx w 39 1 == 0)) && wOpx w 41 1 == 0

def tallyWord (b b2 : Nat) (w : BitVec 64) (a : Tally) : Tally :=
  { cost := a.cost + wCost b w b2
    aad := a.aad + bit (wLds w == 1)
    txt := a.txt + bit (wLds w == 2) + bit (wTakesText w)
    st := a.st + bit (wSts w == 1)
    stt := a.stt + bit (wSts w == 2)
    ended := wOp w == opEnd }

/-- The tally of a whole lap, with b and b2 cycles per block of keys A and B. -/
def tally (ws : List (BitVec 64)) (env : LapEnv) (b : Nat) (b2 : Nat := b) : Tally :=
  walkF ws env tallyRep (fun _ => tallyWord b b2) Tally.ended (ws.length + 1) 0 ws.length Tally.zero

/-! The header of a program (R163, Table 6.6) -/

/-- A header with its words and constants, before any check. -/
def parseProgram (b : Bytes) : Program :=
  let words := leAt b 10 2
  let consts := leAt b 12 2
  { Program.reset with
    slot := byteAt b 4
    id := leAt b 0 2
    version := leAt b 2 2
    kind := byteAt b 5
    alg := byteAt b 6
    init := byteAt b 7
    derive := byteAt b 8
    keys := byteAt b 9
    words := (List.range words).map (fun i => BitVec.ofNat 64 (leAt b (32 + 8 * i) 8))
    consts := (List.range consts).map (fun i => BitVec.ofNat 128 (beNat (slice b (32 + 8 * words + 16 * i) 16)))
    opcodes := ((List.range 4).map (fun i => leAt b (16 + 2 * i) 2)).filter (· != 0) }

/-- V01: header fields, with the slots already taken. -/
def headerBad (b : Bytes) (taken : List Nat) : Bool :=
  let p := parseProgram b
  p.id == 0 || p.slot < 36 || p.slot > 63 || taken.contains p.slot || p.kind == 0 || p.kind > 2
    || p.alg > 2 || (p.kind == 2 && p.alg != 0) || p.init > 3 || p.derive > 2 || p.keys == 0 || p.keys > 2
    || leAt b 10 2 == 0 || leAt b 10 2 > 4096 || leAt b 12 2 > 64 || leAt b 14 2 != 0 || !allZero (slice b 24 8)
    || p.opcodes.any (fun o => ! [2, 3, 7, 9].contains (o / 256))
    || b.length != 32 + 8 * leAt b 10 2 + 16 * leAt b 12 2

/-! The verifier (R165, Table 6.7) -/

/-- OPX within the operation's fields, and IMM in range or 0 (V02). -/
def wordBad (digest : Bool) (w : BitVec 64) : Bool :=
  let opx := wOpx w 32 13
  let noImm := wImm w != 0
  let side := wordBits w 16 4 != 0 || wLds w == 3 || wSts w == 3 || (digest && (wLds w != 0 || wStr w != 0))
  side || (match wOp w with
    | 0x01 => wOpx w 32 6 != 0 || wOpx w 43 2 == 3 || noImm
    | 0x02 => opx / 4 != 0 || noImm
    | 0x03 | 0x04 | 0x07 | 0x08 | 0x09 | 0x0A | 0x12 => opx != 0 || noImm
    | 0x05 | 0x06 => opx != 0 || wImm w == 0 || wImm w > 127
    | 0x0B => opx > 1 || noImm
    | 0x0C => opx > 3 || noImm
    | 0x0D => opx != 0
    | 0x10 => wOpx w 32 4 > 5 || (wOpx w 32 4 == 0 && wOpx w 36 9 == 0)
    | 0x11 => wOpx w 37 8 != 0 || wOpx w 32 4 > 6
    | 0x20 => wOpx w 32 8 != 0 || noImm
    | 0x21 => wOpx w 32 7 != 0 || wOpx w 44 1 != 0 || noImm
    | _ => true)

/-- Digest opcodes that a COMPRESS of W 0 or 1 fits (R186): SHA-2 of that block, and HMAC, whose hash its key names. -/
def compressFits (w : Nat) : List Nat := (if w == 0 then [0x0301, 0x0302] else [0x0303, 0x0304]) ++ [0x0310, 0x0311]

/-- A word of the other kind (V03), with a W that does not fit the opcodes (R186). -/
def kindBad (p : Program) (w : BitVec 64) : Bool :=
  match wOp w with
  | 0x01 | 0x07 | 0x08 => p.kind != 1
  | 0x20 => p.kind != 2 || p.opcodes.any (fun o => o / 256 == 3 && !(compressFits (wOpx w 44 1)).contains o)
  | 0x21 => p.kind != 2
  | _ => false

/-- The body that holds word i most closely, as first word and end; the whole program outside loops. -/
def bodyOf (ws : List (BitVec 64)) (i : Nat) : Nat × Nat :=
  (List.range i).foldl (fun r k =>
    let w := ws.getD k 0
    if wOp w == opLoop && i < k + 1 + wImm w then (k + 1, k + 1 + wImm w) else r) (0, ws.length)

/-- Loops around word i. -/
def depthOf (ws : List (BitVec 64)) (i : Nat) : Nat :=
  ((List.range i).filter (fun k => let w := ws.getD k 0; wOp w == opLoop && i < k + 1 + wImm w)).length

/-- V04 at a word. -/
def structureBad (ws : List (BitVec 64)) (i : Nat) : Bool :=
  let w := ws.getD i 0
  let b := bodyOf ws i
  if wOp w == opLoop then i + 1 + wImm w > b.2
  else if wOp w == opBr then wImm w ≤ i || wImm w ≥ b.2 || bodyOf ws (wImm w) != b
  else false

/-- Counters that mean something for an opcode (V05). -/
def counterMeant (code src : Nat) : Bool :=
  match src with
  | 1 => [0x0210, 0x0211, 0x0212, 0x0213].contains code
  | 3 | 4 => [0x0209, 0x020A].contains code
  | 5 => [0x0220, 0x0221].contains code
  | _ => true

/-- V05 at a word. -/
def loopBad (p : Program) (i : Nat) : Bool :=
  let w := p.words.getD i 0
  if wOp w != opLoop then false
  else
    depthOf p.words i ≥ 4
      || ((p.words.drop (i + 1)).take (wImm w)).all (fun x => wCost 15 x == 0)
      || p.opcodes.any (fun o => !counterMeant o (wOpx w 32 4))

/-- V06 at a word. It follows its BLOCK on every path: none branches to it, and no loop body ends between the two. -/
def parBad (ws : List (BitVec 64)) (i : Nat) : Bool :=
  let w := ws.getD i 0
  if !wPar w then false
  else
    let b := ws.getD (i - 1) 0
    let reads := [wRa w] ++ (if wSts w != 0 then [wStr w] else [])
    let writes := [wRd w] ++ (if wLds w != 0 then [wLdr w] else [])
    !wIsInc w || i == 0 || wOp b != opBlock || bodyOf ws i != bodyOf ws (i - 1)
      || ws.any (fun x => wOp x == opBr && wImm x == i) || (reads ++ writes).contains (wRd b) || (reads ++ writes).contains (wRb b)

/-- V07 at a word: the word before it, and at the start of a loop body the last word of the body (R158). -/
def preXorBad (ws : List (BitVec 64)) (i : Nat) : Bool :=
  let w := ws.getD i 0
  if wOp w != opBlock || wOpx w 43 2 != 1 then false
  else
    let clash (k : Nat) : Bool := let x := ws.getD k 0; wHasRd x && wRd x == wRb w
    (i > 0 && clash (i - 1)) || (let b := bodyOf ws i; b.1 == i && i > 0 && clash (b.2 - 1))

/-- V08 at a word. -/
def keyBad (p : Program) (w : BitVec 64) : Bool :=
  wOp w == opBlock && (wOpx w 38 2 != 0 || (wKeyB w && p.keys == 1))

/-- A LOOP whose body always runs: its count is a constant, 1 at least. -/
def alwaysRuns (w : BitVec 64) : Bool := wOpx w 32 4 == 0

/-- The words that some path reaches; the index after the last word stands for a path that misses END (V09). Words come in order, so a
word is known to be reached when its turn comes; the word after a loop body is reached from the body's words, and where the body can be
skipped from the LOOP as well. -/
def reached (ws : List (BitVec 64)) : List Nat :=
  (List.range ws.length).foldl (fun r i =>
    if !r.contains i then r
    else
      let w := ws.getD i 0
      if wOp w == opEnd then r
      else if wOp w == opLoop then r ++ [i + 1] ++ (if alwaysRuns w then [] else [i + 1 + wImm w])
      else if wOp w == opBr then
        if wOpx w 32 4 == 0 then r ++ [if wOpx w 36 1 == 0 then wImm w else i + 1] else r ++ [i + 1, wImm w]
      else r ++ [i + 1]) [0]

/-- Opcodes that write transformed text, and those that produce or check a tag or MAC (V10). -/
def writesText (code : Nat) : Bool := code / 256 == 2 && code < 0x0230
def hasTag (code : Nat) : Bool :=
  [0x0210, 0x0211, 0x0212, 0x0213, 0x0230, 0x0231, 0x0232, 0x0233, 0x0310, 0x0311].contains code
def codeDecrypts (code : Nat) : Bool := ((opcodeOf (BitVec.ofNat 16 code)).map Op.isDecrypt).getD false

/-- The combinations of conditions and counters on which V10 is tested for an opcode. Counts of a path are polynomials
with coefficients that are not negative and of degree at most 4 in each counter, which five values of each settle. A wrap has one or
two semiblocks in its last block. -/
def sampleEnvs (code : Nat) : List LapEnv :=
  let ns : List Nat := [0, 1, 2, 3, 4, 5]
  let fl : List Bool := [false, true]
  let aads := if counterMeant code 1 then ns else [0]
  let dus := if counterMeant code 3 then ns else [1]
  let odds := if counterMeant code 5 then [0, 1] else [0]
  aads.flatMap (fun a => ns.flatMap (fun t => dus.flatMap (fun d => odds.flatMap (fun o =>
    fl.flatMap (fun f => fl.flatMap (fun l => fl.map (fun pt =>
      { nAad := a, nTxt := t * d, nDu := d, nBpu := t
        nSemi := 2 * t - o - (if code == 0x0220 then 0 else 1)
        first := f, last := l, isPart := pt, noAad := a == 0, noTxt := t * d == 0, decrypt := codeDecrypts code })))))))

/-- V10 for an opcode: loads within the lap, the stores it needs, one STT in the last lap where it has a tag. SHAKE needs as many
stores as OUT_LEN asks for, which no counter gives: a program stores at least one block, in the last lap (DEDUCED, log 12). -/
def storesBad (ws : List (BitVec 64)) (code : Nat) : Bool :=
  (sampleEnvs code).any (fun e =>
    let t := tally ws e 15
    let need := if writesText code then e.nTxt else if code / 256 == 3 && !hasTag code then bit e.last else 0
    let stores := if code == 0x0309 || code == 0x030A then e.last != (t.st == 0) else t.st == need
    t.aad > e.nAad || t.txt > e.nTxt || !stores || t.stt != bit (e.last && hasTag code))

/-- Conditions in every combination, with the counters of loops those of a blocks of AAD and t blocks of text. A block has two
semiblocks. -/
def costEnvs (a t : Nat) : List LapEnv :=
  let fl : List Bool := [false, true]
  fl.flatMap (fun f => fl.flatMap (fun l => fl.flatMap (fun pt => fl.flatMap (fun na => fl.flatMap (fun nt => fl.map (fun d =>
    { nAad := a, nTxt := t, nDu := t, nBpu := t, nSemi := 2 * t, first := f, last := l, isPart := pt, noAad := na, noTxt := nt
      decrypt := d }))))))

/-- F of R166: the cycles of a path that depend on no counter, on any combination of conditions. -/
def fixedCost (ws : List (BitVec 64)) (b : Nat) : Nat :=
  ((costEnvs 0 0).map (fun e => (tally ws e b).cost)).foldl max 0

/-- c of R166: the cycles one block adds, a block of AAD or a block of text. -/
def blockCost (ws : List (BitVec 64)) (b : Nat) : Nat :=
  let grow (a t : Nat) : Nat :=
    ((List.zipWith (fun e0 e1 => (tally ws e1 b).cost - (tally ws e0 b).cost) (costEnvs 0 0) (costEnvs a t)).foldl max 0)
  max (grow 1 0) (grow 0 1)

/-- The lap length of R166 for block size bs and b cycles per block. -/
def lapLength (ws : List (BitVec 64)) (bs b : Nat) : Nat :=
  let c := blockCost ws b
  let most := 65536 / bs
  bs * (if c == 0 then most else min most ((396000 - fixedCost ws b) / c))

/-- The b values of the key algorithms a program accepts. -/
def Program.keyCycles (p : Program) : List Nat :=
  if p.kind == 2 then [0] else if p.alg == 0 then [15] else if p.alg == 1 then [48] else [15, 48]

/-- V13: an opcode of another kind, one that does not exist, or a built-in transaction function. -/
def opcodeBad (p : Program) (code : Nat) : Bool :=
  match opcodeOf (BitVec.ofNat 16 code) with
  | none => true
  | some o => o.family ≥ 7 || o == .digestResult || o.kind != some (p.kind - 1)

/-- Words left in the store: 6,144 less those of the programs already loaded (R160). -/
def wordsUsed (l : List Program) : Nat := (l.map (fun p => p.words.length + 2 * p.consts.length)).foldl (· + ·) 0

/-- The first word index at which a test fails. -/
def firstWord (p : Program) (f : Nat → Bool) : Option Nat := (List.range p.words.length).find? f

/-- The verifier on a program field: the rule broken and the word index, or the program with its lap lengths. Rules are
taken in the order of Table 6.7 (DEDUCED, log 12). A digest program has no key whose B the lap length could take: it takes the block of
its first opcode's hash, or 64 where that opcode names none (DESIGN CHOICE, log 93). The word index is 0 for a rule that no one word breaks: V01, V10, V12, V13, and V11
of a full store (DESIGN CHOICE, log 12: R164 reports a failing word index and names none for them). -/
def verifyProgram (b : Bytes) (loaded : List Program) (taken : List Nat) : (Nat × Nat) ⊕ Program :=
  let p := parseProgram b
  let ws := p.words
  let word (i : Nat) : BitVec 64 := ws.getD i 0
  let r := reached ws
  let fail : Option (Nat × Nat) :=
    (if headerBad b taken then some (1, 0) else none)
    <|> ((firstWord p (fun i => wordBad (p.kind == 2) (word i))).map (fun i => (2, i)))
    <|> ((firstWord p (fun i => kindBad p (word i))).map (fun i => (3, i)))
    <|> ((firstWord p (structureBad ws)).map (fun i => (4, i)))
    <|> ((firstWord p (loopBad p)).map (fun i => (5, i)))
    <|> ((firstWord p (parBad ws)).map (fun i => (6, i)))
    <|> ((firstWord p (preXorBad ws)).map (fun i => (7, i)))
    <|> ((firstWord p (fun i => keyBad p (word i))).map (fun i => (8, i)))
    <|> ((firstWord p (fun i => !r.contains i)).map (fun i => (9, i)))
    <|> (if r.contains ws.length then some (9, ws.length - 1) else none)
    <|> (if p.opcodes.any (storesBad ws) then some (10, 0) else none)
    <|> ((firstWord p (fun i => wOp (word i) == 0x0D && wImm (word i) ≥ p.consts.length)).map (fun i => (11, i)))
    <|> (if wordsUsed loaded + ws.length + 2 * p.consts.length > 6144 then some (11, 0) else none)
    <|> (if p.keyCycles.any (fun c => blockCost ws c + fixedCost ws c > 396000) then some (12, 0) else none)
    <|> (if p.opcodes.any (opcodeBad p) then some (13, 0) else none)
  match fail with
  | some f => .inl f
  | none =>
    let digestBlock := (((p.opcodes.head?).bind (fun o => opcodeOf (BitVec.ofNat 16 o))).bind
      (fun o => digestHash o 0)).map Hash.block
    .inr { p with
      start := 2048 + wordsUsed loaded
      lapA := if p.kind == 2 then lapLength ws (digestBlock.getD 64) 0 else if p.alg == 1 then 0
              else lapLength ws 16 15
      lapT := if p.kind == 2 || p.alg == 0 then 0 else lapLength ws 8 48 }

/-! One lap of a loaded program (R153 to R159, R168, R186) -/

/-- What a lap of a loaded program sees: the job, the lap's conditions, the input bytes that it can load with the position of the
first in the stream, the padding, the expected MAC, and the engine's key registers. -/
structure SeqEnv where
  job      : Job
  lap      : LapEnv
  data     : Bytes
  base     : Nat
  pads     : Bytes
  expected : Bytes
  key      : KeyRegs
deriving DecidableEq, Repr

/-- The sequencer while a lap runs: registers, region pointers, hash state, pass buffer, output, and the region of the last load. -/
structure Seq where
  regs    : List (BitVec 128)
  aadAt   : Nat
  txtAt   : Nat
  hash    : List (BitVec 64)
  pass    : Bytes
  out     : Bytes
  tag     : Bytes
  fail    : Bool
  inAad   : Bool
  ended   : Bool
deriving DecidableEq, Repr

def Seq.reg (s : Seq) (r : Nat) : Bytes := beBytes 16 (s.regs.getD r 0).toNat
def Seq.setReg (s : Seq) (r : Nat) (v : Bytes) : Seq :=
  { s with regs := modAt s.regs r (fun _ => BitVec.ofNat 128 (beNat (fit 16 v))) }

/-- The program of a job and its digest kind. -/
def Job.onDigest (j : Job) : Bool := j.op.kind == some 1
def SeqEnv.prog (e : SeqEnv) : Program := e.job.prog.getD Program.reset

/-- The block in a register occupies its leftmost bytes (DEDUCED, log 12). -/
def SeqEnv.bs (e : SeqEnv) : Nat := e.job.block

/-- Bytes of the text region: of a cipher program with its padding. -/
def SeqEnv.textLen (e : SeqEnv) : Nat :=
  if e.job.onDigest then e.job.hashed else e.job.textEnd - e.job.aadLen + e.pads.length

/-- n input bytes from a position of the stream on. -/
def SeqEnv.input (e : SeqEnv) (pos n : Nat) : Bytes := slice e.data (pos - e.base) n

/-- AAD block k, zero-filled beyond the region. -/
def SeqEnv.aadBlock (e : SeqEnv) (k : Nat) : Bytes :=
  let lo := e.bs * k
  fit e.bs (e.input lo (min e.bs (e.job.aadLen - lo)))

/-- Text block k with the padding in force, zero-filled beyond the region (R155). -/
def SeqEnv.textBlock (e : SeqEnv) (k : Nat) : Bytes :=
  let lo := e.job.aadLen + e.bs * k
  fit e.bs (e.input lo (min e.bs (e.job.textEnd - lo)) ++ e.pads.drop (lo - e.job.textEnd))

/-- Block k of the padded message of a digest program (R186). -/
def SeqEnv.hashBlock (e : SeqEnv) (k : Nat) : Bytes :=
  let h := e.job.hash
  let b := h.block
  let whole := e.job.hashed / b
  if k < whole then e.input (b * k) b
  else
    let tail := h.pad (e.input (b * whole) (e.job.hashed % b)) (e.job.hashed + (if Op.isHmac e.job.op then b else 0))
    slice tail (b * (k - whole)) b

/-- Final byte count of a region of n bytes. -/
def finalCount (bs n : Nat) : Nat := if n == 0 then 0 else (n - 1) % bs + 1

/-- Side load: the next block of a region. -/
def seqLoad (e : SeqEnv) (w : BitVec 64) (s : Seq) : Seq :=
  match wLds w with
  | 1 => { s.setReg (wLdr w) (e.aadBlock s.aadAt) with aadAt := s.aadAt + 1, inAad := true }
  | 2 => { s.setReg (wLdr w) (e.textBlock s.txtAt) with txtAt := s.txtAt + 1, inAad := false }
  | _ => s

/-- The padding unit on a register: only the final block of the region is changed. A PAD word names no region: it is that of the last
side load, text before any (DESIGN CHOICE, log 93). -/
def seqPad (e : SeqEnv) (w : BitVec 64) (s : Seq) (v : Bytes) : Bytes :=
  let n := if s.inAad then e.job.aadLen else e.textLen
  let done := if s.inAad then s.aadAt else s.txtAt
  if e.bs * done < n then v
  else
    let k := finalCount e.bs n
    if wOpx w 32 3 == 0 then fit 16 (v.take k)
    else if k == e.bs then v
    else fit 16 (v.take k ++ [0x80])

/-- LEN: a length block in B bytes. -/
def seqLen (e : SeqEnv) (w : BitVec 64) : Bytes :=
  let j := e.job
  let n := if j.onDigest then j.hashed else j.textEnd - j.aadLen
  match wOpx w 32 3 with
  | 0 => beBytes 8 (8 * j.aadLen) ++ beBytes 8 (8 * n)
  | 1 => ccmB0 j
  | 2 => zeros (e.bs - 8) ++ beBytes 8 (8 * n)
  | _ => zeros (e.bs - 8) ++ beBytes 8 n

/-- The output of a BLOCK, raw and with its post-XOR: the operation and the block size are those of the key KSEL selects (R127). -/
def seqBlock (e : SeqEnv) (w : BitVec 64) (s : Seq) : Bytes × Bytes :=
  let key := if wKeyB w then e.job.key2 else e.job.key
  let alg := if wKeyB w then e.job.algB else e.job.alg
  let f := (if wOpx w 40 1 == 1 then blockDec else blockEnc) alg key
  let x := if wOpx w 43 2 == 1 then xorB (s.reg (wRa w)) (s.reg (wRb w)) else s.reg (wRa w)
  let raw := fit 16 (f (x.take (blockSize alg)))
  (raw, if wOpx w 43 2 == 2 then xorB raw (s.reg (wRb w)) else raw)

/-- COMPRESS and PERMUTE (Table 7.6): the operation is that of OP and W, its blocks and FIN those of the bound function. -/
def seqHash (e : SeqEnv) (w : BitVec 64) (s : Seq) : Seq :=
  let h := e.job.hash
  let permute := wOp w == opPermute
  let wide := wOpx w 44 1 == 1
  let st := match wOpx w 42 2 with
    | 1 => if permute then List.replicate 25 0 else h.init
    | 2 => e.key.padIn
    | 3 => e.key.padOut
    | _ => s.hash
  let text := wOpx w 41 1 == 0
  let sqz := permute && wOpx w 39 1 == 1
  let blk := if text then e.hashBlock s.txtAt else (h.pad s.pass (h.block + s.pass.length)).take h.block
  let st1 := if sqz then keccakF st else if permute then keccakAbsorb st blk
    else if wide then sha512Block st (fit 128 blk) else sha256Block st (fit 64 blk)
  let raw := if permute then keccakBytes st1 else st1.flatMap (fun x => beBytes (if wide then 8 else 4) x.toNat)
  { s with hash := st1
           txtAt := if !sqz && text then s.txtAt + 1 else s.txtAt
           pass := if wOpx w 40 1 == 1 then raw.take (if h.size == 0 then h.block else h.size) else s.pass }

/-- The second operand of XOR (DSEL); the derived values are those the header asks for (Table 6.6). -/
def seqOperand (e : SeqEnv) (w : BitVec 64) (s : Seq) : Bytes :=
  let d (v : Bytes) : Bytes := if e.prog.derive == 2 then v else zeros 16
  match wOpx w 32 2 with
  | 0 => s.reg (wRb w)
  | 1 => d e.key.k1
  | 2 => d e.key.k2
  | _ => d (if finalCount e.bs e.textLen == e.bs then e.key.k1 else e.key.k2)

/-- The main operation of a word other than BLOCK. -/
def seqMain (e : SeqEnv) (w : BitVec 64) (s : Seq) : Seq :=
  let a := s.reg (wRa w)
  let n := beNat a
  let put (v : Bytes) : Seq := s.setReg (wRd w) v
  match wOp w with
  | 0x02 => put (xorB a (seqOperand e w s))
  | 0x03 => put a
  | 0x04 => put (a.take 8 ++ (s.reg (wRb w)).drop 8)
  | 0x05 => put (beBytes 16 (n <<< wImm w % 2 ^ 128))
  | 0x06 => put (beBytes 16 (n >>> wImm w))
  | 0x07 => put (mulAlpha a)
  | 0x08 => put (ghashStep (if e.prog.derive == 1 then e.key.h else zeros 16) a (s.reg (wRb w)))
  | 0x09 => put (a.take 12 ++ beBytes 4 (beNat (a.drop 12) + 1))
  | 0x0A => put (beBytes 16 (n + 1))
  | 0x0B => put (seqPad e w s a)
  | 0x0C => put (seqLen e w)
  | 0x0D => put (beBytes 16 (e.prog.consts.getD (wImm w) 0).toNat)
  | 0x20 | 0x21 => seqHash e w s
  | _ => s

/-- Side store. -/
def seqStore (e : SeqEnv) (w : BitVec 64) (s : Seq) : Seq :=
  let digest := e.job.onDigest
  match wSts w with
  | 1 => { s with out := s.out ++ (if digest then s.pass else (s.reg (wStr w)).take e.bs) }
  | 2 =>
    let n := if digest then e.job.macLen else e.job.tagLen
    let t := (if digest then s.pass else s.reg (wStr w)).take n
    if e.lap.decrypt then { s with fail := s.fail || t != e.expected.take n } else { s with tag := s.tag ++ t }
  | _ => s

/-- A word that is no BLOCK: load, main operation, store. -/
def seqPlain (e : SeqEnv) (w : BitVec 64) (s : Seq) : Seq := seqStore e w (seqMain e w (seqLoad e w s))

/-- A BLOCK with the word in its shadow, x, which runs after the BLOCK has its operands and before it ends (R157). -/
def seqShadowed (e : SeqEnv) (w x : BitVec 64) (s : Seq) : Seq :=
  let s := seqLoad e w s
  let y := seqBlock e w s
  let s := if wPar x then seqPlain e x s else s
  let s := if wOpx w 42 1 == 1 then s.setReg (wRa w) y.1 else s
  seqStore e w (s.setReg (wRd w) y.2)

/-- The word of an index. A PAR word has run with its BLOCK. -/
def seqWord (e : SeqEnv) (i : Nat) (w : BitVec 64) (s : Seq) : Seq :=
  if wPar w then s
  else if wOp w == opBlock then seqShadowed e w (e.prog.words.getD (i + 1) 0) s
  else { seqPlain e w s with ended := wOp w == opEnd }

def seqRep (n : Nat) (f : Seq → Seq) (s : Seq) : Seq :=
  (List.range n).foldl (fun s _ => if s.ended then s else f s) s

/-- The P block in force, with a generated IV in the place of the IV (R168). -/
def Job.pInForce (j : Job) (iv : Bytes) : Bytes := if j.ivGen then fit 16 (iv ++ (j.p.drop j.ivLen)) else fit 16 j.p

/-- First-lap registers (INIT of Table 6.6). -/
def seqInit (j : Job) (init : Nat) (iv : Bytes) : List (BitVec 128) :=
  let p := j.pInForce iv
  let r (b : Bytes) : BitVec 128 := BitVec.ofNat 128 (beNat (fit 16 b))
  match init with
  | 1 => [r (p.take 12 ++ [0, 0, 0, 2]), r (p.take 12 ++ [0, 0, 0, 1])] ++ List.replicate 14 0
  | 2 => [r (ccmCounter j 1), r (ccmCounter j 0)] ++ List.replicate 14 0
  | _ => [r p] ++ List.replicate 15 0

/-- The registers a lap starts with: those of INIT in the first lap, then those of the context (R153). -/
def Job.startRegs (j : Job) (c : Ctx) : List (BitVec 128) :=
  match j.prog with
  | some p => if c.pos == 0 then seqInit j p.init c.iv else c.regs
  | none => []

/-- Where the count of a cipher lap ends: its last byte, or at the end of a segment the last whole block. -/
def lapUpTo (j : Job) (hi : Nat) (segEnd last : Bool) : Nat :=
  let a := j.aadLen
  if segEnd && !last && hi > a then a + (hi - a) / j.block * j.block else hi

/-- Blocks of the padded message of a digest program (R186). -/
def Job.paddedBlocks (j : Job) : Nat :=
  let b := j.hash.block
  if j.hash.isSha2 then ceilDiv (j.hashed + (if b == 64 then 9 else 17)) b else j.hashed / b + 1

/-- AAD and text blocks that lie before a cut of the stream, the end of what earlier laps counted. A digest program counts whole
blocks (R173). -/
def Job.aadBefore (j : Job) (cut : Nat) : Nat := ceilDiv (min cut j.aadLen) j.block
def Job.textBefore (j : Job) (cut : Nat) : Nat :=
  if j.onDigest then min cut j.hashed / j.hash.block else ceilDiv (min cut j.textEnd - j.aadLen) j.block

/-- Text blocks of the whole stream, padding counted. -/
def Job.textBlocks (j : Job) : Nat :=
  if j.onDigest then j.paddedBlocks else ceilDiv (j.textEnd - j.aadLen + j.padsIn) j.block

/-- The counters of a lap [pos, pos + n) (R159), the laps before it having counted up to cut. A digest program counts blocks of the
padded message, those that hold no message byte in the last lap (R186). Where a segment ends within a block, the block counts in
the lap that has all of it (DEDUCED, log 12). -/
def lapEnv (j : Job) (cut pos n : Nat) (segEnd last : Bool) : LapEnv :=
  let hi := if j.onDigest then pos + n else lapUpTo j (pos + n) segEnd last
  let from_ := if j.onDigest then pos else cut
  let aad := if j.onDigest then 0 else j.aadBefore hi - j.aadBefore from_
  let txt := (if last then j.textBlocks else j.textBefore hi) - j.textBefore from_
  { nAad := aad
    nTxt := txt
    nDu := if j.unitLen == 0 then 1 else ceilDiv n j.unitLen
    nBpu := ceilDiv (if j.unitLen == 0 then n else j.unitLen) j.block
    nSemi := if j.op == .dataUnwrap then j.total / 8 - 1 else ceilDiv j.total 8
    first := pos == 0, last := last, noAad := aad == 0, noTxt := txt == 0
    isPart := if j.onDigest then j.hashed % j.hash.block != 0 else (j.textEnd - j.aadLen + j.padsIn) % j.block != 0
    decrypt := Op.isDecrypt j.op }

/-- Engine time of a lap of a loaded program (R133, R166). -/
def seqCycles (p : Program) (j : Job) (c : Ctx) (n : Nat) (segEnd last : Bool) : Nat :=
  (tally p.words (lapEnv j (c.ptrs.getD 3 0) c.pos n segEnd last) (blockCycles j.alg) (blockCycles j.algB)).cost

/-- Bytes of the output of a message or stream, to which the final stored block is cut (R155). -/
def Job.storedLen (j : Job) : Nat :=
  if j.onDigest then j.resultLen
  else if j.op == .dataWrap then (if j.isKwp then 8 * ceilDiv j.total 8 + 8 else j.total + 8)
  else if j.op == .dataUnwrap then j.total - 8
  else j.textEnd - j.aadLen + j.padsIn

/-- Where the first block that no lap has counted begins, in a stream counted up to a cut. -/
def Job.nextBlockAt (j : Job) (cut : Nat) : Nat :=
  if j.onDigest then j.textBefore cut * j.hash.block
  else if cut < j.aadLen then min j.aadLen (j.aadBefore cut * j.block)
  else j.aadLen + j.textBefore cut * j.block

/-- One lap of a loaded program, with the engine's key registers and r0 to r15. Tag bytes lie after every block that the lap stores,
wherever STT stands among the STs (DESIGN CHOICE, log 93). rest is the message's input from the lap's first byte
on; n bytes of it are the lap's. The context keeps the bytes before the lap that no lap has counted, and the tag or MAC bytes met.
A region pointer that lags behind the lap's first block is moved up to it (DESIGN CHOICE, log 12: staging holds the lap alone). -/
def seqLap (k : KeyRegs) (regs : List (BitVec 128)) (p : Program) (j : Job) (c : Ctx) (rest : Bytes) (n : Nat) (segEnd last : Bool)
    (expected : Bytes) : Ctx × Bytes :=
  let j := j.withRegs k
  let cut := c.ptrs.getD 3 0
  let hi := c.pos + n
  let cut' := lapUpTo j hi segEnd last
  let textEnd := if j.onDigest then j.hashed else j.textEnd
  let held := c.held ++ part (rest.take n) c.pos textEnd j.total
  let env := lapEnv j cut c.pos n segEnd last
  let base := c.pos - c.buf.length
  let e : SeqEnv :=
    { job := j, lap := env, data := c.buf ++ rest, base := base
      pads := if j.onDigest then [] else (padBytes j.padding j.block j.total c.fill).take j.padsIn
      expected := if textEnd < j.total then held else expected, key := k }
  let from_ := if j.onDigest then c.pos else cut
  let s0 : Seq :=
    { regs := regs, aadAt := max (c.ptrs.getD 0 0) (j.aadBefore from_), txtAt := max (c.ptrs.getD 1 0) (j.textBefore from_)
      hash := c.hash, pass := [], out := [], tag := [], fail := c.fail, inAad := false, ended := false }
  let s := walkF p.words env seqRep (seqWord e) Seq.ended (p.words.length + 1) 0 p.words.length s0
  let stored := c.ptrs.getD 2 0
  let out := if last then s.out.take (j.storedLen - stored) else s.out
  let ivOut := if c.pos == 0 && j.ivGen then c.iv else []
  let keepFrom := j.nextBlockAt (if j.onDigest then hi else cut')
  let c1 := { c with regs := s.regs, hash := s.hash, fail := s.fail, pos := hi, held := held
                     ptrs := [s.aadAt, s.txtAt, stored + s.out.length, cut']
                     buf := slice (c.buf ++ rest) (keepFrom - base) (min hi textEnd - keepFrom) }
  let r := if Op.isDecrypt j.op && (Op.isEcb j.op || Op.isCbc j.op) && j.padding != 0
           then unpadLap j c1 out segEnd last else (c1, out)
  (r.1, if r.1.fail then [] else ivOut ++ r.2 ++ s.tag)

end Sys2Proof.Machine
end

