-- ==== Sys2Proof/Machine/Transact.lean ====
section
/-! DEFINITION. The transaction functions (R326 to R342): PIN blocks, AES DUKPT and key blocks, with their parameters,
checks, draws, engine time and results. -/

namespace Sys2Proof.Machine

/-! Kinds of opcode -/

def Op.isPin (o : Op) : Bool := match o with | .pinTranslate | .pinVerify | .pinReference => true | _ => false

/-- Handles of Table 13.1. -/
def Op.txTakesB (o : Op) : Bool := match o with | .dukptMac | .dukptCrypt | .keyBlockCheck => false | _ => true

/-- The slot of an opcode (Table 6.5). -/
def txSlot (o : Op) : Nat :=
  match o with
  | .pinTranslate => 24
  | .pinVerify | .pinReference => 25
  | .dukptMac | .dukptCrypt | .dukptInitialKey => 26
  | .keyBlockWrap => 27
  | _ => 28

/-! Parameters (R326, R329, R330, R335, R341; Tables 13.4 and 13.6) -/

def txP (m : Msg) (i : Nat) : Nat := m.field (40 + i) 1
def wkTdea (wk : Nat) : Bool := wk == 1 || wk == 2

/-- Bits of a working key type. -/
def wkBits (wk : Nat) : Nat := match wk with | 1 | 3 => 128 | 2 | 4 => 192 | 5 => 256 | _ => 0

def pRange (c : Bool) (i : Nat) : Option Final := failIf c Status.paramRange (40 + i)

/-- P of Table 13.6 for the wrapping opcodes. -/
def blockArea (m : Msg) : Option Final :=
  pRange (txP m 0 != 0x44 && txP m 0 != 0x42) 0
  <|> pRange (! [0x45, 0x4E, 0x53].contains (txP m 1)) 1
  <|> pRange (!isLetterDigit (BitVec.ofNat 8 (txP m 2))) 2
  <|> pRange (!isLetterDigit (BitVec.ofNat 8 (txP m 3))) 3
  <|> pRange (! [0x30, 0x31, 0x32].contains (txP m 4)) 4
  <|> pRange (txP m 5 > 3) 5

/-- P of an opcode of family 0x07. -/
def txArea (o : Op) (m : Msg) : Option Final :=
  (match o with
  | .pinTranslate =>
    pRange (! [0, 1, 3, 4].contains (txP m 0)) 0
    <|> pRange (! [0, 1, 3, 4].contains (txP m 1) || (txP m 1 == 1 && txP m 0 != 1)) 1
    <|> pRange (!((12 ≤ txP m 2 && txP m 2 ≤ 19) || (txP m 2 == 0 && txP m 0 == 1 && txP m 1 == 1))) 2
    <|> pRange (txP m 3 > 5 || (txP m 3 != 0 && wkTdea (txP m 3) != (txP m 0 != 4))) 3
    <|> m.mustZero 44 12
  | .pinVerify | .pinReference =>
    pRange (! [0, 1, 3, 4].contains (txP m 0)) 0
    <|> m.mustZero 41 1
    <|> pRange (txP m 2 < 12 || txP m 2 > 19) 2
    <|> pRange (txP m 3 > 5 || (txP m 3 != 0 && wkTdea (txP m 3) != (txP m 0 != 4))) 3
    <|> m.mustZero 44 12
  | .dukptMac =>
    m.mustZero 40 3 <|> pRange (txP m 3 < 3 || txP m 3 > 5) 3 <|> pRange (txP m 4 > 1) 4
    <|> pRange (txP m 5 != 0 && (txP m 5 < 8 || txP m 5 > 16)) 5 <|> m.mustZero 46 10
  | .dukptCrypt =>
    m.mustZero 40 3 <|> pRange (txP m 3 < 3 || txP m 3 > 5) 3 <|> pRange (txP m 4 > 1) 4 <|> m.mustZero 45 11
  | .dukptInitialKey => pRange (txP m 0 != 0x44) 0 <|> blockArea m <|> m.mustZero 46 10
  | .keyBlockWrap => blockArea m <|> m.mustZero 46 10
  | .keyBlockTranslate => pRange (txP m 0 != 0x44 && txP m 0 != 0x42) 0 <|> m.mustZero 41 15
  | _ => m.mustZero 40 16)
  <|> m.mustZero 56 8

/-- FPARAM of a flow of this family. -/
def txFparam (fp : Bytes) : Option Final := (firstNonZero fp 0 16).map (fun i => Final.refuse Status.paramRange (48 + i))

def macTag (m : Msg) : Nat := if txP m 5 == 0 then 16 else txP m 5

/-- Input lengths (Table 13.1, R329, R337). -/
def txLengthBad (o : Op) (m : Msg) : Bool :=
  match o with
  | .pinTranslate | .pinVerify | .pinReference => !m.inlineIn || m.inLen != 64
  | .dukptInitialKey => m.inLen != 8
  | .dukptMac =>
    let t := if txP m 4 == 1 then macTag m else 0
    m.inLen < 16 + t || m.inLen > 16 + t + 4096
  | .dukptCrypt => m.inLen < 48 || m.inLen > 32 + 4096 || m.inLen % 16 != 0
  | .keyBlockWrap => m.inLen != 0
  | _ => m.inLen < 64 || m.inLen > 1024

/-- The largest output (Table 13.1). -/
def txLargest (o : Op) (m : Msg) : Nat :=
  match o with
  | .pinTranslate => if txP m 1 == 4 then 16 else 8
  | .pinReference => 8
  | .dukptInitialKey => 192
  | .dukptMac => if txP m 4 == 1 then 0 else macTag m
  | .dukptCrypt => m.inLen - 32
  | .keyBlockWrap => 496
  | .keyBlockCheck => 40
  | .keyBlockTranslate => m.inLen + 64
  | _ => 0

/-- The transaction counter of a KSN that begins at an input offset (R335). -/
def ksnBad (b : Bytes) (off : Nat) : Option Final :=
  let c := beNat (slice b (off + 8) 4)
  inputIf (c == 0 || ((List.range 32).filter (fun i => c.testBit i)).length > 16) 0x100 (off + 8)

/-- The record of Table 13.3, as far as the message alone tells. -/
def pinRecord (o : Op) (m : Msg) : Option Final :=
  let b := m.input
  let n := txP m 2
  (if txP m 0 == 4 then none else inputZero 0x100 b 8 8)
  <|> (if txP m 3 == 0 then inputZero 0x100 b 16 12 else ksnBad b 16)
  <|> inputZero 0x100 b 28 4
  <|> (((List.range n).find? (fun i => !isDigit (b.getD (32 + i) 0))).map (fun i => inputRange 0x100 (32 + i)))
  <|> inputZero 0x100 b (32 + n) (19 - n) <|> inputZero 0x100 b 51 5
  <|> (if o == .pinVerify then none else inputZero 0x100 b 56 8)

/-- The input fields of DUKPT_MAC and DUKPT_CRYPT. -/
def dukptInput (m : Msg) : Option Final := ksnBad m.input 0 <|> inputZero 0x100 m.input 12 4

/-- Input fields that step 7 checks. -/
def txInput (o : Op) (m : Msg) : Option Final :=
  if txLengthBad o m then none
  else if Op.isPin o then pinRecord o m
  else match o with
    | .dukptMac | .dukptCrypt => dukptInput m
    | _ => none

/-! Keys (R327, R329, R332, R335, R340, R342) -/

/-- A role that KEY_A must hold. -/
def txUsageA (o : Op) (us : BitVec 32) : Bool :=
  if Op.isPin o then us.getLsbD 12 || us.getLsbD 14
  else match o with
    | .dukptInitialKey | .dukptMac | .dukptCrypt => us.getLsbD 14
    | .keyBlockCheck | .keyBlockTranslate => us.getLsbD 15
    | _ => true

def txUsageB (o : Op) (us : BitVec 32) : Bool :=
  match o with
  | .pinTranslate => us.getLsbD 12
  | .pinVerify | .pinReference => us.getLsbD 13
  | _ => us.getLsbD 15

def cipherAlg (alg : BitVec 16) : Bool := isAesAlg alg || isTdea alg

/-- Algorithms of KEY_A. -/
def txAlgA (o : Op) (x : Obj) : Bool :=
  match o with
  | .keyBlockWrap => cipherAlg x.alg || (hmacHash x.alg).isSome
  | .dukptInitialKey | .dukptMac | .dukptCrypt => isAesAlg x.alg
  | _ => cipherAlg x.alg && (!x.usage.getLsbD 14 || isAesAlg x.alg)

/-- Algorithms of KEY_B; secret data of 32 bytes for PIN_VERIFY. -/
def txAlgB (o : Op) (x : Obj) : Bool :=
  match o with
  | .pinVerify => cipherAlg x.alg || (x.alg == 0x0600 && x.material.length == 32)
  | .dukptInitialKey => isAesAlg x.alg
  | _ => cipherAlg x.alg

/-! Table 13.5 -/

/-- Usage, algorithm and mode of use of an object; none when its usage fits no row. -/
def headerRow (alg : BitVec 16) (us : Nat) : Option (String × String × String) :=
  let aes := isAesAlg alg
  let a := if aes then "A" else "T"
  let three (x y : Nat) (p q r : String) : String := if us == x then p else if us == y then q else r
  if (hmacHash alg).isSome then
    if us != 0 && us &&& (0xFFFFFFFF ^^^ 0x30) == 0 then some ("M7", "H", three 0x10 0x20 "G" "V" "C") else none
  else if us == 0x8000 then some ("K1", a, "B")
  else if us == 0x1000 then some ("P0", a, "B")
  else if us == 0x2000 then some ("V0", a, "C")
  else if us == 0x4000 then (if aes then some ("B0", "A", "X") else none)
  else if us != 0 && us &&& (0xFFFFFFFF ^^^ 0xC) == 0 then (if aes then some ("K0", "A", three 0x4 0x8 "E" "D" "B") else none)
  else if us != 0 && us &&& (0xFFFFFFFF ^^^ 0x3) == 0 then some ("D0", a, three 0x1 0x2 "E" "D" "B")
  else if us != 0 && us &&& (0xFFFFFFFF ^^^ 0x30) == 0 then
    some (if aes then "M6" else if alg == 0x0210 then "M3" else "M1", a, three 0x10 0x20 "G" "V" "C")
  else none

/-- Usage bits that a header row stands for; 0 for a row outside the table. -/
def rowUsage (h : Bytes) : Nat :=
  let us := slice h 5 2
  let alg := h.getD 7 0
  let mode := h.getD 8 0
  let c (s : String) : Byte := (ascii s).getD 0 0
  let three (e d : Nat) (p q r : String) : Nat :=
    if mode == c p then e else if mode == c q then d else if mode == c r then e + d else 0
  let at_ := alg == c "A" || alg == c "T"
  if us == ascii "K1" && at_ && mode == c "B" then 0x8000
  else if us == ascii "K0" && alg == c "A" then three 0x4 0x8 "E" "D" "B"
  else if us == ascii "D0" && at_ then three 0x1 0x2 "E" "D" "B"
  else if (us == ascii "M6" && alg == c "A") || ((us == ascii "M3" || us == ascii "M1") && alg == c "T")
      || (us == ascii "M7" && alg == c "H") then three 0x10 0x20 "G" "V" "C"
  else if us == ascii "P0" && at_ && mode == c "B" then 0x1000
  else if us == ascii "V0" && at_ && mode == c "C" then 0x2000
  else if us == ascii "B0" && alg == c "A" && mode == c "X" then 0x4000
  else 0

/-- ALG of a row with a key of n bytes: one that Table 13.5 maps and no other; HMAC headers name no function, so they
map to 0 (log 14). -/
def rowAlg (h : Bytes) (n : Nat) : Nat :=
  let us := slice h 5 2
  if rowUsage h == 0 then 0
  else if h.getD 7 0 == 0x41 then (match n with | 16 => 0x0110 | 24 => 0x0118 | 32 => 0x0120 | _ => 0)
  else if h.getD 7 0 == 0x54 then
    (if n == 16 && us != ascii "M1" then 0x0210 else if n == 24 && us != ascii "M3" then 0x0218 else 0)
  else 0

/-- The check value of an enclosed key, by its algorithm character. -/
def keyCheck (algChar : Byte) (key : Bytes) : Bytes :=
  if algChar == 0x41 && [16, 24, 32].contains key.length then checkValue 0x0110 key []
  else if algChar == 0x54 && [16, 24].contains key.length then checkValue 0x0210 key []
  else zeros 3

/-! AES DUKPT (R335, R336; X9.24-3, PRESUMED where the specification names the standard alone, log 15) -/

/-- Algorithm indicator of a key type: working key types 1 to 5 in order. -/
def wkIndicator (wk : Nat) : Nat := wk - 1

/-- The AES type of a BDK as a working key type. -/
def bdkType (bdk : Bytes) : Nat := if bdk.length == 16 then 3 else if bdk.length == 24 then 4 else 5

/-- One derivation: blocks of derivation data enciphered under a key. -/
def dukptDerive (key : Bytes) (wk usage : Nat) (id : Bytes) : Bytes :=
  let n := wkBits wk
  ((List.range (ceilDiv n 128)).flatMap (fun i =>
    aesEnc key ([1] ++ leBytes 1 (i + 1) ++ beBytes 2 usage ++ beBytes 2 (wkIndicator wk) ++ beBytes 2 n ++ id))).take (n / 8)

/-- The initial key of a BDK and an initial key ID. -/
def dukptInitial (bdk id : Bytes) : Bytes := dukptDerive bdk (bdkType bdk) 0x8001 (fit 8 id)

/-- Intermediate keys for the set bits of the counter, from the most significant. -/
def dukptChain (typ ctr : Nat) (dev : Bytes) : Nat → Bytes → Nat → Bytes
  | 0, k, _ => k
  | n + 1, k, w =>
    if ctr.testBit n then
      let w1 := w + 2 ^ n
      dukptChain typ ctr dev n (dukptDerive k typ 0x8000 (dev ++ beBytes 4 w1)) w1
    else dukptChain typ ctr dev n k w

/-- The working key of a KSN. -/
def dukptWorking (bdk ksn : Bytes) (wk usage : Nat) : Bytes :=
  let ctr := beNat (slice ksn 8 4)
  let dev := slice ksn 4 4
  let k := dukptChain (bdkType bdk) ctr dev 32 (dukptInitial bdk (ksn.take 8)) 0
  dukptDerive k wk usage (dev ++ beBytes 4 ctr)

/-! PIN blocks (R328, R331, R332) -/

/-- The PAN field of formats 0 and 3 (Table 13.2). A PAN of 12 digits has 11 without its check digit, and a zero stands before
them (PRESUMED, unsafe, log 33). -/
def panField0 (pan : List Nat) : Bytes :=
  let body := pan.take (pan.length - 1)
  packNibbles ([0, 0, 0, 0] ++ List.replicate (12 - body.length) 0 ++ body.drop (body.length - 12))

/-- The PAN field of format 4. -/
def panField4 (pan : List Nat) : Bytes :=
  let l := (pan.length - 12) :: pan
  packNibbles (l ++ List.replicate (32 - l.length) 0)

def panOf (input : Bytes) (n : Nat) : List Nat := (slice input 32 n).map (fun c => c.toNat - 48)

/-- Fill nibbles of a format from random bytes (log 16). -/
def fillNibbles (f n : Nat) (rnd : Bytes) : List Nat :=
  match f with
  | 0 => List.replicate n 15
  | 1 => ((nibbles rnd).take n)
  | 3 => ((nibbles rnd).take n).map (fun x => 10 + x % 6)
  | _ => List.replicate n 10

/-- A PIN block enciphered under a key. -/
def pinEncode (f : Nat) (key : Bytes) (pin pan : List Nat) (rnd : Bytes) : Bytes :=
  let field := packNibbles ([f, pin.length] ++ pin ++ fillNibbles f (14 - pin.length) rnd)
  if f == 4 then aesEnc key (xorB (aesEnc key (field ++ fit 8 rnd)) (panField4 pan))
  else if f == 1 then tdeaEnc key field
  else tdeaEnc key (xorB field (panField0 pan))

/-- The PIN of an enciphered block; none when its clear block fails the checks of R331. -/
def pinDecode (f : Nat) (key : Bytes) (block : Bytes) (pan : List Nat) : Option (List Nat) :=
  let clear :=
    if f == 4 then aesDec key (xorB (aesDec key block) (panField4 pan))
    else if f == 1 then tdeaDec key (block.take 8)
    else xorB (tdeaDec key (block.take 8)) (panField0 pan)
  let l := nibbles (clear.take 8)
  let n := l.getD 1 0
  let pin := (l.drop 2).take n
  let fill := l.drop (2 + n)
  let fillOk := match f with
    | 0 => fill.all (· == 15)
    | 3 => fill.all (· ≥ 10)
    | 4 => fill.all (· == 10)
    | _ => true
  if l.getD 0 0 == f && 4 ≤ n && n ≤ 12 && pin.all (· ≤ 9) && fillOk then some pin else none

/-- S of R332. -/
def pinString (pin pan : List Nat) : Bytes :=
  packNibbles ([4, pin.length] ++ pin ++ List.replicate (14 - pin.length) 10) ++ zeros 8 ++ panField4 pan

/-- RV of R332. -/
def pinReferenceValue (alg : BitVec 16) (key s : Bytes) : Bytes :=
  if isTdea alg then (chunks 8 s).foldl (fun c x => tdeaEnc key (xorB c x)) (zeros 8) else (cmac key s).take 8

/-! Key blocks (R339 to R342; X9.143, PRESUMED where the specification names the standard alone, log 15) -/

/-- TDEA-CMAC. -/
def tdeaCmac (key x : Bytes) : Bytes :=
  let k1 := subkeyDouble (tdeaEnc key (zeros 8))
  let n := if x.isEmpty then 1 else ceilDiv x.length 8
  let head := x.take (8 * (n - 1))
  let last := x.drop (8 * (n - 1))
  let st := (chunks 8 head).foldl (fun c b => tdeaEnc key (xorB c b)) (zeros 8)
  let fin := if last.length == 8 then xorB last k1 else xorB (fit 8 (last ++ [0x80])) (subkeyDouble k1)
  tdeaEnc key (xorB st fin)

/-- The encryption and MAC keys of a key-block protection key. -/
def blockKeys (alg : BitVec 16) (kbpk : Bytes) : Bytes × Bytes :=
  let bits := 8 * kbpk.length
  let ind := if isTdea alg then (if bits == 128 then 0 else 1) else if bits == 128 then 2 else if bits == 192 then 3 else 4
  let one (use i : Nat) : Bytes :=
    let d := leBytes 1 i ++ beBytes 2 use ++ [0] ++ beBytes 2 ind ++ beBytes 2 bits
    if isTdea alg then tdeaCmac kbpk d else cmac kbpk d
  let all (use : Nat) : Bytes := ((List.range 4).flatMap (fun i => one use (i + 1))).take kbpk.length
  (all 0, all 1)

/-- Bytes of clear key data with its padding. -/
def keyDataLen (tdea : Bool) (algChar : Byte) (n : Nat) : Nat :=
  let b := if tdea then 8 else 16
  max (if tdea then 32 else if algChar == 0x48 then 208 else 48) (ceilDiv (2 + n) b * b)

/-- An optional block: identifier, length in hexadecimal and data. -/
def optBlock (id : String) (data : Bytes) : Bytes := ascii id ++ hexOf (leBytes 1 (4 + data.length)) ++ data

/-- KC and KP: the method and a check value. -/
def checkBlock (id : String) (tdea : Bool) (kcv : Bytes) : Bytes :=
  optBlock id ((if tdea then ascii "00" else ascii "01") ++ hexOf kcv)

/-- The n characters of a PB block: printable ones, which of them is free (R341, log 14). -/
def padChars (n : Nat) : Bytes :=
  (List.range n).map (fun i => BitVec.ofNat 8 (0x20 + ((Config.padBlockChars n).getD i 0).toNat % 95))

/-- A PB block that fills n characters up to a multiple of the cipher block. -/
def padBlock (b n : Nat) : Bytes :=
  if n % b == 0 then []
  else
    let r := b - n % b
    let k := if r < 4 then r + b else r
    ascii "PB" ++ hexOf (leBytes 1 k) ++ padChars (k - 4)

/-- A key block: version, characters 5 to 11 and 14 of its header, optional blocks, the key and random padding. -/
def keyBlock (kalg : BitVec 16) (kbpk : Bytes) (mid : Bytes) (context : Byte) (opts : List Bytes) (key rnd : Bytes) : Bytes :=
  let tdea := isTdea kalg
  let b := if tdea then 8 else 16
  let pad := padBlock b (16 + opts.flatten.length)
  let all := if pad.isEmpty then opts else opts ++ [pad]
  let n := keyDataLen tdea (mid.getD 2 0) key.length
  let total := 16 + all.flatten.length + 2 * n + 2 * b
  let head := (if tdea then ascii "B" else ascii "D") ++ decOf 4 total ++ mid ++ decOf 2 all.length ++ [context] ++ ascii "0"
    ++ all.flatten
  let data := beBytes 2 (8 * key.length) ++ key ++ fit (n - 2 - key.length) rnd
  let ks := blockKeys kalg kbpk
  let mac := if tdea then tdeaCmac ks.2 (head ++ data) else cmac ks.2 (head ++ data)
  let enc := (cbcEnc (blockEnc kalg ks.1) (chunks b data) mac).1
  head ++ hexOf enc ++ hexOf mac

/-- The number that n hexadecimal characters give from an offset on, or the offset of the first that is none. -/
def hexNumber (b : Bytes) (off n : Nat) : Nat ⊕ Nat :=
  match (List.range n).find? (fun i => (hexVal (b.getD (off + i) 0)).isNone) with
  | some i => .inl (off + i)
  | none => .inr ((List.range n).foldl (fun a i => 16 * a + (hexVal (b.getD (off + i) 0)).getD 0) 0)

/-- The length of an optional block and of the characters that give it: two, or 00 and an extended length behind the number of its
characters (PRESUMED, log 91: ANSI X9.143); the offset that is out of format otherwise. -/
def optLength (b : Bytes) (off : Nat) : Nat ⊕ (Nat × Nat) :=
  match hexNumber b (off + 2) 2 with
  | .inl e => .inl e
  | .inr 0 => match hexNumber b (off + 4) 2 with
    | .inl e => .inl e
    | .inr w => match hexNumber b (off + 6) w with
      | .inl e => .inl e
      | .inr k => if w == 0 || k < 6 + w then .inl (off + 4) else .inr (k, 6 + w)
  | .inr k => if k < 4 then .inl (off + 2) else .inr (k, 4)

/-- The optional blocks of a received header, from an offset on: each with its text, and the offset after them; an
offset that is out of format otherwise. -/
def parseOpts (b : Bytes) : Nat → Nat → Nat ⊕ (List Bytes × Nat)
  | 0, off => .inr ([], off)
  | n + 1, off =>
    if !isAlnum (b.getD off 0) then .inl off
    else if !isAlnum (b.getD (off + 1) 0) then .inl (off + 1)
    else match optLength b off with
      | .inl e => .inl e
      | .inr (k, h) =>
        if off + k > b.length then .inl (off + 2)
        else match (List.range (k - h)).find? (fun i => !isPrint (b.getD (off + h + i) 0)) with
          | some i => .inl (off + h + i)
          | none => match parseOpts b n (off + k) with
            | .inl e => .inl e
            | .inr (l, e) => .inr (slice b off k :: l, e)

/-- The first offset of a received key block that is out of format, or its optional blocks and header length. -/
def parseBlock (b : Bytes) (tdea : Bool) : Nat ⊕ (List Bytes × Nat) :=
  let blk := if tdea then 8 else 16
  let bad := ((List.range 16).find? (fun i =>
    let c := b.getD i 0
    if i == 0 then c != (if tdea then 0x42 else 0x44)
    else if i ≤ 4 || i == 12 || i == 13 then !isDigit c
    else if i == 11 then ! [0x45, 0x4E, 0x53].contains c.toNat
    else if i == 14 then ! [0x30, 0x31, 0x32].contains c.toNat
    else if i == 15 then c != 0x30
    else if i == 9 || i == 10 then !isLetterDigit c
    else !isAlnum c))
  match bad with
  | some i => .inl i
  | none =>
    if decVal (slice b 1 4) != b.length then .inl 1
    else match parseOpts b (decVal (slice b 12 2)) 16 with
      | .inl e => .inl e
      | .inr (l, off) =>
        let rest := b.length - off
        if off % blk != 0 then .inl 12
        else if rest < 4 * blk || rest % (2 * blk) != 0 then .inl 1
        else match (List.range rest).find? (fun i => (hexVal (b.getD (off + i) 0)).isNone) with
          | some i => .inl (off + i)
          | none => .inr (l, off)

/-- The key in a received block whose format holds; none when its MAC does not verify. -/
def openBlock (kalg : BitVec 16) (kbpk : Bytes) (b : Bytes) (off : Nat) : Option Bytes :=
  let tdea := isTdea kalg
  let blk := if tdea then 8 else 16
  let ks := blockKeys kalg kbpk
  let mac := unhex (b.drop (b.length - 2 * blk))
  let data := (cbcDec (blockDec kalg ks.1) (chunks blk (unhex (slice b off (b.length - 2 * blk - off)))) mac).1
  let want := if tdea then tdeaCmac ks.2 (b.take off ++ data) else cmac ks.2 (b.take off ++ data)
  let bits := beNat (data.take 2)
  if want == mac && bits % 8 == 0 && 2 + bits / 8 ≤ data.length then some (slice data 2 (bits / 8)) else none

/-- A key that is stronger than a key-block protection key (R340). -/
def strongerThan (algChar : Byte) (n : Nat) (kalg : BitVec 16) (kbpk : Bytes) : Bool :=
  if isTdea kalg then algChar == 0x41 || algChar == 0x48 else algChar == 0x41 && n > kbpk.length

/-! Step 8 of a message with its keys and input -/

/-- The tests that name the message's parameters or input beside the keys. -/
def txCheck (o : Op) (m : Msg) (a b : KeyRef) (noExport : Bool) : Option Final :=
  let bdk := a.usage.getLsbD 14
  let fits (k : KeyRef) (f : Nat) : Bool := isTdea k.alg == (f != 4)
  let wk := pRange (bdk != (txP m 3 != 0) || (bdk && wkBits (txP m 3) > 8 * a.material.length)) 3
  let version (k : KeyRef) : Option Final := pRange ((txP m 0 == 0x42) != isTdea k.alg) 0
  let input (k : KeyRef) : Option Final :=
    match parseBlock m.input (isTdea k.alg) with
    | .inl i => some (inputRange 0x100 i)
    | .inr _ => none
  match o with
  | .pinTranslate =>
    failIf ((!bdk && !fits a (txP m 0)) || !fits b (txP m 1)) Status.keyAlgorithm 0 <|> wk
  | .pinVerify =>
    failIf (!bdk && !fits a (txP m 0)) Status.keyAlgorithm 0 <|> wk
    <|> (if b.alg == 0x0600 then inputZero 0x100 m.input 56 8 else none)
  | .pinReference => failIf (!bdk && !fits a (txP m 0)) Status.keyAlgorithm 0 <|> wk
  | .dukptMac | .dukptCrypt => wk
  | .keyBlockWrap =>
    version b <|> pRange ((hmacHash a.alg).isSome && txP m 5 % 2 == 1) 5
  | .dukptInitialKey => none
  | .keyBlockCheck => input a
  | .keyBlockTranslate =>
    version b <|> input a
    <|> failIf (m.input.getD 11 0 == 0x4E || noExport) Status.policyRefused 0
    <|> failIf (isTdea b.alg && strongerThan (m.input.getD 7 0) 0 b.alg b.material) Status.keyAlgorithm 0
  | _ => none

/-- Random bytes a message draws before its lap (R137). -/
def txRandom (o : Op) (m : Msg) (a b : KeyRef) : Nat :=
  match o with
  | .pinTranslate => if txP m 1 == 0 then 0 else 8
  | .dukptInitialKey => 48 - 2 - a.material.length
  | .keyBlockWrap =>
    keyDataLen (isTdea b.alg) (if (hmacHash a.alg).isSome then 0x48 else 0x41) a.material.length - 2 - a.material.length
  | .keyBlockTranslate => keyDataLen (isTdea b.alg) (m.input.getD 7 0) 0 - 2
  | _ => 0

/-- Engine time (R333, R336, R337). -/
def txCycles (o : Op) (m : Msg) (a b : KeyRef) : Nat :=
  let bdk := a.usage.getLsbD 14
  let der := if bdk then 54 * blockCycles a.alg else 0
  let wb (wk : Nat) : Nat := if wk == 4 then 13 else if wk == 5 then 15 else 11
  let block (f : Nat) (c : Nat) : Nat := if f == 4 then 2 * c else 48
  let xin := block (txP m 0) (if bdk then wb (txP m 3) else blockCycles a.alg)
  match o with
  | .pinTranslate => der + xin + block (txP m 1) (blockCycles b.alg) + 8
  | .pinVerify | .pinReference =>
    der + xin + 8 + (if b.alg == 0x0600 then 0 else if isTdea b.alg then 192 else 2 * blockCycles b.alg + 2)
  | .dukptMac => der + max 1 (ceilDiv (m.inLen - 16 - if txP m 4 == 1 then macTag m else 0) 16) * wb (txP m 3) + 2
  | .dukptCrypt => der + (m.inLen - 32) / 16 * wb (txP m 3)
  | _ => Config.keyBlockCycles o.code.toNat m.inLen

/-! The lap -/

/-- Header characters 5 to 11 from a row and P. -/
def blockMid (m : Msg) (u a mode : String) : Bytes :=
  ascii u ++ ascii a ++ ascii mode ++ m.area 42 2 ++ m.area 41 1

/-- KC and KP of OPTS. -/
def blockOpts (m : Msg) (algChar : Byte) (key : Bytes) (b : KeyRef) : List Bytes :=
  (if txP m 5 % 2 == 1 then [checkBlock "KC" (algChar == 0x54) (keyCheck algChar key)] else [])
  ++ (if txP m 5 / 2 % 2 == 1 then
        [checkBlock "KP" (isTdea b.alg) (keyCheck (if isTdea b.alg then 0x54 else 0x41) b.material)] else [])

/-- What a message of this family ends with: its status and output. -/
def txRun (o : Op) (m : Msg) (a b : KeyRef) (rnd : Bytes) : BitVec 16 × Bytes :=
  let x := m.input
  let bdk := a.usage.getLsbD 14
  let pan := panOf x (txP m 2)
  let keyIn := if bdk then dukptWorking a.material (slice x 16 12) (txP m 3) 0x1000 else a.material
  let pin := pinDecode (txP m 0) keyIn (x.take 16) pan
  match o with
  | .pinTranslate =>
    match pin with
    | none => (Status.verifyFailed, [])
    | some p => (Status.ok, pinEncode (txP m 1) b.material p pan rnd)
  | .pinVerify =>
    match pin with
    | none => (Status.verifyFailed, [])
    | some p =>
      let s := pinString p pan
      let same := if b.alg == 0x0600 then s == b.material else pinReferenceValue b.alg b.material s == slice x 56 8
      (if same then Status.ok else Status.pinMismatch, [])
  | .pinReference =>
    match pin with
    | none => (Status.verifyFailed, [])
    | some p => (Status.ok, pinReferenceValue b.alg b.material (pinString p pan))
  | .dukptMac =>
    let k := dukptWorking a.material (x.take 12) (txP m 3) (0x2000 + txP m 4)
    let n := macTag m
    if txP m 4 == 0 then (Status.ok, (cmac k (x.drop 16)).take n)
    else
      let data := slice x 16 (x.length - 16 - n)
      (if (cmac k data).take n == x.drop (x.length - n) then Status.ok else Status.verifyFailed, [])
  | .dukptCrypt =>
    let k := dukptWorking a.material (x.take 12) (txP m 3) (0x3000 + txP m 4)
    let iv := slice x 16 16
    let data := chunks 16 (x.drop 32)
    (Status.ok, if txP m 4 == 0 then (cbcEnc (aesEnc k) data iv).1 else (cbcDec (aesDec k) data iv).1)
  | .dukptInitialKey =>
    let k := dukptInitial a.material x
    (Status.ok, keyBlock b.alg b.material (blockMid m "B1" "A" "X") (BitVec.ofNat 8 (txP m 4))
      (blockOpts m 0x41 k b ++ [optBlock "IK" (hexOf x)]) k rnd)
  | .keyBlockWrap =>
    match headerRow a.alg a.usage.toNat with
    | none => (Status.usageNotPermitted, [])
    | some (u, al, mode) =>
      (Status.ok, keyBlock b.alg b.material (blockMid m u al mode) (BitVec.ofNat 8 (txP m 4))
        (blockOpts m ((ascii al).getD 0 0) a.material b) a.material rnd)
  | .keyBlockCheck =>
    match parseBlock x (isTdea a.alg) with
    | .inl i => (Status.paramRange, leBytes 1 i)
    | .inr (l, off) => match openBlock a.alg a.material x off with
      | none => (Status.unwrapFailed, [])
      | some k =>
        (Status.ok, x.take 16 ++ leBytes 2 (rowAlg x k.length) ++ leBytes 4 (rowUsage x) ++ keyCheck (x.getD 7 0) k
          ++ leBytes 1 l.length ++ zeros 14)
  | .keyBlockTranslate =>
    match parseBlock x (isTdea a.alg) with
    | .inl i => (Status.paramRange, leBytes 1 i)
    | .inr (l, off) => match openBlock a.alg a.material x off with
      | none => (Status.unwrapFailed, [])
      | some k =>
        if strongerThan (x.getD 7 0) k.length b.alg b.material then (Status.keyAlgorithm, [])
        else
          let kp := checkBlock "KP" (isTdea b.alg) (keyCheck (if isTdea b.alg then 0x54 else 0x41) b.material)
          let opts := (l.filter (fun o => o.take 2 != ascii "PB")).map (fun o => if o.take 2 == ascii "KP" then kp else o)
          (Status.ok, keyBlock b.alg b.material (slice x 5 7) (x.getD 14 0) opts k rnd)
  | _ => (Status.ok, [])

end Sys2Proof.Machine
end

