-- ==== Sys2Proof/Machine/RecordMode.lean ====
section
/-! DEFINITION. Record mode (R354 to R366): characters, fields and functions of a record, the message a record stands for,
its reply, and the label opcodes. -/

namespace Sys2Proof.Machine

/-! Fields (R358) -/

def isSpace (c : Byte) : Bool := c == 0x20
def isHex (c : Byte) : Bool := (hexVal c).isSome
def isLabelChar (c : Byte) : Bool := isAlnum c || [0x2E, 0x2D, 0x2F, 0x23, 0x40, 0x24].contains c.toNat

/-- The first of n characters from off on that a test fails. -/
def badChar (rec_ : Bytes) (off n : Nat) (ok : Nat → Byte → Bool) : Option Nat :=
  ((List.range n).find? (fun i => !ok i (rec_.getD (off + i) 0x20))).map (off + ·)

def kindD (rec_ : Bytes) (off n : Nat) : Option Nat := badChar rec_ off n (fun _ c => isDigit c)
def kindS (rec_ : Bytes) (off n : Nat) : Option Nat := badChar rec_ off n (fun _ c => isSpace c)

/-- Leading characters of a field that pass a test. -/
def runLen (rec_ : Bytes) (off n : Nat) (ok : Byte → Bool) : Nat := ((slice rec_ off n).takeWhile ok).length

/-- L: label characters, then spaces. -/
def kindL (rec_ : Bytes) (off : Nat) : Option Nat :=
  let k := runLen rec_ off 8 isLabelChar
  badChar rec_ (off + k) (8 - k) (fun _ c => isSpace c)

/-- A left-justified part of one of the lengths given, then spaces; the offset of the first byte that fails: the end of a part that is too
short, or the first character beyond the longest (R356). -/
def justified (rec_ : Bytes) (off n : Nat) (ok : Byte → Bool) (lens : List Nat) : Option Nat :=
  let k := runLen rec_ off n ok
  if lens.contains k then badChar rec_ (off + k) (n - k) (fun _ c => isSpace c)
  else some (off + min (min k (if lens.any (k < ·) then k else lens.foldl max 0)) (n - 1))

def kindH (rec_ : Bytes) (off n : Nat) (digits : List Nat) : Option Nat := justified rec_ off n isHex digits

/-- An H field as bytes. -/
def fieldH (rec_ : Bytes) (off n : Nat) : Bytes := unhex ((slice rec_ off n).takeWhile isHex)

/-! Functions (R360, Table 14.4) -/

def zrmOp (code : Nat) : Option Op :=
  match code with
  | 0 => some .nop
  | 1010 => some .pinTranslate
  | 1020 => some .pinVerify
  | 1030 => some .pinReference
  | 2010 => some .iso9797Generate
  | 2020 => some .iso9797Verify
  | 3010 => some .cbcEncrypt
  | 3020 => some .cbcDecrypt
  | 4010 => some .objectInfo
  | 5010 => some .randomGenerate
  | _ => none

/-- The PAN field: as many digits as PAN_LEN says. -/
def panBad (b : Bytes) : Option Nat := justified b 32 19 isDigit [fieldD b 30 2]

/-- The DATA positions of a function, in record order: the first offset out of form. -/
def dataBad (code : Nat) (b : Bytes) : Option Nat :=
  match code with
  | 0 => none
  | 1010 =>
    kindD b 28 4 <|> panBad b <|> kindH b 51 32 [16, 32] <|> kindS b 83 45
  | 1020 =>
    kindD b 28 1 <|> kindS b 29 1 <|> kindD b 30 2 <|> panBad b <|> kindH b 51 32 [16, 32] <|> kindH b 83 16 [0, 16]
    <|> kindS b 99 29
  | 1030 =>
    kindD b 28 1 <|> kindS b 29 1 <|> kindD b 30 2 <|> panBad b <|> kindH b 51 32 [16, 32] <|> kindS b 83 45
  | 2010 => kindD b 28 6 <|> kindH b 34 72 [2 * fieldD b 32 2] <|> kindS b 106 22
  | 2020 =>
    kindD b 28 6 <|> kindH b 34 72 [2 * fieldD b 32 2] <|> kindH b 106 16 [2 * fieldD b 30 2] <|> kindS b 122 6
  | 3010 | 3020 => kindD b 28 2 <|> kindH b 30 32 [16, 32] <|> kindH b 62 64 [2 * fieldD b 28 2] <|> kindS b 126 2
  | 5010 => kindD b 28 2 <|> kindS b 30 98
  | _ => kindS b 28 100

/-- A ZRM refusal with the DETAIL of R356. -/
def zrmRefuse (st : BitVec 16) (off ret : Nat) : Final := Final.refuse st (off * 65536 + ret)

/-- A record in ASCII; none when a byte is outside the repertoire. -/
def zrmAscii (page : Nat) (b : Bytes) : Bytes := b.map (fun c => (toAscii page c).getD 0)

/-- The record checks of R355. -/
def zrmCheck (m : Msg) : Option Final :=
  let page := m.field 40 1
  let b := zrmAscii page m.input
  let fld (o : Option Nat) : Option Final := o.map (fun i => zrmRefuse Status.zrmFieldInvalid i 116)
  failIf (m.inLen != 128) Status.zrmRecordLength 100
  <|> (((List.range 128).find? (fun i => (toAscii page (m.input.getD i 0)).isNone)).map
        (fun i => zrmRefuse Status.zrmEncoding i 104))
  <|> fld (kindD b 0 4)
  <|> (if (zrmOp (fieldD b 0 4)).isNone then some (zrmRefuse Status.zrmFunctionUnknown 0 108) else none)
  <|> fld (kindL b 12 <|> kindL b 20 <|> dataBad (fieldD b 0 4) b)

/-- R354 beyond FLOW_ID and SEG. -/
def zrmRecord7 (m : Msg) : Option Final :=
  noKeys m
  <|> failIf (m.field 40 1 > 1) Status.paramRange 40
  <|> m.mustZero 41 23
  <|> checkCap m 128
  <|> zrmCheck m

/-! Labels -/

/-- A label field; none for 8 spaces. -/
def labelAt (b : Bytes) (off : Nat) : Option Bytes := if (slice b off 8).all isSpace then none else some (slice b off 8)

def State.lookupLabel (s : State) (d : Nat) (name : Bytes) : Option Nat :=
  ((s.domRec d).bind (fun r => r.labels.find? (fun p => p.1 == name))).map (·.2)

/-- What a label field stands for: a handle or none, or the refusal of R355. -/
def State.resolveLabel (s : State) (d : Nat) (b : Bytes) (off : Nat) : Final ⊕ Nat :=
  match labelAt b off with
  | none => .inr noHandle
  | some name => match s.lookupLabel d name with
    | some h => .inr h
    | none => .inl (zrmRefuse Status.zrmLabelUnknown off 112)

/-- A record names a label. -/
def zrmNames (b : Bytes) : Bool := (labelAt b 12).isSome || (labelAt b 20).isSome

/-! The message a record stands for -/

/-- The record of Table 13.3 from a PIN record. -/
def zrmPinInput (code : Nat) (b : Bytes) : Bytes :=
  fit 16 (fieldH b 51 32) ++ zeros 16 ++ fit 19 ((slice b 32 19).takeWhile isDigit) ++ zeros 5
    ++ (if code == 1020 then fit 8 (fieldH b 83 16) else zeros 8)

/-- The operation's input (R360). -/
def zrmInput (code : Nat) (b : Bytes) : Bytes :=
  match code with
  | 1010 | 1020 | 1030 => zrmPinInput code b
  | 2010 | 2020 => fieldH b 34 72
  | 3010 | 3020 => fieldH b 62 64
  | _ => []

/-- The operation's AREA. A LEN of code 5010 above 32 is out of range like 0. The IV of a TDEA key is the first 16 digits. -/
def zrmArea (code : Nat) (b : Bytes) (tdea : Bool) : Bytes :=
  let d (off : Nat) : Byte := BitVec.ofNat 8 (fieldD b off 1)
  fit 24 (match code with
  | 1010 => [d 28, d 29, BitVec.ofNat 8 (fieldD b 30 2)]
  | 1020 | 1030 => [d 28, 0, BitVec.ofNat 8 (fieldD b 30 2)]
  | 2020 => fieldH b 106 16
  | 3010 | 3020 => fieldH b 30 (if tdea then 16 else 32)
  | 5010 => leBytes 4 (if fieldD b 28 2 > 32 then 0 else fieldD b 28 2)
  | _ => [])

/-- ALG, PAD and TAG_LEN of codes 2010 and 2020 as template fields: TAG_LEN and ALG of FPARAM and the padding code, 0xFE
for one that no padding code stands for. -/
def zrmExtra (code : Nat) (b : Bytes) : Bytes :=
  if code == 2010 || code == 2020 then
    let tag := fieldD b 30 2
    [BitVec.ofNat 8 (if code == 2020 && tag == 0 then 0xFF else tag),
     BitVec.ofNat 8 (if fieldD b 28 1 == 0 then 0xFF else fieldD b 28 1),
     BitVec.ofNat 8 (if fieldD b 29 1 == 1 then 2 else if fieldD b 29 1 == 2 then 3 else 0xFE)]
  else []

/-- The message of the record's function, in the place of the encapsulating one. -/
def zrmInner (m : Msg) (b : Bytes) (o : Op) (a k : Nat) (tdea : Bool) : Msg :=
  let x := zrmInput (fieldD b 0 4) b
  { m with
    input := x
    cell := { m.cell with
      opcode := o.code, flags := m.cell.flags &&& 0x11 ||| (if x.isEmpty then 0 else 2), inLen := BitVec.ofNat 32 x.length,
      keyA := BitVec.ofNat 40 a, keyB := BitVec.ofNat 40 k, area := zrmArea (fieldD b 0 4) b tdea } }

/-- Code 3010 and 3020 with an AES key take 32 digits of IV (log 17). -/
def zrmIvShort (b : Bytes) (tdea : Bool) : Option Final :=
  let code := fieldD b 0 4
  failIf ((code == 3010 || code == 3020) && !tdea && (fieldH b 30 32).length != 16) Status.paramRange 48

/-! Label opcodes (R365) -/

def labelForm (m : Msg) : Option Final :=
  failIf (!m.inlineIn || m.inLen != 8) Status.lengthInvalid 0
  <|> ((kindL m.input 0).map (fun i => zrmRefuse Status.zrmFieldInvalid i 116))
  <|> (if (labelAt m.input 0).isNone then some (zrmRefuse Status.zrmFieldInvalid 0 116) else none)

def labelSet7 (m : Msg) : Option Final := keyAOnly m <|> failIf (m.field 40 1 > 1) Status.paramRange 40 <|> m.mustZero 41 23

def labelSet8 (s : State) (r : MsgRec) : Checked :=
  match s.needWrites with
  | some f => .no f s
  | none => match s.readObj r.m.keyA with
    | .inl f => .no f s
    | .inr o =>
      let d := s.dom' r
      let known := (s.lookupLabel d r.m.input).isSome
      let n := ((s.domRec d).map (fun x => x.labels.length)).getD 0
      checked s (failIf (!o.insts.getLsbD r.inst) Status.instanceNotPermitted 0
        <|> failIf (known && r.m.field 40 1 == 0) Status.objectExists 0
        <|> failIf (!known && n ≥ 65536) Status.vaultFull 2)

def labelSetAct (s : State) (r : MsgRec) : Acted :=
  .commit [.label (s.dom' r) r.m.input (some r.m.keyA) r.inst (r.m.field 40 1 == 1)] (Final.good []) s

def labelName7 (m : Msg) : Option Final := noKeys m <|> m.mustZero 40 24

def labelDelete8 (s : State) (r : MsgRec) : Checked :=
  checked s (s.needWrites
    <|> failIf ((s.lookupLabel (s.dom' r) r.m.input).isNone) Status.zrmLabelUnknown 112)

def labelDeleteAct (s : State) (r : MsgRec) : Acted := .commit [.label (s.dom' r) r.m.input none r.inst true] (Final.good []) s

/-- A label whose object is gone answers KEY_NOT_FOUND (log 17). -/
def labelLookup8 (s : State) (r : MsgRec) : Checked :=
  checked s (s.needVault <|>
    match s.lookupLabel (s.dom' r) r.m.input with
    | none => some (Final.refuse Status.zrmLabelUnknown 112)
    | some h => match s.readObj h with
      | .inl f => some f
      | .inr _ => none)

def labelLookupAct (s : State) (r : MsgRec) : Acted :=
  match s.lookupLabel (s.dom' r) r.m.input with
  | none => .ends (Final.refuse Status.zrmLabelUnknown 112) s
  | some h => .ends (Final.good (leBytes 5 h ++ ((s.findObj h).map Obj.check).getD (zeros 3))) s

end Sys2Proof.Machine
end

