-- ==== Sys2Proof/Machine/Link.lean ====
section
/-! DEFINITION. The host link (chapter 2): training and loss, functions and their resets, rings and the watch on them,
violations, SPDM and IDE, dirty-page logging. -/

namespace Sys2Proof.Machine

/-- The module runs and its link is up: the host can reach registers and configuration space. -/
def State.hostUp (s : State) : Bool := s.pwr.booted && s.lnk.mode != 0

/-- The BARs of the physical function answer: its Memory Space Enable is 1. -/
def State.mgrUp (s : State) : Bool := s.hostUp && (s.getInst 0).cfg.command.getLsbD 1

/-- The host can reach the window of instance n (R46): its function exists and is not resetting, and Memory Space Enable is 1. -/
def State.reachable (s : State) (n : Nat) : Bool :=
  if n == 0 then s.mgrUp
  else s.hostUp && (s.getInst n).exists_ && (s.getInst n).state != .resetting && s.lnk.pf.vfMse

/-- An access that no function answers: with the link up, an Unsupported Request. -/
def State.unreached (s : State) (n addr : Nat) : State := if s.hostUp then s.unsupported n addr else s

/-- VF vector 1, or PF vector 1 for instance 0 (R47, R75). -/
def State.instEvent (s : State) (n : Nat) : State := s.raise n 1

/-! LNK_STAT (R56) -/

def Lnk.stat (l : Lnk) : Nat :=
  bit (l.spdm.phase == 2) * 2 ^ 26 + bit l.ideCache * 2 ^ 25 + bit l.ideIo * 2 ^ 24 + l.vfsOn * 2 ^ 12 + bit l.ari * 2 ^ 11
    + bit l.cacheEn * 2 ^ 10 + l.mode * 2 ^ 8 + l.width * 2 ^ 4 + l.rate

/-! Instance resets (R49 to R51, R54) -/

/-- Steps 1 to 4 of Table 2.11: nothing more is read or written for the instance and its messages go. -/
def State.beginReset (s : State) (n : Nat) : State :=
  let s := s.squash (fun r => r.inst == n)
  s.modInst n (fun i => { i with state := .resetting, flrDrain := true
                                 rings := { i.rings with en := false, silenced := true, reread := false, shared := false } })

/-- Configuration registers after a reset of the function: the error registers of AER are sticky (PRESUMED, log 9). -/
def FnCfg.afterReset (c : FnCfg) : FnCfg :=
  { FnCfg.reset with aerUnc := c.aerUnc, aerUncMask := c.aerUncMask, aerUncSev := c.aerUncSev, aerCor := c.aerCor
                     aerCorMask := c.aerCorMask, aerCtl := c.aerCtl }

/-- The registers of the physical function alone after a reset of it: the errors of the component registers are sticky (PRESUMED, log 9),
and IDE is not affected (R51). -/
def PfCfg.afterReset (p : PfCfg) : PfCfg :=
  { PfCfg.reset with ideCtl := p.ideCtl, rasUnc := p.rasUnc, rasUncMask := p.rasUncMask, rasUncSev := p.rasUncSev, rasCor := p.rasCor
                     rasCorMask := p.rasCorMask }

/-- Steps 6 to 8: contexts, flows, templates and the component session end, the generator starts afresh, the ring
registers return to reset. A function that VF Enable no longer covers ceases to exist (R36). -/
def State.endReset (s : State) (n : Nat) : State :=
  let s := (s.dropFlows (fun f => f.inst == n)).dropTemplates (fun t => t.inst == n)
  let s := s.flrGen n
  let live := n == 0 || (s.lnk.vfEnable && n ≤ s.lnk.vfsOn)
  s.modInst n (fun i => { i with rings := Rings.reset, flrDrain := false, d3hot := false, compSession := none
                                 msix := InstRec.reset.msix, msixPend := 0, cfg := i.cfg.afterReset, maxWait := 0
                                 exists_ := live, state := if live then .ringsOff else .absent })

/-- Virtual functions that exist. -/
def State.vfs (s : State) : List Nat := (List.range 256).filter (fun n => n != 0 && (s.getInst n).exists_)

/-- Initiate FLR: without effect on a function that is absent or already resetting (R50). -/
def State.initiateFlr (s : State) (n : Nat) : State :=
  if n != 0 && (s.getInst n).exists_ && (s.getInst n).state != .resetting then s.beginReset n else s

/-- The drain read's completion, or its 5 ms. -/
def State.flrDrainComplete (s : State) (n : Nat) : State := if (s.getInst n).flrDrain then s.endReset n else s

/-- What a reset of instance 0 does beside the functions' own resets (R51): VF Enable and the other registers of its
configuration space, the MBX ring, every flow and template, the recorder freeze and dirty logging. -/
def State.resetManager (s : State) : State :=
  let s := { s with lnk := { s.lnk with vfEnable := false, vfsOn := 0, numVfs := 0, pf := s.lnk.pf.afterReset } }
  let s := (s.beginReset 0).endReset 0
  let s := (s.dropFlows (fun _ => true)).dropTemplates (fun _ => true)
  let s := s.mapInst (fun i => { i with dirty := { i.dirty with en := false } })
  s.endFreeze 4

/-- A function-level reset of instance 0. -/
def State.pfFlr (s : State) : State := (s.vfs.foldl State.initiateFlr s).resetManager

/-- The link goes down (R54): every instance is reset without waiting for drain reads, SPDM and IDE end. -/
def State.linkDown (s : State) : State :=
  let vfs := s.vfs
  let s := vfs.foldl State.initiateFlr s
  let s := s.resetManager
  let s := (vfs.foldl State.flrDrainComplete s).stopOwner .spdm
  { s with lnk := { s.lnk with mode := 0, spdm := Spdm.reset, doe := [], ideIo := false, ideCache := false
                               ideKeyIo := [], ideKeyCache := [], pf := { s.lnk.pf with ideCtl := 0 } } }

/-- The record of type 0x0102, with LNK_STAT as the loss found it. -/
def State.lossRecord (s : State) (code : Nat) : State := s.record 0x0102 0 3 (pay code s.lnk.stat 0)

def State.surpriseLoss (s : State) : State :=
  if s.lnk.mode == 0 then s
  else
    let s := s.lossRecord 1
    { s with lnk := { s.lnk with lossSurprise := satAdd 16 s.lnk.lossSurprise 1 } }.linkDown

def State.hotReset (s : State) : State :=
  if s.lnk.mode == 0 then s
  else
    let s := s.lossRecord 2
    { s with lnk := { s.lnk with lossHot := satAdd 16 s.lnk.lossHot 1 } }.linkDown

/-- The end of both streams as in R38, by a check failure of one of them, which AER reports. -/
def State.ideFailure (s : State) (cache : Bool) : State :=
  if if cache then s.lnk.ideCache else s.lnk.ideIo then
    let s := (s.aer 0 aerIde).lossRecord 3
    { s with lnk := { s.lnk with ideCacheFail := if cache then satAdd 16 s.lnk.ideCacheFail 1 else s.lnk.ideCacheFail
                                 ideIoFail := if cache then s.lnk.ideIoFail else satAdd 16 s.lnk.ideIoFail 1 } }.linkDown
  else s

/-! Training (R33, R368) -/

/-- CXL runs at 8, 16 or 32 GT/s alone (Table 2.1). -/
def cxlMode (p : LinkParams) : Bool := p.cxl && 3 ≤ p.rate.val

/-- The link as trained. In PCIe mode there is no CXL.cache. -/
def Lnk.train (l : Lnk) (p : LinkParams) : Lnk :=
  { l with mode := if cxlMode p then 2 else 1, rate := p.rate.val, width := p.width.val, cacheEn := p.cache
           fbPcie := !cxlMode p, fbRate := p.rate.val < 5, fbWidth := p.width.val < 8 }

/-! Functions (R35, R36) -/

def State.numvfsWrite (s : State) (n : Nat) : State :=
  if s.hostUp && !s.lnk.vfEnable then { s with lnk := { s.lnk with numVfs := min n 255 } } else s

def State.enableVfs (s : State) (ari : Bool) : State :=
  if !s.hostUp || s.lnk.vfEnable then s
  else
    let cut := !ari && s.lnk.numVfs > 7
    let n := if cut then 7 else s.lnk.numVfs
    let s := { s with lnk := { s.lnk with vfEnable := true, ari := ari, fbAri := cut, vfsOn := n } }
    ((List.range 256).filter (fun k => k != 0 && k ≤ n && !(s.getInst k).exists_)).foldl (fun t k =>
      t.modInst k (fun i => { i with exists_ := true, state := .ringsOff, rings := Rings.reset, d3hot := false })) s

def State.disableVfs (s : State) : State :=
  if s.hostUp && s.lnk.vfEnable then
    let s := { s with lnk := { s.lnk with vfEnable := false, vfsOn := 0 } }
    s.vfs.foldl State.initiateFlr s
  else s

def State.powerState (s : State) (n : Nat) (d3 : Bool) : State :=
  if s.hostUp && (s.getInst n).exists_ then s.modInst n (fun i => { i with d3hot := d3 }) else s

/-- A change to doorbell mode without stopping the ring. -/
def Rings.toDoorbell (r : Rings) : Rings :=
  if r.watch == .coherent then { r with watch := .doorbell, reread := false, shared := false } else r

/-- Cache_Enable written: while it is 0 every instance runs in doorbell mode (R33). -/
def State.cacheEnable (s : State) (on : Bool) : State :=
  if !s.hostUp then s
  else
    let s := { s with lnk := { s.lnk with cacheEn := on } }
    if on then s else s.mapInst (fun i => { i with rings := i.rings.toDoorbell })

/-! Rings (R41 to R44, R58, R59) -/

/-- Cells of a ring. -/
def Rings.sqSize (r : Rings) : Nat := 2 ^ r.sqLog2.toNat
def Rings.cqSize (r : Rings) : Nat := 2 ^ r.cqLog2.toNat

/-- The checks of R41 on the ring registers and the instance. -/
def State.ringsValid (s : State) (n : Nat) : Bool :=
  let r := (s.getInst n).rings
  6 ≤ r.sqLog2.toNat && r.sqLog2.toNat ≤ 16 && 6 ≤ r.cqLog2.toNat && r.cqLog2.toNat ≤ 16
    && r.sqBase.toNat % (64 * r.sqSize) == 0 && r.cqBase.toNat % (64 * r.cqSize) == 0
    && (s.domainOf n).isSome && !r.ringOn

/-- Coherent mode when all of R43 holds. -/
def State.watchOf (s : State) (n : Nat) : Watch :=
  let i := s.getInst n
  if s.lnk.mode == 2 && s.lnk.cacheEn && !i.forceDb && i.tailHpa != 0 then .coherent else .doorbell

/-- The rings started afresh by an accepted write of EN = 1. -/
def Rings.start (r : Rings) (w : Watch) : Rings :=
  { r with en := true, ringOn := true, watch := w, cfgErr := false, ringFault := false, head := 0, tail := 0, cqTail := 0
           cqHead := 0, phase := true, fetched := 0, completed := 0, badTail := none, badHead := none, silenced := false
           shared := false, reread := w == .coherent }

/-- A write of EN = 1. -/
def State.ringEnable (s : State) (n : Nat) : State :=
  if !s.reachable n then s.unreached n 0x18
  else if (s.getInst n).rings.en then s
  else if s.ringsValid n then
    let w := s.watchOf n
    (s.modInst n (fun i => { i with state := .ringsOn, rings := i.rings.start w })).writeLine n
  else s.modRings n (fun r => { r with cfgErr := true })

/-- A write of EN = 0: fetching stops, the messages fetched run on. -/
def State.ringDisable (s : State) (n : Nat) : State :=
  if !s.reachable n then s.unreached n 0x18
  else if (s.getInst n).rings.en then (s.modRings n (fun r => { r with en := false })).writeLine n else s

/-- RING_ON reads 0 once the last message has completed; after a fault the line keeps STATE 3. An instance that is resetting has
no ring to drain (R49). -/
def State.ringDrained (s : State) (n : Nat) : State :=
  let r := (s.getInst n).rings
  if !r.en && r.ringOn && (s.getInst n).state != .resetting && s.sch.msgs.all (fun m => m.inst != n) then
    let s := s.modInst n (fun i => { i with
      state := .ringsOff, rings := { i.rings with ringOn := false, watch := .off, reread := false, shared := false } })
    if r.ringFault then s else s.writeLine n
  else s

/-- A ring fault (R47). -/
def State.ringFault (s : State) (n : Nat) : State :=
  if (s.getInst n).rings.en then
    let s := (s.modRings n (fun r => { r with en := false, ringFault := true })).writeLine n
    (s.modRings n (fun r => { r with silenced := true })).instEvent n
  else s

/-- A tail or head value taken in doorbell mode (R44, R59). A violation is recorded at the doorbell's offset in the instance's window, for
instance 0 too, whose window lies in that of the manager (DESIGN CHOICE, log 85: R48 does not say in which window the address is). -/
def State.doorbell (s : State) (n : Nat) (sq : Bool) (v : Nat) : State :=
  let r := (s.getInst n).rings
  let off := if sq then 0x1000 else 0x1004
  if !s.reachable n then s.unreached n off
  else if !r.ringOn then s.violation n violRing off
  else match r.watch with
    | .coherent => s.modRings n (fun r => { r with reread := true })
    | _ =>
      if v ≥ (if sq then r.sqSize else r.cqSize) then s.violation n violRing off
      else s.modRings n (fun r => if sq then { r with tail := v } else { r with cqHead := v })

/-- One value of a tail line: taken, or counted as a ring fault unless it was found before (R59). -/
def State.takeIndex (s : State) (n : Nat) (sq : Bool) (v : Nat) : State :=
  let r := (s.getInst n).rings
  if v < (if sq then r.sqSize else r.cqSize) then
    s.modRings n (fun r => if sq then { r with tail := v, badTail := none } else { r with cqHead := v, badHead := none })
  else if (if sq then r.badTail else r.badHead) == some v then s
  else
    (s.modRings n (fun r => if sq then { r with badTail := some v } else { r with badHead := some v })).violation n violRing
      ((s.getInst n).tailHpa.toNat)

/-- The line watched in coherent mode. -/
def State.watches (s : State) (n : Nat) : Bool :=
  (s.getInst n).rings.watch == .coherent && (s.getInst n).rings.ringOn

/-- Tail line data returns (R43, R58, R59). -/
def State.tailLineRead (s : State) (n sqTail cqHead : Nat) : State :=
  if s.watches n && (s.getInst n).rings.reread then
    let s := s.modRings n (fun r => { r with reread := false, shared := true })
    (s.takeIndex n true sqTail).takeIndex n false cqHead
  else s

/-- A snoop answered; one that invalidates the line prompts a re-read (R43). -/
def State.snoop (s : State) (n : Nat) (invalidates : Bool) : State :=
  if s.watches n && (s.getInst n).rings.shared && invalidates then
    s.modRings n (fun r => { r with shared := false, reread := true })
  else s

/-- The re-read of every watched line each 1 ms. -/
def State.tailLinePoll (s : State) : State :=
  s.mapInst (fun i =>
    if i.rings.watch == .coherent && i.rings.ringOn then { i with rings := { i.rings with reread := true } } else i)

/-- GO-Err to RdShared (R44). -/
def State.goErr (s : State) (n : Nat) : State :=
  if s.watches n && (s.getInst n).rings.reread then
    (s.modRings n Rings.toDoorbell).violation n violLink (s.getInst n).tailHpa.toNat
  else s

/-! Violations and DMA errors (R46, R47) -/

/-- Table 2.10. A read of an unmapped offset returns 0. -/
def State.protocolViolation (s : State) (n : Nat) (k : ViolKind) (addr : Nat) : State :=
  if s.lnk.mode == 0 then s
  else match k with
    | .unmapped => { s.violation n violReg addr with reply := some 0 }
    | .unaligned => { s.violation n violReg addr with reply := some 0 }
    | .malformed => (s.aer 0 aerMalformed).violation 0 violLink addr
    | .unexpectedCompletion => (s.aer 0 aerUnexpected).violation 0 violLink addr
    | .doorbellAbsent => s.violation n violRing addr
    | .noFunction => s.unsupported n addr
    | .poisonedWrite => (s.aer n aerPoisoned).violation n violLink addr
    | .barDisabled => s.unsupported n addr

/-- A read for a message is possible while it has work left to read for: not while its commit or its transition runs. -/
def MsgRec.reads (r : MsgRec) : Bool :=
  match r.phase with
  | .commit | .custody | .building | .flash _ => false
  | _ => true

/-- A failed DMA read. A bitmap is read with the requester ID of instance 0, which is charged with it (log 22). -/
def State.dmaError (s : State) (t : DmaTarget) : State :=
  if s.lnk.mode == 0 then s
  else match t with
    | .ring n =>
      let r := (s.getInst n).rings
      if r.en then (s.violation n violDma (r.sqBase.toNat + 64 * r.head)).ringFault n else s
    | .bitmap n =>
      let d := (s.getInst n).dirty
      if d.en then
        (s.modInst n (fun i => { i with dirty := { i.dirty with en := false, error := true } })).violation 0 violDma
          (if d.active then d.mapB else d.mapA).toNat
      else s
    | .input id e =>
      match s.findMsg id with
      | none => s
      | some r =>
        if r.reads && e < r.m.sgl.length && !r.m.inlineIn then
          let addr := ((r.m.sgl[e]?).map (fun x => x.addr.toNat)).getD 0
          (s.violation r.inst violDma addr).failMsg r (Final.refuse Status.hostMemError e)
        else s

/-! Dirty-page logging (R52, R53) -/

def State.dirtyEnable (s : State) (n : Nat) (on : Bool) : State :=
  if n == 0 then s
  else s.modInst n (fun i => { i with dirty := { i.dirty with
    en := on && i.dirty.pages != 0, marked := if i.dirty.en then i.dirty.marked else [] } })

/-- The swap: marks are issued with their writes, so none is owed. What the bitmap that becomes active holds is the host's (log 54). -/
def State.dirtySwap (s : State) (n : Nat) : State :=
  if n == 0 then s
  else s.modInst n (fun i => { i with dirty := { i.dirty with active := !i.dirty.active, count := 0, marked := [] } })

/-! IDE (R38, R39) -/

/-- An IDE key programmed through the session: its stream is Secure. CXL.cache has a stream in CXL mode alone. -/
def State.ideKm (s : State) (cache : Bool) (key : Bytes) : State :=
  if s.hostUp && s.lnk.spdm.phase == 2 && (!cache || s.lnk.mode == 2) && key.length == 32 then
    if cache then { s with lnk := { s.lnk with ideKeyCache := key, ideCache := true } }
    else { s with lnk := { s.lnk with ideKeyIo := key, ideIo := true } }
  else s

/-- The rings of instances 1 to 255 may be fetched (R39). -/
def State.ideServes (s : State) (n : Nat) : Bool :=
  n == 0 || !s.cfg.requireIde || (s.lnk.ideIo && (s.lnk.ideCache || s.lnk.mode == 1))

end Sys2Proof.Machine
end

