-- ==== Sys2Proof/Machine/Spdm.lean ====
section
/-! DEFINITION. The SPDM 1.2 responder on the DOE mailbox (R37): connection, certificate, challenge, measurements, key exchange
over secp384r1, and the secured messages of the one session. The layouts, transcripts and the key schedule are those of
DSP0274 1.2 and DSP0277 (PRESUMED, log 20). -/

namespace Sys2Proof.Machine

/-! Messages -/

/-- The header of an SPDM 1.2 message. -/
def spdmHeader (code p1 p2 : Nat) : Bytes := [0x12] ++ leBytes 1 code ++ leBytes 1 p1 ++ leBytes 1 p2

/-- ERROR with a code: 1 invalid request, 2 invalid session, 4 unexpected request, 6 decrypt error, 7 unsupported request, 0x41
version mismatch. -/
def spdmError (code data : Nat) : Bytes := spdmHeader 0x7F code data

/-- The digest of the applied image, measurement 3; none before an image is applied. -/
def State.measurement (s : State) (i : Nat) : Bytes :=
  match i with
  | 1 => Config.romDigest
  | 2 => Config.firmwareDigest
  | 3 => fit 48 s.cfg.digest
  | _ => leBytes 8 (lcCode s.otp.lcState).toNat

/-- What a measurement measures: boot ROM, mutable firmware, firmware configuration, and the life cycle as raw bits. -/
def measurementType (i : Nat) : Nat :=
  match i with
  | 1 => 0x00
  | 2 => 0x01
  | 3 => 0x03
  | _ => 0x82

/-- A measurement block. -/
def State.measBlock (s : State) (i : Nat) : Bytes :=
  let v := s.measurement i
  leBytes 1 i ++ [0x01] ++ leBytes 2 (3 + v.length) ++ leBytes 1 (measurementType i) ++ leBytes 2 v.length ++ v

def State.measAll (s : State) : Bytes := [1, 2, 3, 4].flatMap s.measBlock

/-- The measurement summary that a request asks for. -/
def State.measSummary (s : State) (kind : Nat) : Bytes := if kind == 0 then [] else sha384 s.measAll

/-- Slot 0 of R37 is empty when a leaf certificate does not match the identity (R280). -/
def State.chainGood (s : State) : Bool :=
  s.rootValid && s.nor.chainMldsa == s.idMldsa.1 && s.nor.chainEc == s.idPoint

/-- Algorithms of each structure of NEGOTIATE_ALGORITHMS: secp384r1, AES-256-GCM, and the SPDM key schedule. -/
def spdmOffer (type : Nat) : Nat :=
  match type with
  | 2 => 0x10
  | 3 => 0x02
  | 5 => 0x01
  | _ => 0

/-- The algorithm structures of the answer, one for each of the request. -/
def spdmStructs (m : Bytes) (k : Nat) : Bytes :=
  (List.range k).flatMap (fun i =>
    let o := 32 + 4 * i
    slice m o 1 ++ [0x20] ++ leBytes 2 (leAt m (o + 2) 2 &&& spdmOffer (byteAt m o)))

/-! Secrets -/

/-- HKDF-Expand with SHA-384, and the info string that SPDM gives it. -/
def hkdfExpandF (prk info : Bytes) : Nat → Nat → Bytes → Bytes
  | 0, _, _ => []
  | f + 1, i, prev =>
    let t := hmac .sha384 prk (prev ++ info ++ leBytes 1 i)
    t ++ hkdfExpandF prk info f (i + 1) t

def spdmExpand (secret : Bytes) (label : String) (context : Bytes) (n : Nat) : Bytes :=
  (hkdfExpandF secret (leBytes 2 n ++ ascii "spdm1.2 " ++ ascii label ++ context) (ceilDiv n 48) 1 []).take n

/-- What is signed: the combined prefix with the context, and the digest of the transcript. -/
def spdmSigned (context : String) (transcript : Bytes) : Bytes :=
  (List.replicate 4 (ascii "dmtf-spdm-v1.2.*")).flatten ++ zeros (36 - context.length) ++ ascii context ++ sha384 transcript

/-- A signature by the P-384 half of the identity, its random value from the public-key generator (R207). -/
def State.spdmSign (s : State) (context : String) (transcript : Bytes) : Bytes × State :=
  let r := s.opBytes .spdm p384.secretLen
  (r.2.idSignEc (spdmSigned context transcript) r.1, r.2)

/-- The HMAC over a transcript under the finished key of a direction. -/
def spdmFinished (secret transcript : Bytes) : Bytes :=
  hmac .sha384 (spdmExpand secret "finished" [] 48) (sha384 transcript)

def State.modSpdm (s : State) (f : Spdm → Spdm) : State := { s with lnk := { s.lnk with spdm := f s.lnk.spdm } }

/-- The session ends; the connection stays. -/
def Spdm.endSession (p : Spdm) : Spdm :=
  { Spdm.reset with vca := p.vca, stage := p.stage, certs := p.certs, meas := p.meas }

/-! Requests outside a secured message -/

/-- KEY_EXCHANGE: a fresh secp384r1 key, the handshake secrets, and the session in its handshake. One that names a slot other than 0 is
answered with the chain and key of slot 0, the one the module has, as a signed GET_MEASUREMENTS is (DESIGN CHOICE, log 88: R37 does
not say). -/
def State.spdmKeyExchange (s : State) (m : Bytes) : Bytes × State :=
  let peer := 0x04 :: slice m 40 96
  let d := s.opBytes .spdm p384.secretLen
  let secret := p384.secret (p384.trim d.1)
  match p384.ecdh secret peer with
  | none => (spdmError 0x01 0, s)
  | some shared =>
    let r := d.2.drawBytes 257 32
    let body := spdmHeader 0x64 0 0 ++ leBytes 2 0xFFFE ++ [0, 0] ++ r.1 ++ (p384.public secret).drop 1
      ++ r.2.measSummary (byteAt m 2) ++ leBytes 2 0
    let th := r.2.lnk.spdm.vca ++ sha384 r.2.nor.chain ++ m ++ body
    let g := r.2.spdmSign "responder-key_exchange_rsp signing" th
    let th1 := th ++ g.1
    let hs := hmac .sha384 (zeros 48) shared
    let req := spdmExpand hs "req hs data" (sha384 th1) 48
    let rsp := spdmExpand hs "rsp hs data" (sha384 th1) 48
    let proof := spdmFinished rsp th1
    (body ++ g.1 ++ proof,
     g.2.modSpdm (fun p => { p with
       phase := 1, id := BitVec.ofNat 32 (0xFFFE * 65536 + leAt m 4 2), transcript := th1 ++ proof, handshake := hs
       reqHs := req, rspHs := rsp, reqSeq := 0, rspSeq := 0 }))

/-- CHALLENGE. -/
def State.spdmChallenge (s : State) (m : Bytes) : Bytes × State :=
  let r := s.drawBytes 257 32
  let body := spdmHeader 0x03 0 1 ++ sha384 s.nor.chain ++ r.1 ++ s.measSummary (byteAt m 3) ++ leBytes 2 0
  let g := r.2.spdmSign "responder-challenge_auth signing" (s.lnk.spdm.vca ++ s.lnk.spdm.certs ++ m ++ body)
  (body ++ g.1, g.2.modSpdm (fun p => { p with certs := [] }))

/-- GET_MEASUREMENTS: the number of them, all of them or one; signed when the request asks for it. -/
def State.spdmMeasure (s : State) (m : Bytes) : Bytes × State :=
  let which := byteAt m 3
  let blocks := if which == 0 then [] else if which == 0xFF then s.measAll else s.measBlock which
  let count := if which == 0 then 0 else if which == 0xFF then 4 else 1
  let r := s.drawBytes 257 32
  let body := spdmHeader 0x60 (if which == 0 then 4 else 0) 0 ++ leBytes 1 count ++ leBytes 3 blocks.length ++ blocks ++ r.1
    ++ leBytes 2 0
  let log := r.2.lnk.spdm.meas ++ m ++ body
  if byteAt m 2 % 2 == 1 then
    let g := r.2.spdmSign "responder-measurements signing" (r.2.lnk.spdm.vca ++ log)
    (body ++ g.1, g.2.modSpdm (fun p => { p with meas := [] }))
  else (body, r.2.modSpdm (fun p => { p with meas := log }))

/-- GET_CERTIFICATE: a portion of the chain in slot 0. -/
def State.spdmCertificate (s : State) (m : Bytes) : Bytes × State :=
  let off := leAt m 4 2
  if byteAt m 2 % 16 != 0 || !s.chainGood || off ≥ s.nor.chain.length then (spdmError 0x01 0, s)
  else
    let part := slice s.nor.chain off (leAt m 6 2)
    let b := spdmHeader 0x02 0 0 ++ leBytes 2 part.length ++ leBytes 2 (s.nor.chain.length - off - part.length) ++ part
    (b, s.modSpdm (fun p => { p with certs := p.certs ++ m ++ b }))

/-- GET_DIGESTS. -/
def State.spdmDigests (s : State) (m : Bytes) : Bytes × State :=
  let b := if s.chainGood then spdmHeader 0x01 0 1 ++ sha384 s.nor.chain else spdmHeader 0x01 0 0
  (b, s.modSpdm (fun p => { p with certs := p.certs ++ m ++ b }))

/-- NEGOTIATE_ALGORITHMS: ECDSA P-384 and SHA-384 must be among those offered. -/
def State.spdmAlgorithms (s : State) (m : Bytes) : Bytes × State :=
  let k := byteAt m 2
  if leAt m 8 4 / 128 % 2 == 0 || leAt m 12 4 / 2 % 2 == 0 then (spdmError 0x01 0, s)
  else
    let b := spdmHeader 0x63 k 0 ++ leBytes 2 (36 + 4 * k) ++ [0x01, 0x00] ++ leBytes 4 0x04 ++ leBytes 4 0x80 ++ leBytes 4 0x02
      ++ zeros 12 ++ zeros 4 ++ spdmStructs m k
    (b, s.modSpdm (fun p => { p with vca := p.vca ++ m ++ b, stage := 3 }))

/-- The answer to a request, and the state after it. A request that needs the identity is unexpected without one; a KEY_EXCHANGE
while a session is open is refused and the session kept. -/
def State.spdmPlain (s : State) (m : Bytes) : Bytes × State :=
  let p := s.lnk.spdm
  let code := byteAt m 1
  if code == 0x84 then
    let b := [0x10, 0x04, 0x00, 0x00, 0x00, 0x01, 0x00, 0x12]
    (b, s.modSpdm (fun _ => { Spdm.reset with vca := m ++ b, stage := 1 }))
  else if byteAt m 0 != 0x12 then (spdmError 0x41 0, s)
  else if code == 0xE1 then
    if p.stage != 1 then (spdmError 0x04 0, s)
    else
      let b := spdmHeader 0x61 0 0 ++ zeros 4 ++ leBytes 4 0x000002D6 ++ leBytes 4 4096 ++ leBytes 4 65536
      (b, s.modSpdm (fun p => { p with vca := p.vca ++ m ++ b, stage := 2 }))
  else if code == 0xE3 then if p.stage != 2 then (spdmError 0x04 0, s) else s.spdmAlgorithms m
  else if p.stage != 3 then (spdmError 0x04 0, s)
  else if code == 0x81 then s.spdmDigests m
  else if code == 0x82 then s.spdmCertificate m
  else if code == 0x83 then
    if byteAt m 2 % 16 != 0 || m.length != 36 then (spdmError 0x01 0, s)
    else if s.ident.present then s.spdmChallenge m
    else (spdmError 0x04 0, s)
  else if code == 0xE0 then
    if byteAt m 3 > 4 && byteAt m 3 != 0xFF then (spdmError 0x01 0, s)
    else if s.ident.present then s.spdmMeasure m
    else (spdmError 0x04 0, s)
  else if code == 0xE4 then
    if p.phase != 0 || !s.ident.present then (spdmError 0x04 0, s)
    else if m.length < 138 then (spdmError 0x01 0, s)
    else s.spdmKeyExchange m
  else if code == 0xE5 || code == 0xEC then (spdmError 0x04 0, s)
  else (spdmError 0x07 code, s)

/-! Secured messages -/

/-- Key and IV of a direction for a sequence number. -/
def spdmKey (secret : Bytes) (seq : Nat) : Bytes × Bytes :=
  (spdmExpand secret "key" [] 32, xorB (spdmExpand secret "iv" [] 12) (leBytes 12 seq))

/-- A secured message: session ID, length, and the AES-256-GCM of the inner message with its length before it. -/
def spdmSeal (id : BitVec 32) (secret : Bytes) (seq : Nat) (inner : Bytes) : Bytes :=
  let kv := spdmKey secret seq
  let text := leBytes 2 inner.length ++ inner
  let head := leBytes 4 id.toNat ++ leBytes 2 (text.length + 16)
  let c := gcmSeal kv.1 kv.2 head text
  head ++ c.1 ++ c.2

/-- The inner message; none when its tag differs. -/
def spdmOpen (secret : Bytes) (seq : Nat) (m : Bytes) : Option Bytes :=
  let kv := spdmKey secret seq
  let n := leAt m 4 2 - 16
  (gcmOpen kv.1 kv.2 (m.take 6) (slice m 6 n) (slice m (6 + n) 16)).map (fun t => slice t 2 (leAt t 0 2))

/-- FINISH: with the right verify data the session opens under the application secrets. -/
def State.spdmFinish (s : State) (m : Bytes) : Bytes × State :=
  let p := s.lnk.spdm
  if m.length != 52 || slice m 4 48 != spdmFinished p.reqHs (p.transcript ++ m.take 4) then
    (spdmError 0x06 0, s.modSpdm Spdm.endSession)
  else
    let b := spdmHeader 0x65 0 0
    let th2 := sha384 (p.transcript ++ m ++ b)
    let master := hmac .sha384 (spdmExpand p.handshake "derived" [] 48) (zeros 48)
    (b, s.modSpdm (fun p => { p with phase := 2, reqSeq := 0, rspSeq := 0, reqHs := [], rspHs := [], handshake := []
                                     reqApp := spdmExpand master "req app data" th2 48
                                     rspApp := spdmExpand master "rsp app data" th2 48 }))

/-- A secured message answered in the session: during the handshake FINISH alone, then what may be asked in a session. -/
def State.spdmSecured (s : State) (m : Bytes) : Bytes × State :=
  let p := s.lnk.spdm
  if p.phase == 0 || leAt m 0 4 != p.id.toNat then (spdmError 0x02 0, s)
  else
    match spdmOpen (if p.phase == 1 then p.reqHs else p.reqApp) p.reqSeq m with
    | none => (spdmError 0x06 0, s.modSpdm Spdm.endSession)
    | some inner =>
      let s := s.modSpdm (fun p => { p with reqSeq := p.reqSeq + 1, rspSeq := p.rspSeq + 1 })
      let a :=
        if p.phase == 1 then if byteAt inner 1 == 0xE5 then s.spdmFinish inner else (spdmError 0x04 0, s)
        else if byteAt inner 1 == 0xEC then (spdmHeader 0x6C 0 0, s.modSpdm Spdm.endSession)
        else if byteAt inner 1 == 0x84 then (spdmError 0x04 0, s)
        else s.spdmPlain inner
      (spdmSeal p.id (if p.phase == 1 then p.rspHs else p.rspApp) p.rspSeq a.1, a.2)

/-! The mailbox -/

/-- A DOE data object: vendor 1, its type, its length in dwords, and the message padded to whole dwords. -/
def doeObject (type : Nat) (b : Bytes) : List (BitVec 32) :=
  let n := ceilDiv b.length 4
  [BitVec.ofNat 32 (type * 65536 + 1), BitVec.ofNat 32 (n + 2)]
    ++ (List.range n).map (fun i => BitVec.ofNat 32 (leAt b (4 * i) 4))

/-- An answer placed in the read mailbox. -/
def State.doeAnswer (s : State) (type : Nat) (b : Bytes) : State :=
  { s with lnk := { s.lnk with doe := s.lnk.doe ++ [b], pf := { s.lnk.pf with doeOut := doeObject type b } } }

/-- The answer to a message needs random values of generators 257 and 259. -/
def spdmDraws (secured : Bool) (m : Bytes) : Bool := secured || [0x83, 0xE0, 0xE4].contains (byteAt m 1)

/-- The P-384 operations of an answer, made in the internal world: a signature, and for a KEY_EXCHANGE its key pair and shared
secret too, each drawing its random values at its dispatch (R37, R110, R207). -/
def State.spdmWork (s : State) (secured : Bool) (m : Bytes) : List IntWork :=
  let p := s.lnk.spdm
  let inner := if !secured then m
    else if p.phase == 2 && leAt m 0 4 == p.id.toNat then (spdmOpen p.reqApp p.reqSeq m).getD [] else []
  let sign := { IntWork.on (signCycles 0x11) inner with image := beBytes 48 s.idSecret, need := p384.secretLen }
  if p.stage != 3 || !s.ident.present || byteAt inner 0 != 0x12 then []
  else match byteAt inner 1 with
    | 0x83 => [sign]
    | 0xE0 => if byteAt inner 2 % 2 == 1 then [sign] else []
    | 0xE4 => if secured then []
      else [{ IntWork.on (generateCycles 0x11) inner with need := p384.secretLen }, .on (pkCycles .ecdh 0x11) inner, sign]
    | _ => []

/-- An SPDM request. One that needs random values waits for their generators (R223), one that needs public-key work for the
internal world. -/
def State.spdmRequest (s : State) (secured : Bool) (m : Bytes) : State :=
  let wait := s.modSpdm (fun p => { p with waiting := some (leBytes 1 (bit secured) ++ m) })
  if !s.hostUp || s.lnk.spdm.waiting.isSome then s
  else if spdmDraws secured m && !(s.genSeeded 257 && s.genSeeded 259) then wait
  else if !(s.spdmWork secured m).isEmpty && !s.served .spdm && s.usableClusters.isEmpty then
    s.doeAnswer 1 (spdmError 0x03 0)
  else if !(s.spdmWork secured m).isEmpty && !s.served .spdm then wait.submit .spdm (s.spdmWork secured m)
  else
    let a := if secured then s.spdmSecured m else s.spdmPlain m
    (a.2.useServed .spdm).doeAnswer (if secured then 2 else 1) a.1

/-- The request that waited goes on once the generators it needs are seeded and its internal-world work is done. -/
def State.spdmResume (s : State) : Option State :=
  match s.lnk.spdm.waiting with
  | some b =>
    if s.hostUp && !s.serving .spdm && (!spdmDraws (byteAt b 0 == 1) (b.drop 1) || (s.genSeeded 257 && s.genSeeded 259)) then
      some ((s.modSpdm (fun p => { p with waiting := none })).spdmRequest (byteAt b 0 == 1) (b.drop 1))
    else none
  | none => none

end Sys2Proof.Machine
end

