-- ==== Sys2Proof/Machine/ConfigSpace.lean ====
section
/-! DEFINITION. The configuration space of the functions, and the MSI-X and component registers of the physical function (R35,
R75). Table 2.2 gives the structures, their places and their contents; the layout within a structure is that of PCIe and of CXL
2.0 (PRESUMED, log 9). -/

namespace Sys2Proof.Machine

/-! Reads -/

/-- A word of a header: capability ID, version, and the next structure. -/
def extCap (id ver next : Nat) : Nat := next * 2 ^ 20 + ver * 2 ^ 16 + id

/-- The address bits that a BAR of the physical function stores, and its type bits. -/
def barMask (i : Nat) : Nat × Nat :=
  match i with
  | 0 => (0xFC000000, 4)
  | 2 => (0xFFFF0000, 4)
  | 4 => (0xFFFFC000, 4)
  | _ => (0xFFFFFFFF, 0)

def FnCfg.msixWord (c : FnCfg) (vectors : Nat) : Nat :=
  (bit c.msixEnable * 2 ^ 15 + bit c.msixMask * 2 ^ 14 + (vectors - 1)) * 65536 + 0x7011

/-- The registers that both kinds of function have; pf where they differ. -/
def State.fnReg (s : State) (n o : Nat) : Option Nat :=
  let c := (s.getInst n).cfg
  let pf := n == 0
  match o with
  | 0x00 => some (if pf then 0x192F1F9A else 0xFFFFFFFF)
  | 0x04 => some (0x00100000 + c.command.toNat)
  | 0x08 => some (0x10800000 + s.glb.controlStep.toNat)
  | 0x0C => some 0
  | 0x2C => some 0x192F1F9A
  | 0x34 => some 0x40
  | 0x3C => some 0
  | 0x40 => some 0x00035001
  | 0x44 => some (8 + if (s.getInst n).d3hot then 3 else 0)
  | 0x50 => some (c.msixWord (if pf then 32 else 2))
  | 0x54 => some (if pf then 4 else 0x3000)
  | 0x58 => some (if pf then 0x2004 else 0x3800)
  | 0x70 => some 0x00020010
  | 0x74 => some (if pf then 0x10008022 else 0x10008020)
  | 0x78 => some (c.devStat.toNat * 65536 + c.devCtl.toNat)
  | 0x7C => some 0x00000085
  | 0x80 => some ((s.lnk.width * 16 + s.lnk.rate) * 65536 + if pf then s.lnk.pf.lnkCtl.toNat else 0)
  | 0x94 => some 0x0003001F
  | 0x98 => some c.devCtl2.toNat
  | 0x9C => some 0x3E
  | 0x100 => some (extCap 0x0001 2 (if pf then 0x148 else 0x158))
  | 0x104 => some c.aerUnc.toNat
  | 0x108 => some c.aerUncMask.toNat
  | 0x10C => some c.aerUncSev.toNat
  | 0x110 => some c.aerCor.toNat
  | 0x114 => some c.aerCorMask.toNat
  | 0x118 => some c.aerCtl.toNat
  | 0x11C | 0x120 | 0x124 | 0x128 => some 0
  | 0x158 => some (extCap 0x000E 1 (if pf then 0x160 else 0x300))
  | 0x15C => some 0
  | 0x300 => some (extCap 0x0022 1 (if pf then 0x400 else 0))
  | 0x304 => some (if pf then 0x800008AC else 0x80000000)
  | 0x308 => some (if pf then 0x00000814 else 0x00000732)
  | _ => none

/-- Status of the DOE mailbox: ready with a response, in error, or busy with a request that waits. -/
def Lnk.doeStatus (l : Lnk) : Nat :=
  bit (!l.pf.doeOut.isEmpty) * 2 ^ 31 + bit l.pf.doeErr * 4 + bit l.spdm.waiting.isSome

/-- CXL.io, CXL.cache and the 68-byte flit in the Flex Bus status. -/
def Lnk.flexStatus (l : Lnk) : Nat := if l.mode == 2 then 0x23 else 0

/-- The SR-IOV, DOE, IDE and CXL structures of the physical function. -/
def State.pfReg (s : State) (o : Nat) : Option Nat :=
  let l := s.lnk
  let p := l.pf
  match o with
  | 0x10 | 0x14 | 0x18 | 0x1C | 0x20 | 0x24 =>
    some ((p.bars.getD ((o - 0x10) / 4) 0).toNat + (barMask ((o - 0x10) / 4)).2)
  | 0x148 => some (extCap 0x0003 1 0x158)
  | 0x14C => some (s.glb.serial.toNat % 2 ^ 32)
  | 0x150 => some (s.glb.serial.toNat / 2 ^ 32)
  | 0x160 => some (extCap 0x0010 1 0x1A0)
  | 0x164 => some 0
  | 0x168 => some (bit l.ari * 16 + bit p.vfMse * 8 + bit l.vfEnable)
  | 0x16C => some (255 * 65536 + 255)
  | 0x170 => some l.numVfs
  | 0x174 => some 0x00010001
  | 0x178 => some 0x193F0000
  | 0x17C => some 0x00000553
  | 0x180 => some p.pageSize.toNat
  | 0x184 => some ((p.vfBar.getD 0 0).toNat + 4)
  | 0x188 => some (p.vfBar.getD 1 0).toNat
  | 0x18C | 0x190 | 0x194 | 0x198 | 0x19C => some 0
  | 0x1A0 => some (extCap 0x0019 1 0x1C0)
  | 0x1A4 | 0x1A8 | 0x1AC | 0x1B0 | 0x1B4 | 0x1B8 => some 0
  | 0x1C0 => some (extCap 0x0026 1 0x1F0)
  | 0x1C4 | 0x1C8 | 0x1CC | 0x1D0 | 0x1D4 | 0x1D8 | 0x1DC | 0x1E0 | 0x1E4 => some 0
  | 0x1F0 => some (extCap 0x002A 1 0x220)
  | 0x1F4 | 0x1F8 | 0x1FC | 0x200 | 0x204 | 0x208 | 0x20C | 0x210 | 0x214 => some 0
  | 0x220 => some (extCap 0x0027 1 0x280)
  | 0x224 => some 0
  | 0x228 | 0x22C | 0x230 | 0x234 | 0x238 | 0x23C | 0x240 | 0x244 => some (p.laneEq.getD ((o - 0x228) / 4) 0).toNat
  | 0x280 => some (extCap 0x002E 1 0x2A0)
  | 0x284 => some 0
  | 0x288 => some 0
  | 0x28C => some l.doeStatus
  | 0x290 => some 0
  | 0x294 => some (p.doeOut.headD 0).toNat
  | 0x2A0 => some (extCap 0x0030 1 0x300)
  | 0x2A4 => some 0x41
  | 0x2A8 => some 0
  | 0x2AC => some p.ideCtl.toNat
  | 0x2B0 => some (if l.ideIo then 2 else 0)
  | 0x400 => some (extCap 0x0023 1 0x440)
  | 0x404 => some 0x03811E98
  | 0x408 => some 0x00030000
  | 0x40C => some (p.cxlCtl.toNat + bit l.cacheEn)
  | 0x410 => some p.cxlCtl2.toNat
  | 0x414 => some (0x01010000 + bit p.cxlLock)
  | 0x440 => some (extCap 0x0023 1 0x480)
  | 0x444 => some 0x01411E98
  | 0x448 => some 0x00230007
  | 0x44C => some (l.flexStatus * 65536)
  | 0x480 => some (extCap 0x0023 1 0)
  | 0x484 => some 0x01401E98
  | 0x488 => some 0x00000008
  | 0x48C => some 0x00000102
  | 0x490 => some 0
  | _ => none

/-- A dword of the configuration space of a function; none where no register is implemented. -/
def State.cfgSpace (s : State) (n o : Nat) : Option Nat :=
  match s.fnReg n o with
  | some v => some v
  | none =>
    if n == 0 then s.pfReg o
    else if [0x10, 0x14, 0x18, 0x1C, 0x20, 0x24].contains o then some 0
    else none

/-- BAR2: the CXL component registers, RAS and link capabilities. -/
def State.componentReg (s : State) (o : Nat) : Option Nat :=
  let p := s.lnk.pf
  match o with
  | 0x1000 => some 0x02110001
  | 0x1004 => some 0x08010002
  | 0x1008 => some 0x10010004
  | 0x1080 => some p.rasUnc.toNat
  | 0x1084 => some p.rasUncMask.toNat
  | 0x1088 => some p.rasUncSev.toNat
  | 0x108C => some p.rasCor.toNat
  | 0x1090 => some p.rasCorMask.toNat
  | 0x1094 => some 0
  | _ => if 0x1098 ≤ o && o < 0x10D8 && o % 4 == 0 then some 0
         else if 0x1100 ≤ o && o < 0x1140 && o % 4 == 0 then some 0 else none

/-- BAR4: the MSI-X table of 32 vectors and its pending bits. -/
def State.msixPfReg (s : State) (o : Nat) : Option Nat :=
  if o < 0x200 && o % 4 == 0 then some (s.lnk.pf.msix.toList.getD (o / 4) 0).toNat
  else match o with
    | 0x2000 => some s.lnk.pf.msixPend.toNat
    | 0x2004 => some 0
    | _ => none

/-! Writes -/

/-- The bytes that a write of size bytes at an address carries, within its dword: the mask, and the value in its place. -/
def laneMask (a size : Nat) : BitVec 32 := BitVec.ofNat 32 ((2 ^ (8 * size) - 1) * 2 ^ (8 * (a % 4)))

/-- A field takes the bits that the mask lets be written. -/
def mergeBits {w : Nat} (old v mask : BitVec w) : BitVec w := (old &&& ~~~mask) ||| (v &&& mask)

/-- A word of an MSI-X table as a write leaves it: a message address is aligned to 4 bytes, and of the control word the mask
alone is stored (PRESUMED, log 9). -/
def msixStored (k : Nat) (v : BitVec 32) : BitVec 32 :=
  match k % 4 with
  | 0 => v &&& ~~~3
  | 3 => v &&& 1
  | _ => v

def State.modFnCfg (s : State) (n : Nat) (f : FnCfg → FnCfg) : State := s.modInst n (fun i => { i with cfg := f i.cfg })
def State.modPf (s : State) (f : PfCfg → PfCfg) : State := { s with lnk := { s.lnk with pf := f s.lnk.pf } }

/-- The registers of one function that a write sets; m masks the bits written. -/
def FnCfg.write (c : FnCfg) (o : Nat) (v m : BitVec 32) : FnCfg :=
  let w1c (x : BitVec 32) : BitVec 32 := x &&& ~~~(v &&& m)
  match o with
  | 0x04 => { c with command := mergeBits c.command (v.setWidth 16) (m.setWidth 16 &&& 0x0546) }
  | 0x50 => { c with msixEnable := if m.getLsbD 31 then v.getLsbD 31 else c.msixEnable
                     msixMask := if m.getLsbD 30 then v.getLsbD 30 else c.msixMask }
  | 0x78 => { c with devCtl := mergeBits c.devCtl (v.setWidth 16) (m.setWidth 16 &&& 0x7FFF)
                     devStat := c.devStat &&& ~~~((v &&& m) >>> 16).setWidth 4 }
  | 0x98 => { c with devCtl2 := mergeBits c.devCtl2 (v.setWidth 16) (m.setWidth 16 &&& 0x101F) }
  | 0x104 => { c with aerUnc := w1c c.aerUnc }
  | 0x108 => { c with aerUncMask := mergeBits c.aerUncMask v m }
  | 0x10C => { c with aerUncSev := mergeBits c.aerUncSev v m }
  | 0x110 => { c with aerCor := w1c c.aerCor }
  | 0x114 => { c with aerCorMask := mergeBits c.aerCorMask v m }
  | _ => c

/-- A data object sent by GO: discovery, an SPDM message or a secured one; anything else sets DOE Error. The object's dwords are the
message whole, the pad bytes of its last dword among them, which so enter the transcripts (DESIGN CHOICE, log 89: R37 does not give the
length of a message within its data object). -/
def State.doeGo (s : State) : State :=
  let w := s.lnk.pf.doeIn
  let n := (w.getD 1 0).toNat
  let s := s.modPf (fun p => { p with doeIn := [] })
  let body := ((w.take n).drop 2).flatMap (fun x => leBytes 4 x.toNat)
  let head := (w.headD 0).toNat
  if w.length < 2 || n != w.length || head % 65536 != 1 then s.modPf (fun p => { p with doeErr := true })
  else match head / 65536 % 256 with
    | 0 =>
      let i := byteAt body 0
      s.modPf (fun p => { p with doeOut :=
        [1, 3, BitVec.ofNat 32 (if i > 2 then 0xFFFF else (if i < 2 then i + 1 else 0) * 2 ^ 24 + i * 65536 + 1)] })
    | 1 => s.spdmRequest false body
    | 2 => s.spdmRequest true body
    | _ => s.modPf (fun p => { p with doeErr := true })

/-- The registers of the physical function that a write sets. -/
def PfCfg.write (p : PfCfg) (o : Nat) (v m : BitVec 32) : PfCfg :=
  match o with
  | 0x10 | 0x14 | 0x18 | 0x1C | 0x20 | 0x24 =>
    let i := (o - 0x10) / 4
    { p with bars := p.bars.modify i (fun x => mergeBits x v (m &&& BitVec.ofNat 32 (barMask i).1)) }
  | 0x80 => { p with lnkCtl := mergeBits p.lnkCtl (v.setWidth 16) (m.setWidth 16 &&& 0x01C3) }
  | 0x180 => { p with pageSize := mergeBits p.pageSize v m }
  | 0x184 => { p with vfBar := p.vfBar.modify 0 (fun x => mergeBits x v (m &&& 0xFFFFC000)) }
  | 0x188 => { p with vfBar := p.vfBar.modify 1 (fun x => mergeBits x v m) }
  | 0x228 | 0x22C | 0x230 | 0x234 | 0x238 | 0x23C | 0x240 | 0x244 =>
    { p with laneEq := p.laneEq.modify ((o - 0x228) / 4) (fun x => mergeBits x v (m &&& 0xFFFF)) }
  | 0x290 => { p with doeIn := p.doeIn ++ [v &&& m] }
  | 0x294 => { p with doeOut := p.doeOut.drop 1 }
  | 0x2AC => { p with ideCtl := mergeBits p.ideCtl v (m &&& 0xFF00C001) }
  | 0x410 => if p.cxlLock then p else { p with cxlCtl2 := mergeBits p.cxlCtl2 (v.setWidth 16) (m.setWidth 16 &&& 0x000F) }
  | 0x414 => { p with cxlLock := p.cxlLock || (v &&& m).getLsbD 0 }
  | _ => p

/-- SR-IOV Control: VF Enable switched, VF Memory Space Enable, and ARI Capable Hierarchy while VF Enable is 0 (R36). -/
def State.sriovWrite (s : State) (v m : BitVec 32) : State :=
  let s := if m.getLsbD 3 then s.modPf (fun p => { p with vfMse := v.getLsbD 3 }) else s
  let ari := if m.getLsbD 4 && !s.lnk.vfEnable then v.getLsbD 4 else s.lnk.ari
  let s := { s with lnk := { s.lnk with ari := ari } }
  if !m.getLsbD 0 || v.getLsbD 0 == s.lnk.vfEnable then s
  else if v.getLsbD 0 then s.enableVfs ari
  else s.disableVfs

/-- A configuration write of one dword. The registers that have rows of their own take the operations of those rows. -/
def State.cfgSpaceWrite (s : State) (n o : Nat) (v m : BitVec 32) : State :=
  let s := s.modFnCfg n (fun c => c.write o v m)
  let s := if n == 0 then s.modPf (fun p => p.write o v m) else s
  match o with
  | 0x44 => if m.getLsbD 0 && (v.toNat % 4 == 0 || v.toNat % 4 == 3) then s.powerState n (v.toNat % 4 == 3) else s
  | 0x50 => s.sendPending n
  | 0x78 => if (v &&& m).getLsbD 15 then if n == 0 then s.pfFlr else s.initiateFlr n else s
  | 0x168 => if n == 0 then s.sriovWrite v m else s
  | 0x170 => if n == 0 && m.getLsbD 0 then s.numvfsWrite (v.toNat % 65536) else s
  | 0x288 =>
    if n != 0 then s
    else
      let s := if (v &&& m).getLsbD 0 then s.modPf (fun p => { p with doeIn := [], doeOut := [], doeErr := false }) else s
      if (v &&& m).getLsbD 31 then s.doeGo else s
  | 0x40C => if n == 0 && m.getLsbD 0 && !s.lnk.pf.cxlLock then s.cacheEnable (v.getLsbD 0) else s
  | _ => s

/-- A write of BAR2. -/
def PfCfg.componentWrite (p : PfCfg) (o : Nat) (v : BitVec 32) : PfCfg :=
  match o with
  | 0x1080 => { p with rasUnc := p.rasUnc &&& ~~~v }
  | 0x1084 => { p with rasUncMask := v &&& 0x0001CFFF }
  | 0x1088 => { p with rasUncSev := v &&& 0x0001CFFF }
  | 0x108C => { p with rasCor := p.rasCor &&& ~~~v }
  | 0x1090 => { p with rasCorMask := v &&& 0x7F }
  | _ => p

/-- A write of BAR4: the table takes it, and a vector that was pending is sent when its mask is cleared. -/
def State.msixPfWrite (s : State) (o : Nat) (v : BitVec 32) : State :=
  if o < 0x200 then
    (s.modPf (fun p => { p with msix := p.msix.setIfInBounds (o / 4) (msixStored (o / 4) v) })).sendPending 0
  else s

end Sys2Proof.Machine
end

