-- ==== Sys2Proof/Machine/Ledger.lean ====
section
/-! DEFINITION. The ledger seal (R343 to R351): chains, postings, checkpoints and their commits, and what the loss of QDR
leaves of a chain. -/

namespace Sys2Proof.Machine

/-! Chains -/

def State.findChain (s : State) (d c : Nat) : Option Chain := ((s.domRec d).bind (fun r => r.chains.find? (fun x => x.num == c)))

def State.modChain (s : State) (d c : Nat) (f : Chain → Chain) : State :=
  match s.domRec d with
  | some r => s.setDomRec d { r with chains := r.chains.map (fun x => if x.num == c then f x else x) }
  | none => s

/-- CHAIN of a ledger opcode. -/
def ledgerChain (m : Msg) : Nat := m.field 40 1

/-- P byte 0 and the bytes that no ledger opcode but LEDGER_POST names. -/
def ledgerArea (m : Msg) : Option Final :=
  failIf (ledgerChain m > 63) Status.paramRange 40 <|> m.mustZero 41 23

/-- The chain of a message, or KEY_NOT_FOUND (R344). -/
def State.ledgerFind (s : State) (r : MsgRec) : Final ⊕ Chain :=
  match s.needVault with
  | some f => .inl f
  | none => match s.findChain (s.dom' r) (ledgerChain r.m) with
    | none => .inl (Final.plain Status.keyNotFound)
    | some c => .inr c

/-- A commit of the chain's record is accepted and not yet done. -/
def State.chainInFlight (s : State) (d c : Nat) : Bool :=
  (s.vlt.batch ++ s.vlt.flight.flatten).any (fun p => p.changes.any (fun x =>
    match x with
    | .chain e y => e == d && y.num == c
    | _ => false))

/-! Checkpoints (R347) -/

/-- A key that may seal: HMAC, or a pair that can sign. -/
def sealAlgOk (o : Obj) : Bool :=
  o.alg.toNat / 256 == 3 || (o.pair && algPset o.alg != 0 && ! [0x20, 0x30, 0x31].contains (algPset o.alg))

/-- Bytes of SEAL under a key. -/
def sealLen (o : Obj) : Nat := match hmacHash o.alg with | some h => h.size | none => sigLen (algPset o.alg)

/-- Random bytes a seal draws. -/
def sealRandom (o : Obj) : Nat :=
  match algPset o.alg with
  | 0x01 | 0x02 | 0x03 => 48
  | 0x10 | 0x11 | 0x12 => (psetCurve (algPset o.alg)).secretLen
  | 0x40 | 0x41 => 32
  | _ => 0

/-- The operation of the internal world that makes a SEAL; none under an HMAC key (R347). -/
def sealWork (o : Obj) : List IntWork :=
  if algPset o.alg == 0 then [] else [{ IntWork.on (signCycles (algPset o.alg)) [] with key := some o }]

/-- SEAL of a body. -/
def sealOf (o : Obj) (body rnd : Bytes) : Bytes :=
  match hmacHash o.alg with
  | some h => hmac h o.material body
  | none =>
    let ps := algPset o.alg
    match ps with
    | 0x01 | 0x02 | 0x03 => rsaSign 1 2 (rsaSize ps) o.material (sha384 body) rnd
    | 0x10 | 0x11 | 0x12 =>
      let c := psetCurve ps
      c.sign (beNat (o.material.take c.size)) (c.secret (c.trim rnd)) (sha384 body)
    | 0x21 => edSign (o.material.take 32) body
    | _ => dsaSignAllF (psetDsa ps) o.material (dsaMu (dsaTr o.publicKey) [] body) rnd 4096 0

/-- The seal key of a chain, or the status that blocks its checkpoints (R349): the key checks of R241 that do not name an
instance, and the vault's. -/
def State.sealKeyOf (s : State) (c : Chain) : Final ⊕ Obj :=
  if s.vlt.state == 3 then .inl (Final.plain Status.vaultReadOnly)
  else match s.readObj c.sealKey with
    | .inl f => .inl f
    | .inr o =>
      match failIf (!sealAlgOk o) Status.keyAlgorithm 0
        <|> failIf (!o.usage.getLsbD 16) Status.usageNotPermitted 0
        <|> failIf (o.world &&& 2 == 0) Status.worldNotPermitted 0
        <|> failIf (o.lcmask &&& s.lcBit == 0) Status.keyLifecycle 0
        <|> failIf (s.seconds < o.validFrom || s.seconds ≥ o.validUntil) Status.keyValidity 0 with
      | some f => .inl f
      | none => .inr o

/-- Table 13.8. -/
def State.ledgerBody (s : State) (d : Nat) (c : Chain) (kind : Nat) (key : Option Obj) : Bytes :=
  [0x4C, 0x53, 0x43, 0x31] ++ leBytes 2 d ++ leBytes 1 c.num ++ leBytes 1 kind ++ leBytes 8 c.count ++ leBytes 8 c.time
    ++ fit 48 c.head ++ leBytes 8 c.prevCount ++ fit 48 c.prevHead ++ leBytes 4 c.resumes ++ zeros 4 ++ s.identDigest
    ++ (match key with
       | some o => leBytes 5 c.sealKey ++ o.check
       | none => leBytes 5 noHandle ++ zeros 3)

/-- The chain record as a checkpoint leaves it (R348). -/
def Chain.checkpointed (c : Chain) (body sealVal : Bytes) : Chain :=
  { c with commCount := c.count, commTime := c.time, commHead := c.head, commResumes := c.resumes, body := body,
           sealVal := sealVal, prevCount := c.count, prevHead := c.head, resumeDue := false, blocked := none, due := [] }

/-- A sealed checkpoint and the chain record that holds it. -/
def State.ledgerSeal (s : State) (d : Nat) (c : Chain) (kind : Nat) (o : Obj) (rnd : Bytes) : Chain :=
  let b := s.ledgerBody d c kind (some o)
  c.checkpointed b (sealOf o b rnd)

/-- A checkpoint as an opcode returns it: body, SEAL and identity signature. -/
def State.ledgerCheckpoint (s : State) (body sealVal rnd : Bytes) : Bytes :=
  body ++ sealVal ++ s.idSign (body ++ sealVal) rnd

def checkpointLen (n : Nat) : Nat := 192 + n + 4723

/-- The operation that seals a checkpoint of a chain, if its key can. -/
def State.chainSealWork (s : State) (d n : Nat) : List IntWork :=
  match s.findChain d n with
  | some c => (s.sealKeyOf c).elim (fun _ => []) sealWork
  | none => []

/-- A periodic or resumption checkpoint of one chain, in the background, the oldest first (R348, R350). A status that blocks it is kept,
and no checkpoint is written until the next one is due (R349). A pause holds it (log 48). -/
def State.ledgerBackground (s : State) (d : Nat) (c : Chain) : State :=
  let at_ : Option (Chain × Nat) :=
    if c.resumeDue && (c.blocked.isNone || !c.due.isEmpty) then some (c, 3)
    else match c.due with
      | (n, t, h) :: _ => some ({ c with count := n, time := t, head := h }, 1)
      | [] => none
  match at_ with
  | none => s
  | some (x, kind) =>
    let me := IntOwner.chain d c.num
    if s.paused || !s.mounted || s.chainInFlight d c.num || s.serving me then s
    else match s.sealKeyOf c with
      | .inl f => (s.stopOwner me).modChain d c.num (fun y => { y with blocked := some f.status, due := [] })
      | .inr o =>
        let give (t : State) (o : Obj) (rnd : Bytes) : State := t.accept none [.chain d (t.ledgerSeal d x kind o rnd)] (Final.good [])
        if (sealWork o).isEmpty then give s o []
        else if s.served me then
          -- The seal is made under the version of the key that the operation loaded (R209).
          let o := ((s.sch.internal.find? (fun y => y.owner == me)).bind (·.work.key)).getD o
          let w := if sealRandom o == 0 then ([], s) else s.opBytes me (sealRandom o)
          give (w.2.useServed me) o w.1
        else s.submit me ((sealWork o).map (fun w => { w with input := s.ledgerBody d x kind (some o), need := sealRandom o }))

/-- Domains with a record, by number. -/
def State.domainList (s : State) : List (Nat × DomRec) := (0, s.dom.rec0) :: s.dom.recs

/-- A periodic checkpoint of a chain is under way, and one that a message asks for comes after it. -/
def State.checkpointOwed (s : State) (d n : Nat) : Bool :=
  ((s.findChain d n).map (fun c => !c.due.isEmpty && c.blocked.isNone)).getD false && s.mounted && !s.usableClusters.isEmpty

/-- Postings admitted and not applied end with ABORTED at a restart of the control pair or of the vault controller (R349). -/
def State.abortPostings (s : State) : State := s.abortAll (fun r => r.op == .ledgerPost && r.admitted)

/-- The background work of every chain. -/
def State.ledgerWork (s : State) : State :=
  (s.domainList.flatMap (fun p => p.2.chains.map (fun c => (p.1, c)))).foldl (fun t x => t.ledgerBackground x.1 x.2) s

/-- A checkpoint that a full or read-only vault refuses blocks the chain with that status (R349); one whose commit failed otherwise is
still due. -/
def State.ledgerCommitFailed (s : State) (l : List Change) (st : BitVec 16) : State :=
  if st != Status.vaultFull && st != Status.vaultReadOnly then s else
  l.foldl (fun t c => match c with
    | .chain d y => t.modChain d y.num (fun x => { x with blocked := some st, due := [] })
    | _ => t) s

/-! LEDGER_CHAIN_OPEN (R345) -/

/-- Lengths SEAL may have in a linked checkpoint. -/
def sealLens : List Nat := [0, 28, 32, 48, 64, 96, 132, 256, 384, 512, 3309, 4627]

/-- The linked checkpoint in the input. -/
def linkedPart (m : Msg) : Bytes := m.input.drop 32

def ledgerChainOpen7 (m : Msg) : Option Final := keyAOnly m <|> ledgerArea m

def ledgerOpenLength (m : Msg) : Option Final :=
  failIf (m.inLen != 32 && !sealLens.contains (m.inLen - 32 - 4915)) Status.lengthInvalid 0
  <|> failIf (m.inLen != 32 && m.inLen < 32 + 4915) Status.lengthInvalid 0

def ledgerChainOpen8 (s : State) (r : MsgRec) : Checked :=
  match s.needWrites with
  | some f => .no f s
  | none =>
    if (s.findChain (s.dom' r) (ledgerChain r.m)).isSome then .no (Final.plain Status.objectExists) s
    else match s.checkKey r.inst r.m.keyA 16 2 sealAlgOk with
      | .inl f => .no f s
      | .inr o => checked s (checkCap r.m (checkpointLen (sealLen o)))

/-- The draws: the nonce of a chain with no link, the seal's, the identity signature's. -/
def State.sealDraw (s : State) (h : Nat) : List (Nat × Nat) :=
  match s.readObj h with
  | .inr o => if sealRandom o == 0 then [] else [(259, sealRandom o)]
  | .inl _ => []

def ledgerOpenDraws (s : State) (r : MsgRec) : List (Nat × Nat) :=
  (if r.m.inLen == 32 then [(257, 32)] else []) ++ s.sealDraw r.m.keyA ++ [(259, 56)]

/-- The linked checkpoint belongs to this module, domain and chain, and is not of KIND 0. -/
def State.linkOk (s : State) (d c : Nat) (b : Bytes) : Bool :=
  let n := b.length - 4723
  b.take 4 == [0x4C, 0x53, 0x43, 0x31] && idVerify s.idMldsa.1 s.idPoint (b.take n) (b.drop n)
    && leAt b 4 2 == d && byteAt b 6 == c && byteAt b 7 != 0

/-- A chain at its start. -/
def State.ledgerStart (s : State) (r : MsgRec) : Chain :=
  let d := s.dom' r
  let c := ledgerChain r.m
  let b := linkedPart r.m
  let base := { Chain.reset with num := c, insts := BitVec.ofNat 256 (leAt r.m.input 0 32), sealKey := r.m.keyA }
  if b.isEmpty then
    { base with time := s.opTime, prevHead := zeros 48
                head := sha384 (ascii "VW.LSG" ++ leBytes 2 d ++ leBytes 1 c ++ s.identDigest ++ r.random.take 32) }
  else
    { base with count := leAt b 8 8, time := leAt b 16 8, head := slice b 24 48, prevCount := leAt b 8 8,
                prevHead := slice b 24 48, resumes := leAt b 128 4 + 1 }

def ledgerChainOpenAct (s : State) (r : MsgRec) : Acted :=
  let d := s.dom' r
  let b := linkedPart r.m
  if !b.isEmpty && !s.linkOk d (ledgerChain r.m) b then .ends (Final.plain Status.verifyFailed) s
  else match s.readObj r.m.keyA with
    | .inl f => .ends f s
    | .inr o =>
      let x := s.ledgerSeal d (s.ledgerStart r) 0 o ((r.random.drop (if b.isEmpty then 32 else 0)).take (sealRandom o))
      .commit [.chain d x] (Final.good (s.ledgerCheckpoint x.body x.sealVal (r.random.drop (r.random.length - 56)))) s

/-! LEDGER_CHECKPOINT, LEDGER_STATUS, LEDGER_CHECKPOINT_GET, LEDGER_CHAIN_CLOSE -/

def ledgerControl7 (m : Msg) : Option Final := noKeys m <|> ledgerArea m

/-- The instance is in the chain's bitmap (R344). -/
def ledgerInst (r : MsgRec) (c : Chain) : Option Final := failIf (!c.insts.getLsbD r.inst) Status.instanceNotPermitted 0

def ledgerCheckpoint8 (s : State) (r : MsgRec) : Checked :=
  match s.ledgerFind r with
  | .inl f => .no f s
  | .inr c =>
    match ledgerInst r c with
    | some f => .no f s
    | none => match s.sealKeyOf c with
      | .inl f => .no f s
      | .inr o => checked s (checkCap r.m (checkpointLen (sealLen o)))

/-- The draws of a checkpoint of the message's chain. -/
def ledgerDraws (s : State) (r : MsgRec) : List (Nat × Nat) :=
  (match s.findChain (s.dom' r) (ledgerChain r.m) with
   | some c => (match s.sealKeyOf c with | .inr _ => s.sealDraw c.sealKey | .inl _ => [])
   | none => []) ++ [(259, 56)]

def ledgerCheckpointAct (s : State) (r : MsgRec) : Acted :=
  let d := s.dom' r
  match s.ledgerFind r with
  | .inl f => .ends f s
  | .inr c => match s.sealKeyOf c with
    | .inl f => .ends f s
    | .inr o =>
      let x := s.ledgerSeal d c 2 o (r.random.take (sealRandom o))
      .commit [.chain d x] (Final.good (s.ledgerCheckpoint x.body x.sealVal (r.random.drop (r.random.length - 56)))) s

def ledgerStatus8 (s : State) (r : MsgRec) : Checked :=
  match s.ledgerFind r with
  | .inl f => .no f s
  | .inr _ => .ok none

/-- The 96 bytes of R351. -/
def Chain.status (c : Chain) : Bytes :=
  leBytes 8 c.count ++ leBytes 8 c.time ++ fit 48 c.head ++ leBytes 8 c.commCount
    ++ leBytes 8 (leAt c.body 8 8) ++ leBytes 4 c.resumes ++ leBytes 1 (if c.blocked.isSome then 2 else 1) ++ zeros 11

def ledgerStatusAct (s : State) (r : MsgRec) : Acted :=
  match s.ledgerFind r with
  | .inl f => .ends f s
  | .inr c => .ends (Final.good c.status) s

def ledgerCheckpointGet8 (s : State) (r : MsgRec) : Checked :=
  match s.ledgerFind r with
  | .inl f => .no f s
  | .inr c => checked s (checkCap r.m (checkpointLen c.sealVal.length))

def ledgerCheckpointGetAct (s : State) (r : MsgRec) : Acted :=
  match s.ledgerFind r with
  | .inl f => .ends f s
  | .inr c => .ends (Final.good (s.ledgerCheckpoint c.body c.sealVal r.random)) s

/-- The key that seals a final checkpoint: none when it is unusable, when a full vault has blocked the chain's checkpoints, or in a read-only vault (R349). -/
def State.closeKey (s : State) (c : Chain) : Option Obj :=
  match s.sealKeyOf c with
  | .inr o => if c.blocked == some Status.vaultFull then none else some o
  | .inl _ => none

def ledgerChainClose8 (s : State) (r : MsgRec) : Checked :=
  match s.ledgerFind r with
  | .inl f => .no f s
  | .inr c =>
    let n := match s.closeKey c with | some o => sealLen o | none => 0
    checked s (ledgerInst r c <|> (if s.vlt.state == 3 then none else s.needWrites) <|> checkCap r.m (checkpointLen n))

/-- A final checkpoint, unsealed when the seal key is unusable (R349); the commit deletes the chain record. A read-only vault commits
nothing (R251): the host gets its checkpoint and the record stays (DESIGN CHOICE, log 75). -/
def ledgerChainCloseAct (s : State) (r : MsgRec) : Acted :=
  let d := s.dom' r
  match s.ledgerFind r with
  | .inl f => .ends f s
  | .inr c =>
    let x := match s.closeKey c with
      | some o => s.ledgerSeal d c 4 o (r.random.take (sealRandom o))
      | none => c.checkpointed (s.ledgerBody d c 4 none) []
    let f := Final.good (s.ledgerCheckpoint x.body x.sealVal (r.random.drop (r.random.length - 56)))
    if s.vlt.state == 3 then .ends f s else .commit [.chainClose d c.num] f s

/-! LEDGER_POST (R344, R346) -/

def ledgerPost7 (m : Msg) : Option Final :=
  noKeys m
  <|> failIf (ledgerChain m > 63) Status.paramRange 40
  <|> failIf (m.field 41 1 > 1) Status.paramRange 41
  <|> failIf (m.field 42 1 > 1) Status.paramRange 42
  <|> m.mustZero 43 5 <|> m.mustZero 56 8

def ledgerPostLength (m : Msg) : Option Final :=
  failIf (if m.field 41 1 == 0 then m.inLen == 0 || m.inLen > 65536 else m.inLen != 48) Status.lengthInvalid 0

def ledgerPostCap (m : Msg) : Nat := if m.field 42 1 == 1 then 40 else 64

/-- A chain whose checkpoints are blocked takes no posting 20,000 counters beyond COMMITTED (R349). -/
def Chain.full (c : Chain) : Option Final :=
  match c.blocked with
  | some st => failIf (c.count - c.commCount ≥ 20000) st 0
  | none => none

def ledgerPost8 (s : State) (r : MsgRec) : Option Final :=
  match s.ledgerFind r with
  | .inl f => some f
  | .inr c => ledgerInst r c <|> c.full

/-- A posting waits for the resumption checkpoint of its chain (R350). -/
def State.ledgerHeld (s : State) (r : MsgRec) : Bool :=
  ((s.findChain (s.dom' r) (ledgerChain r.m)).map (fun c => c.resumeDue && c.blocked.isNone)).getD false

/-- Engine time: the posting's digest and the head update, in SHA-384 compressions. -/
def ledgerCycles (m : Msg) : Nat := 82 * (2 + if m.field 41 1 == 0 then ceilDiv (m.inLen + 17) 128 else 0)

/-- The chain after a posting with digest pd at a time. -/
def Chain.post (c : Chain) (t : Nat) (pd : Bytes) : Chain :=
  let n := c.count + 1
  let h := sha384 (c.head ++ leBytes 8 n ++ leBytes 8 t ++ pd)
  { c with count := n, time := t, head := h, due := if n % 10000 == 0 then c.due ++ [(n, t, h)] else c.due }

/-- The head update: the end of the message and the state, or its refusal. -/
def ledgerApply (s : State) (r : MsgRec) : Bool × Final × State :=
  let d := s.dom' r
  match s.ledgerFind r with
  | .inl f => (false, f, s)
  | .inr c =>
    let x := c.post s.opTime (if r.m.field 41 1 == 0 then sha384 r.m.input else r.m.input)
    let want := r.m.field 48 8
    if want != 0 && want != x.count then
      (true, { Final.plain Status.keyVersion with info := leBytes 8 c.count }, s)
    else
      let out := leBytes 8 x.count ++ leBytes 8 x.time ++ (if r.m.field 42 1 == 1 then x.head.take 24 else x.head)
      (false, Final.good out, s.modChain d c.num (fun _ => x))

/-! Loss and carry-over of heads (R348 to R350) -/

/-- A head lost: the chain resumes from COMMITTED. -/
def Chain.resume (c : Chain) : Chain :=
  { c with count := c.commCount, time := c.commTime, head := c.commHead, resumes := c.commResumes + 1, resumeDue := true
           blocked := none, due := [] }

/-- Every head lost: with the memory key (SHED) every chain resumes; at a mount after a power-off only a chain whose
head stood above COMMITTED and left no journal record. -/
def State.loseHeads (s : State) (shed : Bool) : State :=
  let f (r : DomRec) : DomRec :=
    { r with chains := r.chains.map (fun c => if shed || c.count > c.commCount then c.resume else { c with due := [] }) }
  { s with dom := { s.dom with rec0 := f s.dom.rec0, recs := s.dom.recs.map (fun p => (p.1, f p.2)) } }

/-- A chain's head as a journal record carries it: domain, chain, counter, time, head, resumptions and whether its resumption
checkpoint is still to be made (DESIGN CHOICE, log 76: R348 gives the record no layout). -/
def journalText (d : Nat) (c : Chain) : Bytes :=
  leBytes 2 d ++ leBytes 1 c.num ++ leBytes 8 c.count ++ leBytes 8 c.time ++ fit 48 c.head ++ leBytes 4 c.resumes
    ++ leBytes 1 (bit c.resumeDue)

/-- The i-th journal record, sealed under the vault master key and bound to the present root sequence. -/
def State.journalRecord (s : State) (i d : Nat) (c : Chain) : Nat × Bytes :=
  let iv := leBytes 8 s.vlt.seq ++ leBytes 4 i
  let x := gcmSeal (s.vmk (s.isl.envelope.getD [])) iv (leBytes 8 s.vlt.seq) (journalText d c)
  (s.vlt.seq, iv ++ x.1 ++ x.2)

/-- The ledger journal written at input loss and at entry to DIAPAUSE: each head above its chain's COMMITTED. -/
def State.writeLedgerJournal (s : State) : State :=
  let l := s.domainList.flatMap (fun p => (p.2.chains.filter (fun c => c.count > c.commCount)).map (fun c => (p.1, c)))
  { s with vlt := { s.vlt with
    ledgerJournal := (List.range l.length).zipWith (fun i p => s.journalRecord i p.1 p.2) l } }

/-- The texts of the journal's records that are bound to the mounted root's sequence. -/
def State.openJournal (s : State) : List Bytes :=
  (s.vlt.ledgerJournal.filter (fun x => x.1 == s.vlt.seq)).filterMap (fun x =>
    let body := x.2.drop 12
    gcmOpen (s.vmk (s.isl.envelope.getD [])) (x.2.take 12) (leBytes 8 x.1) (body.take (body.length - 16))
      (body.drop (body.length - 16)))

/-- A chain at the head of its journal record. -/
def Chain.journalled (c : Chain) (b : Bytes) : Chain :=
  let n := leAt b 3 8
  let t := leAt b 11 8
  let h := slice b 19 48
  let k := leAt b 67 4
  { c with count := n, time := t, head := h, resumes := k, commCount := n, commTime := t, commHead := h, commResumes := k
           resumeDue := byteAt b 71 == 1, blocked := none, due := [] }

/-- A mount: heads of the journal that are bound to the mounted root become COMMITTED, every other chain stands at its
COMMITTED; the journal is erased. -/
def State.applyLedgerJournal (s : State) : State :=
  let s2 := s.openJournal.foldl (fun t b => t.modChain (leAt b 0 2) (byteAt b 2) (fun y => y.journalled b)) (s.loseHeads false)
  { s2 with vlt := { s2.vlt with ledgerJournal := [] } }

end Sys2Proof.Machine
end

