-- ==== Sys2Proof/Machine/Nand.lean ====
section
/-! DEFINITION. NAND under the vault (R233, R242 to R247, R256 to R263): blocks and their wear, the integrity tree and the
images of its records, what a batch programs, collection and erasure, the root record and PRF checkpoints, and the checks
of a read. Layouts that the specification does not give are the model's (log 71). -/

namespace Sys2Proof.Machine

/-! Blocks (Table 10.1, R256, R260) -/

/-- Pages of a block and bytes of a page. -/
def blockPages : Nat := 256
def pageBytes : Nat := 16384

/-- The die of a block. -/
def dieOf (b : Nat) : Nat := b / 8704

/-- A block's metadata. -/
def Vlt.blk (v : Vlt) (b : Nat) : Blk := (v.blks.find? (fun x => x.num == b)).getD { Blk.reset with num := b }

/-- A block's metadata changed; a block that was not listed is listed. -/
def Vlt.modBlk (v : Vlt) (b : Nat) (f : Blk → Blk) : Vlt :=
  { v with blks := if v.blks.any (fun x => x.num == b) then v.blks.map (fun x => if x.num == b then f x else x)
                   else v.blks ++ [f (v.blk b)] }

def sumNat (l : List Nat) : Nat := l.foldl (· + ·) 0

/-- VLT_WEAR and VLT_WEAR_MIN: a block that is not listed stands at 0. -/
def Vlt.wearMax (v : Vlt) : Nat := min ((v.blks.map (·.count)).foldl max 0) 65535
def Vlt.wearMin (v : Vlt) : Nat :=
  if v.blks.length < poolBlocks then 0 else min ((v.blks.map (·.count)).foldl min 65535) 65535
def Vlt.wearAvg (v : Vlt) : Nat := min (sumNat ((v.blks.filter (fun b => !b.retired)).map (·.count)) / v.blocks) 65535

/-- The remaining program capacity in bytes (R263). -/
def Vlt.capacity (v : Vlt) : Nat :=
  let listed := v.blks.filter (fun b => !b.retired)
  (sumNat (listed.map (fun b => 3000 - b.count)) + 3000 * (poolBlocks - v.blks.length)) * (blockPages * pageBytes)

/-- VLT_PROG, in MiB. -/
def Vlt.prog (v : Vlt) : Nat := min (v.progBytes / 2 ^ 20) (2 ^ 64 - 1)

/-- VLT_WA: bytes programmed in all for 100 programmed by commits, over the trailing 720 hours since power-up, which the register does not
keep (R262, R270). -/
def Vlt.wa (v : Vlt) : Nat :=
  let hours := v.hourBytes.take v.upHours
  let own := sumNat (hours.map (·.1)) + v.hourNow.1 - v.upBytes.1
  if own == 0 then 100 else min ((sumNat (hours.map (·.2)) + v.hourNow.2 - v.upBytes.2) * 100 / own) 65535

/-- The program rate in bytes an hour (R263). -/
def Vlt.progRate (v : Vlt) : Nat :=
  if v.hourBytes.isEmpty then 0 else sumNat (v.hourBytes.map (·.2)) / v.hourBytes.length

/-- An operating hour ends: commits and bytes of it become those of the last hour. -/
def Vlt.endHour (v : Vlt) : Vlt :=
  { v with rate := v.hourCommits, hourCommits := 0, hourBytes := (v.hourNow :: v.hourBytes).take 720, hourNow := (0, 0)
           upHours := min 720 (v.upHours + 1), upBytes := if v.upHours ≥ 720 then (0, 0) else v.upBytes }

/-- VLT_DEAD: the age of the oldest superseded image not yet erased (R261). -/
def State.deadHours (s : State) : Nat :=
  min (((s.vlt.blks.filterMap (·.dead)).map (fun t => s.hours - t)).foldl max 0) 65535

/-- Erase a block: one program/erase cycle. -/
def Vlt.eraseBlk (v : Vlt) (b : Nat) : Vlt :=
  let v := v.modBlk b (fun x => { x with count := x.count + 1, used := 0, mark := false, stale := [], dead := none })
  if v.openBlk == some b then { v with openBlk := none } else v

/-- The free block with the lowest count, the first of equals (R260). -/
def Vlt.nextFree (v : Vlt) : Option Nat :=
  let l := v.blks.filter (fun b => !b.retired && b.used == 0)
  let low := (l.map (·.count)).foldl min 65536
  let fresh := lowestFree (v.blks.map (·.num)) v.blks.length 0
  if fresh < poolBlocks - journalBlocks && (l.isEmpty || low > 0) then some fresh
  else (l.find? (fun b => b.count == low)).map (·.num)

/-- A block opened for programming, erased first where it is marked. -/
def Vlt.openNext (v : Vlt) : Vlt :=
  match v.nextFree with
  | none => { v with openBlk := none }
  | some b => { (if (v.blk b).mark then v.eraseBlk b else v) with openBlk := some b }

/-- The next n erased pages (R246); none are left once no block is free. -/
def Vlt.takePages : Nat → Vlt → List Nat × Vlt
  | 0, v => ([], v)
  | n + 1, v =>
    let room := v.openBlk.any (fun b => (v.blk b).used < blockPages)
    let v := if room then v else v.openNext
    match v.openBlk with
    | none => ([], v)
    | some b =>
      let r := (v.modBlk b (fun x => { x with used := x.used + 1 })).takePages n
      ((b * blockPages + (v.blk b).used) :: r.1, r.2)

/-! The integrity tree (R243) -/

/-- A record's key: its level and index. -/
def NandRec.key (r : NandRec) : Nat × Nat := (r.level, r.index)

def findRec (t : List NandRec) (k : Nat × Nat) : Option NandRec := t.find? (fun r => r.key == k)

/-- Blocks that hold a record. -/
def NandRec.blocks (r : NandRec) : List Nat := [r.loc / blockPages, r.last / blockPages].eraseDups

/-- The entry of a child: its location and digest; none and zeros for an empty one. -/
def nodeEntry (t : List NandRec) (k : Nat × Nat) : Bytes :=
  match findRec t k with
  | some r => leBytes 4 r.loc ++ fit 32 r.digest
  | none => leBytes 4 0xFFFFFFFF ++ zeros 32

/-- Children of a node. -/
def childKeys (k : Nat × Nat) : List (Nat × Nat) :=
  (List.range (if k.1 == 7 then 8 else 16)).map (fun i => (k.1 - 1, 16 * k.2 + i))

/-- The vault header: the placement key sealed under the VMK, and the epochs (R242, R282). -/
def State.vaultHeader (s : State) : Bytes :=
  kwWrap (s.vmk s.vlt.vaultKey) s.vlt.placement ++ (List.range 1024).flatMap (fun d => leBytes 4 (s.epoch d))

/-- The stored image of a node; the root node carries the vault header. -/
def State.nodeImage (s : State) (t : List NandRec) (k : Nat × Nat) : Bytes :=
  (childKeys k).flatMap (nodeEntry t) ++ if k.1 == 7 then s.vaultHeader else []

/-- The objects of a vault page. -/
def State.pageObjs (s : State) (p : Nat) : List Obj := s.vlt.objs.filter (fun o => o.page == p)

/-- The sealed image of an object under its domain's vault key. -/
def State.image (s : State) (o : Obj) : Bytes := o.image (s.dvk (handleDomain o.handle))

/-- A leaf record: its header, then the used units. -/
def State.leafImage (s : State) (p : Nat) : Bytes :=
  fit 64 (leBytes 4 p ++ leBytes 1 (sumUnits (s.pageObjs p))) ++ (s.pageObjs p).flatMap s.image

/-- The stored image of a record. -/
def State.recImage (s : State) (k : Nat × Nat) : Bytes := if k.1 == 0 then s.leafImage k.2 else s.nodeImage s.vlt.tree k

/-- Bytes of the stored image of a record; none for an empty page. -/
def State.recBytes (s : State) (k : Nat × Nat) : Nat :=
  if k.1 == 0 then (if (s.pageObjs k.2).isEmpty then 0 else 64 + 256 * sumUnits (s.pageObjs k.2))
  else if k.1 == 7 then 8 * 36 + 40 + 4096
  else 576

/-- The records of the tree that change with some of them: each level's own, and the parents of those below. -/
def dirtyUp : Nat → Nat → List Nat → List (Nat × Nat) → List (Nat × Nat)
  | 0, _, _, _ => []
  | f + 1, l, idx, own =>
    let here := (idx ++ (own.filter (fun k => k.1 == l)).map (·.2)).eraseDups
    here.map (fun i => (l, i)) ++ dirtyUp f (l + 1) ((here.map (· / 16)).eraseDups) own

/-- The leaves of some pages, further records, the nodes above them and the root. -/
def dirtyRecs (pages : List Nat) (own : List (Nat × Nat)) : List (Nat × Nat) := dirtyUp 8 0 pages ((7, 0) :: own)

/-- One record written at the next place of the pages taken; an empty page or node leaves the tree. -/
def State.writeRec (s : State) (pages : List Nat) (a : Nat × List NandRec) (k : Nat × Nat) : Nat × List NandRec :=
  let rest := a.2.filter (fun r => r.key != k)
  let empty := if k.1 == 0 then (s.pageObjs k.2).isEmpty else k.1 != 7 && (childKeys k).all (fun c => (findRec a.2 c).isNone)
  if empty then (a.1, rest)
  else
    let b := if k.1 == 0 then s.leafImage k.2 else s.nodeImage a.2 k
    let at_ (off : Nat) : Nat := pages.getD (off / pageBytes) (pages.getLast?.getD 0)
    (a.1 + b.length, rest ++ [{ level := k.1, index := k.2, loc := at_ a.1, last := at_ (a.1 + b.length - 1), digest := sha256 b }])

/-- The tree after some records are written. -/
def State.writeTree (s : State) (pages : List Nat) (l : List (Nat × Nat)) : List NandRec :=
  (l.foldl (s.writeRec pages) (0, s.vlt.tree)).2

/-- The root record of a tree. -/
def rootOf (t : List NandRec) (seq : Nat) : RootRec :=
  match findRec t (7, 0) with
  | some r => { seq := seq, digest := r.digest, loc := r.loc }
  | none => { RootRec.reset with seq := seq }

/-! The root record and PRF checkpoints (R243, R251) -/

/-- The current BBRAM slot: the valid one with the higher sequence. -/
def State.bbramRoot (s : State) : Option RootRec :=
  s.isl.rootSlots.foldl (fun a r => match a with
    | some x => if x.seq < r.seq then some r else a
    | none => some r) none

/-- The BBRAM slot that is not current takes a root record: the switch (R246). -/
def State.switchRoot (s : State) (r : RootRec) : State :=
  let a := s.isl.rootSlots.getD 0 RootRec.reset
  let b := s.isl.rootSlots.getD 1 RootRec.reset
  { s with isl := { s.isl with rootSlots := if a.seq ≤ b.seq then [r, b] else [a, r] }
           vlt := { s.vlt with seq := r.seq, log := s.vlt.log ++ [r] } }

/-- The MAC of a PRF checkpoint under the vault master key (PRESUMED AES-CMAC, log 71). -/
def State.ckptMac (s : State) (env : Bytes) (r : RootRec) : Bytes :=
  cmac (s.vmk env) (leBytes 8 r.seq ++ fit 32 r.digest ++ leBytes 4 r.loc)

/-- The newest PRF checkpoint whose MAC is right under an envelope key. -/
def State.ckptRoot (s : State) (env : Bytes) : Option RootRec :=
  s.prf.ckpt.foldl (fun a c =>
    if c.mac.length == 16 && (a.map (·.seq)).getD 0 ≤ c.root.seq && c.mac == s.ckptMac env c.root then some c.root else a) none

/-- The vault becomes read-only (R251). -/
def State.vaultReadOnly (s : State) (cause : Nat) : State :=
  if s.vlt.state == 2 then
    ({ s with vlt := { s.vlt with state := 3, roCause := cause } }).record 0x0701 0 3 (pay cause 0 0)
  else s

/-- A checkpoint slot has words below their rating. -/
def State.ckptFree (s : State) (k : Nat) : Bool := (prfCkpt k).all (fun w => lookup0 s.prf.counts w < 100000000)

/-- The checkpoint slots have reached their rating (R251). -/
def State.ckptWorn (s : State) : Bool := (List.range 32).all (fun k => !s.ckptFree k)

/-- What makes the vault read-only (R251), or 0. -/
def Vlt.endurance (v : Vlt) : Nat := if v.wearAvg ≥ 3000 then 1 else if v.retired > 16384 then 2 else 0
def State.endurance (s : State) : Nat := if s.vlt.endurance != 0 then s.vlt.endurance else if s.ckptWorn then 3 else 0

/-- The vault becomes read-only at its limits. -/
def State.checkEndurance (s : State) : State := if s.endurance != 0 then s.vaultReadOnly s.endurance else s

/-- A PRF checkpoint in the next of 32 slots (R243), which ends the commit records to be applied at a mount. -/
def State.checkpoint (s : State) : State :=
  let order := (List.range 32).map (fun i => (s.prf.ckptSlot + 1 + i) % 32)
  match order.find? s.ckptFree with
  | none => s.checkEndurance
  | some k =>
    let t := (s.prfWrite (prfCkpt k)).2
    let r := rootOf t.vlt.tree t.vlt.seq
    ({ t with
      prf := { t.prf with ckptSlot := k
                          ckpt := (List.range 32).map (fun i =>
                            if i == k then { root := r, mac := t.ckptMac t.vlt.vaultKey r } else t.prf.ckpt.getD i CkptRec.reset) }
      vlt := { t.vlt with since := 0, ckptBusy := false, log := [] } }).checkEndurance

/-- The order of R243: a checkpoint after every 4,096 commits. -/
def State.countCommits (s : State) (n : Nat) : State :=
  let t := { s with vlt := { s.vlt with since := s.vlt.since + n, hourCommits := s.vlt.hourCommits + n } }
  if t.vlt.since ≥ 4096 then t.checkpoint else t

/-! What a batch programs (R246, R247, R260, R261) -/

/-- The blocks and pages whose live records a batch moves. -/
def collected (l : List PendCommit) : List Nat × List Nat :=
  (l.flatMap (·.changes)).foldl (fun a c => match c with
    | .collect b p => (a.1 ++ b, a.2 ++ p)
    | _ => a) ([], [])

/-- Current records that lie in some blocks or pages. -/
def Vlt.recsIn (v : Vlt) (blocks pages : List Nat) : List (Nat × Nat) :=
  (v.tree.filter (fun r => r.blocks.any blocks.contains || pages.contains r.loc || pages.contains r.last)).map NandRec.key

/-- The batch holds commits of its own, not collection alone. -/
def hasCommit (l : List PendCommit) : Bool :=
  l.any (fun p => p.changes.any (fun c => match c with | .collect _ _ => false | _ => true))

/-- What a batch writes: the records it changes or moves, the bytes that its commits cause and the bytes in all. -/
structure BatchPlan where
  recs  : List (Nat × Nat)
  own   : Nat
  total : Nat
deriving DecidableEq, Repr

/-- The plan of a batch; t is what its commits leave. A commit record of 64 bytes ends it (DEDUCED from R262, log 71). -/
def State.planBatch (s t : State) (l : List PendCommit) : BatchPlan :=
  let pages := touchedPages s t
  let c := collected l
  let recs := dirtyRecs pages (s.vlt.recsIn c.1 c.2)
  { recs := recs
    own := if hasCommit l then sumNat ((dirtyRecs pages []).map t.recBytes) + 64 else 0
    total := sumNat (recs.map t.recBytes) + 64 }

/-- A batch programmed to erased pages outside the blocks it collects: the pages and the state with the bytes counted.
Blocks of it whose program status failed are retired (R247). -/
def State.programBatch (s : State) (p : BatchPlan) (l : List PendCommit) (failed : List Nat) : List Nat × State :=
  let out := (collected l).1
  let v := if s.vlt.openBlk.any out.contains then { s.vlt with openBlk := none } else s.vlt
  let r := v.takePages (ceilDiv p.total pageBytes)
  let bad := failed.filter (fun b => r.1.any (fun x => x / blockPages == b))
  let v := bad.foldl (fun v b => v.modBlk b (fun x => { x with retired := true })) r.2
  let v := if v.openBlk.any bad.contains then { v with openBlk := none } else v
  (r.1, { s with vlt := { v with progBytes := v.progBytes + p.total
                                 hourNow := (v.hourNow.1 + p.own, v.hourNow.2 + p.total) } })

/-- Handles of the objects whose images a batch supersedes: deleted or sealed again. -/
def superseded (s t : State) : List Nat :=
  (s.vlt.objs.filter (fun o => !t.vlt.objs.any (fun (x : Obj) => x.handle == o.handle && x.seq == o.seq && x.index == o.index))).map
    (·.handle)

/-- The records that a batch replaces leave images behind in their blocks, and the blocks that hold a superseded image are
dated (R261). -/
def State.leaveStale (s t : State) (recs : List (Nat × Nat)) (v : Vlt) : Vlt :=
  let old := s.vlt.tree.filter (fun r => r.level == 0 && recs.contains r.key)
  let v := old.foldl (fun v r => r.blocks.foldl (fun v b => v.modBlk b (fun x =>
    { x with stale := x.stale ++ ((s.pageObjs r.index).map (·.handle)).filter (fun h => !x.stale.contains h) })) v) v
  let gone := superseded s t
  { v with blks := v.blks.map (fun x =>
      if x.dead.isNone && x.stale.any gone.contains then { x with dead := some s.hours } else x) }

/-- No current record lies in a block. -/
def Vlt.vacant (v : Vlt) (b : Nat) : Bool := v.tree.all (fun r => !r.blocks.contains b)

/-- Erase those of some blocks that hold no current record. -/
def Vlt.eraseVacant (v : Vlt) (l : List Nat) : Vlt := l.foldl (fun v b => if v.vacant b then v.eraseBlk b else v) v

/-- The switch of a batch (step 5 of Table 10.7): its records are the current ones, and the blocks it collected are
erased. -/
def State.switchBatch (s : State) (l : List PendCommit) (failed : List Nat) : State :=
  let t := s.afterBatch l
  let p := s.planBatch t l
  let r := s.programBatch p l failed
  let tree := { t with vlt := { t.vlt with tree := s.vlt.tree } }.writeTree r.1 p.recs
  let v := { s.leaveStale t p.recs r.2.vlt with tree := tree }
  { s with vlt := v.eraseVacant (collected l).1 }.switchRoot (rootOf tree ((l.map PendCommit.seq).foldl max s.vlt.seq))

/-- A batch programmed in vain (R247). -/
def State.spoilBatch (s : State) (l : List PendCommit) (failed : List Nat) : State :=
  (s.programBatch (s.planBatch (s.afterBatch l) l) l failed).2.checkEndurance

/-- A commit of the vault controller's own: the live data of blocks and pages are moved. -/
def State.collect (s : State) (blocks pages : List Nat) : State :=
  if (s.vlt.recsIn blocks pages).isEmpty then s else s.accept none [.collect blocks pages] (Final.good [])

/-- Close the open batch whatever space is left. -/
def State.forceClose (s : State) : State :=
  if s.vlt.batch.isEmpty || s.vlt.flight.length ≥ 2 then s.batchClose
  else { s with vlt := { s.vlt with flight := s.vlt.flight ++ [s.vlt.batch], batch := [], closeDue := false } }

/-- Live pages of a block. -/
def Vlt.livePages (v : Vlt) (b : Nat) : Nat :=
  ((v.tree.flatMap (fun r => [r.loc, r.last])).filter (fun p => p / blockPages == b)).eraseDups.length

/-- The block that collection reclaims: written, not retired, not open, with the fewest live pages and fewer than it has
programmed. -/
def Vlt.victim (v : Vlt) : Option Nat :=
  let l := v.blks.filter (fun b => !b.retired && b.used != 0 && v.openBlk != some b.num && v.livePages b.num < b.used)
  let low := (l.map (fun b => v.livePages b.num)).foldl min blockPages
  (l.find? (fun b => v.livePages b.num == low)).map (·.num)

/-- The least-worn full block, when the counts of the pool differ by more than 200. -/
def Vlt.levelling (v : Vlt) : Option Nat :=
  if v.wearMax - v.wearMin ≤ 200 then none
  else
    let l := v.blks.filter (fun b => !b.retired && b.used == blockPages)
    let low := (l.map (·.count)).foldl min 65536
    (l.find? (fun b => b.count == low)).map (·.num)

/-- The blocks that a pass collects: for space below 8,192 free blocks, and for levelling. -/
def Vlt.passBlocks (v : Vlt) : List Nat :=
  ((if v.freeBlocks < 8192 then v.victim.toList else []) ++ v.levelling.toList).eraseDups

/-- VLT_STAT.GC: collection or levelling has work. -/
def Vlt.gc (v : Vlt) : Bool := !v.passBlocks.isEmpty

/-- Blocks emptied: those without current records are erased at once, and the live data of the others is moved first, which
takes a mounted vault. -/
def State.reclaim (s : State) (blocks pages : List Nat) : State :=
  let v := s.vlt.eraseVacant blocks
  let s := { s with vlt := v }
  if s.mounted then s.collect (blocks.filter (fun b => !v.vacant b)) pages else s

/-- GARBAGE_COLLECTION (R260): one pass, which also programs again the pages whose corrected bit count has passed the
refresh threshold. In the foreground it lets the commits that wait for space go on. -/
def State.garbageCollection (s : State) (refresh : List Nat) : State :=
  if !s.mounted then s
  else
    let s := (s.reclaim s.vlt.passBlocks refresh).checkEndurance
    if s.vlt.closeDue || s.vlt.throttled then s.forceClose else s

/-- Blocks that hold superseded images, the oldest first. -/
def Vlt.deadBlocks (v : Vlt) : List Nat :=
  ((v.blks.filter (·.dead.isSome)).foldl (fun l b => insertKey (fun x => x.dead.getD 0) b l) []).map (·.num)

/-- SUPERSEDED_ERASE (R261): the oldest of them are erased. -/
def State.supersededErase (s : State) (n : Nat) : State := (s.reclaim (s.vlt.deadBlocks.take n) []).checkEndurance

/-- An hour before an image has been superseded for 72 hours its block is erased or collected (R261). -/
def State.eraseDue (s : State) : State :=
  let l := s.vlt.deadBlocks.filter (fun b => (s.vlt.blk b).dead.any (fun t => s.hours - t ≥ 71))
  if l.isEmpty then s else (s.reclaim l []).forceClose.checkEndurance

/-! Reads (R244, R250) -/

/-- What a read delivers of the stored bytes. -/
def delivered (x : NandRead) (b : Bytes) : Option Bytes :=
  match x with
  | .clean => some b
  | .changed off mask => some (b.modify off (· ^^^ mask))
  | .unreadable => none

/-- A record read and checked against the digest in its parent. -/
def State.readRec (s : State) (k : Nat × Nat) (x : NandRead) : Option Bytes :=
  match findRec s.vlt.tree k with
  | none => none
  | some r => (delivered x (s.recImage k)).filter (fun b => sha256 b == r.digest)

/-- A node above a page, which the tree cache may hold verified. -/
def State.nodeRead (s : State) (k : Nat × Nat) (x : NandRead) : Bool := s.vlt.cache.contains k || (s.readRec k x).isSome

/-- Where an object's image begins in its leaf record. -/
def State.imageOffset (s : State) (o : Obj) : Nat :=
  64 + 256 * sumUnits ((s.pageObjs o.page).takeWhile (fun x => x.handle != o.handle))

/-- The nodes of levels 2 and 1 above a page. -/
def pageNodes (p : Nat) : List (Nat × Nat) := [(2, p / 256), (1, p / 16)]

/-- One attempt to read an object: the record unsealed, when every digest, the tag and the HANDLE are right. -/
def State.readPage (s : State) (o : Obj) (x : PageRead) : Option Bytes :=
  if !s.nodeRead (2, o.page / 256) x.node2 || !s.nodeRead (1, o.page / 16) x.node1 then none
  else (s.readRec (0, o.page) x.leaf).bind (fun b =>
    openImage (s.dvk (handleDomain o.handle)) o.handle (slice b (s.imageOffset o) (256 * o.units)))

/-- A candidate page read and checked, its object in it or not: what the tree holds of its nodes and leaf record. -/
def State.pageSound (s : State) (p : Nat) (x : PageRead) : Bool :=
  let ok (k : Nat × Nat) (b : Bool) : Bool := (findRec s.vlt.tree k).isNone || b
  ok (2, p / 256) (s.nodeRead (2, p / 256) x.node2) && ok (1, p / 16) (s.nodeRead (1, p / 16) x.node1)
    && ok (0, p) (s.readRec (0, p) x.leaf).isSome

/-- The NAND pages that ECC could not recover in an attempt to read a vault page. -/
def State.pagesLost (s : State) (p : Nat) (x : PageRead) : List Nat :=
  let lost (k : Nat × Nat) (y : NandRead) : List Nat :=
    if y == .unreadable && !s.vlt.cache.contains k then ((findRec s.vlt.tree k).map (fun r => [r.loc, r.last])).getD [] else []
  (lost (2, p / 256) x.node2 ++ lost (1, p / 16) x.node1 ++ lost (0, p) x.leaf).eraseDups

/-- The objects whose leaf records lie in some NAND pages. -/
def State.objsOn (s : State) (l : List Nat) : List Nat :=
  (s.vlt.objs.filter (fun o => (findRec s.vlt.tree (0, o.page)).any (fun r => l.contains r.loc || l.contains r.last))).map (·.handle)

/-- A page's nodes are held in the tree cache. -/
def State.cacheNodes (s : State) (p : Nat) : State :=
  { s with vlt := { s.vlt with cache :=
      s.vlt.cache ++ (pageNodes p).filter (fun k => !s.vlt.cache.contains k && (findRec s.vlt.tree k).isSome) } }

/-! QDR (R252) -/

/-- A 64-byte block as QDR holds it: AES-256 in XTS form with the block address as the tweak, under the memory key alone
(DEDUCED, log 71: Table 11.2 gives it 256 bits); none without the key. -/
def State.qdrBlock (s : State) (addr : Nat) (b : Bytes) : Option Bytes :=
  s.vlt.memKey.map (fun k => xtsUnit true k (chunks 16 b) (aesEnc k (leBytes 16 addr)))

/-- Flipped bits of a 64-byte block and its 64-bit check field that one flipped bit restores (R252). -/
def correctable (flips : List (Fin 576)) : Bool := flips.length == 1

end Sys2Proof.Machine
end

