-- ==== Sys2Proof/Machine/Vault.lean ====
section
/-! DEFINITION. The vault controller's own events (R246 to R261): commits switched or lost, mounts, restarts, QDR errors,
garbage collection, and what a loss of the memory key or of the envelope key does to the vault. -/

namespace Sys2Proof.Machine

/-! The end of commits (R245 to R248) -/

/-- The handles whose creation a list of changes makes. -/
def createdHandles (l : List Change) : List Nat :=
  l.filterMap (fun c => match c with
    | .create o => some o.handle
    | _ => none)

/-- A batch of KEY_RESTORE has switched: its next batch is accepted, or the message ends (R298). -/
def State.restoreGoesOn (s : State) (r : MsgRec) : State :=
  match keyRestoreAct (s.modMsg r.id MsgRec.restored) r.restored with
  | .commit l f t => t.accept (some r.id) l f
  | .ends f t => t.complete r f false
  | .engine t => t
  | .custody t => t

/-- What the end of a commit does to its message. -/
def State.endCommit (s : State) (r : MsgRec) (x : HeldEnd) : State :=
  match x with
  | .done f => s.complete r f false
  | .failed f => s.failMsg r (r.withCounts f)
  | .refused f =>
    if r.op == .keyRestore then s.failMsg r (r.withCounts f) else
    let s := (s.releaseHeld r).refuse r f
    if r.m.seg == 0 then s else s.failStream r.inst r.m.flowId
  | .goesOn => s.restoreGoesOn r

/-- A control-path message ends after a restart of the control pair (R23, R248). -/
def State.endOrHold (s : State) (r : MsgRec) (x : HeldEnd) : State :=
  if s.glb.ctrlRestart && r.op.needsControl && r.op != .lcTransition then
    { s with sch := { s.sch with heldEnds := s.sch.heldEnds ++ [(r.id, x)] } }
  else s.endCommit r x

/-- The end of a message waits for the restart of the control pair. -/
def State.endIsHeld (s : State) (r : MsgRec) : Bool := s.sch.heldEnds.any (fun p => p.1 == r.id)

/-- The ends held by a restart, in order. -/
def State.endHeld (s : State) : State :=
  s.sch.heldEnds.foldl (fun t p => match t.findMsg p.1 with
    | some r => t.endCommit r p.2
    | none => t) { s with sch := { s.sch with heldEnds := [] } }

/-- A commit that is not applied frees the numbers it reserved and blocks the checkpoints it carried. -/
def State.dropCommit (s : State) (p : PendCommit) (st : BitVec 16) : State :=
  let hs := createdHandles p.changes
  let s := { s with vlt := { s.vlt with reserved := s.vlt.reserved.filter (fun h => !hs.contains h) } }
  s.ledgerCommitFailed p.changes st

/-- A commit ends with an execution status; its message, if it is still there, completes. -/
def State.failCommit (s : State) (st : BitVec 16) (p : PendCommit) : State :=
  let s := s.dropCommit p st
  match p.msg.bind s.findMsg with
  | some r => s.endOrHold r (.failed (Final.plain st))
  | none => s

/-- One commit at the switch of its batch: applied whole, or refused by what the commits before it left (R245). -/
def State.finishCommit (s : State) (p : PendCommit) : State :=
  match s.applyChanges p.seq p.changes with
  | .inl f =>
    let s := s.dropCommit p f.status
    match p.msg.bind s.findMsg with
    | some r => s.endOrHold r (.refused f)
    | none => s
  | .inr (t, out) =>
    let t := p.changes.foldl (fun t c => t.afterChange c p.inst) t
    match p.msg.bind t.findMsg with
    | some r =>
      if r.op == .keyRestore then t.endOrHold r .goesOn
      else
      let f := { p.final with output := out.getD [] ++ p.final.output, closed := p.final.closed || r.m.seg != 0 }
      let t := if r.m.seg == 0 then t else t.modFlow r.inst r.m.flowId (fun x => { x with stream := none })
      t.endOrHold r (.done f)
    | none => t

/-- A batch in its place is switched and its commits are done (steps 5 and 6 of Table 10.7). -/
def State.finishBatch (s : State) (failed : List Nat) (batch : List PendCommit) : State :=
  ((batch.foldl State.finishCommit (s.switchBatch batch failed)).countCommits batch.length).checkEndurance

/-- The open batch that waited for a batch in flight. -/
def State.closeWaiting (s : State) : State := if s.vlt.closeDue then s.batchClose else s

/-- The oldest batch in flight programmed and read back: switched, programmed again, or given up (R246, R247). Blocks whose
program status failed are retired. -/
def State.commitSwitch (s : State) (readBack : Bool) (failed : List Nat) : State :=
  match s.vlt.flight with
  | [] => s
  | batch :: rest =>
    if readBack then
      (({ s with vlt := { s.vlt with flight := rest, tries := 0 } }).finishBatch failed batch).closeWaiting
    else
      let s := s.spoilBatch batch failed
      if s.vlt.tries + 1 ≥ 3 then
        let s := { s with vlt := { s.vlt with flight := rest, tries := 0, failedBatches := satAdd 16 s.vlt.failedBatches 1 } }
        (batch.foldl (fun t p => t.failCommit Status.vaultCommitFailed p) s).closeWaiting
      else { s with vlt := { s.vlt with tries := s.vlt.tries + 1, retried := satAdd 16 s.vlt.retried 1 } }

/-- Every accepted commit ends with a status (R248). -/
def State.failCommits (s : State) (st : BitVec 16) : State :=
  let all := s.vlt.flight.flatten ++ s.vlt.batch
  let s := { s with vlt := { s.vlt with flight := [], batch := [], tries := 0, closeDue := false } }
  all.foldl (fun t p => t.failCommit st p) s

/-- Every accepted commit completes (R248, R369, R394, R472). -/
def State.finishCommits (s : State) : State :=
  let all := (s.vlt.flight ++ [s.vlt.batch]).filter (fun b => !b.isEmpty)
  all.foldl (fun t b => t.finishBatch [] b)
    { s with vlt := { s.vlt with flight := [], batch := [], tries := 0, closeDue := false } }

/-! Mounts (R257 to R259) -/

/-- ISL_STAT.BBRAM_VALID: the envelope key matches its check (R273, R281). -/
def State.bbramValid (s : State) : Bool := s.isl.envelope.any (fun k => s.isl.envCheck == s.envCheck k)

/-- BBRAM cleared: the envelope slot and the root records. -/
def Isl.clearBbram (i : Isl) : Isl := { i with envelope := none, envCheck := [], rootSlots := [] }

/-- An envelope key written to its BBRAM slot, its check behind it (R281). -/
def State.putEnvelope (s : State) (k : Bytes) : State :=
  { s with isl := { s.isl with envelope := some k, envCheck := s.envCheck k } }

/-- A mount failure of Table 10.11. Causes 4 to 7 are recorded and raise vector 7. -/
def State.mountFails (s : State) (cause : Nat) : State :=
  let s := { s with vlt := { s.vlt with state := if s.vlt.state == 4 then 4 else 0, mountCause := cause, mountDue := false } }
  if cause ≥ 4 then (s.record 0x0701 0 3 (pay cause 0 0)).raise 0 7 else s

/-- A mount begins, or fails at once for want of a vault or of its key. -/
def State.startMount (s : State) : State :=
  let s := { s with vlt := { s.vlt with mountDue := false } }
  if s.lc == 4 then s.mountFails 2
  else if s.lc != 3 then s.mountFails 1
  else if !s.bbramValid then s.mountFails 3
  else if s.vlt.state == 4 then s
  else { s with vlt := { s.vlt with state := 1, mountCause := 0 } }

/-- Step 5 of a mount; heads taken from the ledger journal are committed (R348). -/
def State.mountDone (s : State) (rolled : Nat) : State :=
  let js := if s.vlt.fresh then (s.openJournal.map (fun b => leAt b 0 2)).eraseDups else []
  let s := if s.vlt.fresh then { s.applyLedgerJournal with vlt := { s.applyLedgerJournal.vlt with fresh := false } } else s
  let ro := if s.vlt.roCause != 0 then s.vlt.roCause else s.endurance
  let s := { s with vlt := { s.vlt with state := 2, mountCause := 0, rolled := min rolled 4095, cache := []
                                        diaExit := false, sealed := max s.vlt.sealed s.vlt.seq } }
  if ro == 0 then js.foldl (fun t d => t.accept none [.store d] (Final.good [])) s
  else ({ s with vlt := { s.vlt with state := 3, roCause := ro } }).record 0x0701 0 3 (pay ro 0 0)

/-- Step 2 of a mount: the current BBRAM root record. At exit from DIAPAUSE the PRF checkpoint written at entry stands in
for slots that are both invalid (R259). -/
def State.mountRoot (s : State) (env : Bytes) : Option RootRec :=
  s.bbramRoot <|> if s.vlt.diaExit then s.ckptRoot env else none

/-- Step 3: the root node against the root record, and the vault header under the vault master key. -/
def State.rootOk (s : State) (env : Bytes) (r : RootRec) (x : NandRead) : Bool :=
  s.vlt.formatted && (match delivered x (s.nodeImage s.vlt.tree (7, 0)) with
    | some b => sha256 b == r.digest && (kwUnwrap (s.vmk env) (slice b 288 40)).isSome
    | none => false)

/-- Step 3: the nodes of levels 3 to 6, which a node not delivered as stored fails unless its digest is right. -/
def State.nodesOk (s : State) (l : List (Nat × Nat × NandRead)) : Bool :=
  l.all (fun x => (findRec s.vlt.tree (x.1, x.2.1)).isNone || x.1 < 3 || x.1 > 6 || (s.readRec (x.1, x.2.1) x.2.2).isSome)

/-- Step 4: the BBRAM sequence is not below the checkpoint's, and the commit records after it lead exactly to the root
record. -/
def State.recordsOk (s : State) (env : Bytes) (r : RootRec) (x : NandRead) : Bool :=
  let c := s.ckptRoot env
  (c.map (·.seq)).getD 0 ≤ r.seq && (match s.vlt.log.getLast? with
    | some z => x == .clean && z == r
    | none => c == some r)

/-- What a mount finds (R257, R258). A node of levels 3 to 6 that fails its digest counts as unreadable (DEDUCED, log
71). -/
def State.vaultMount (s : State) (x : MountRead) : State :=
  let env := s.isl.envelope.getD []
  if s.vlt.state != 1 then s
  else match s.mountRoot env with
    | none => s.mountFails 7
    | some r =>
      if x.root == .unreadable then s.mountFails 6
      else if !s.rootOk env r x.root then s.mountFails 4
      else if !s.nodesOk x.nodes then s.mountFails 6
      else if !s.recordsOk env r x.records then s.mountFails 5
      else
        let s := if s.isl.rootSlots.isEmpty then ({ s with isl := { s.isl with rootSlots := [r] } } : State) else s
        s.mountDone s.vlt.log.length

/-- Formatting (R256): a new placement key and an empty root node, programmed like any record; every block is marked for
erasure before reuse, and counts, marks and superseded images stay with the blocks; the commit sequence goes on. -/
def State.formatVault (s : State) (key placement : Bytes) : State :=
  let seq := s.vlt.seq + 1
  let s := s.putEnvelope key
  let s := { s with
    isl := { s.isl with rootSlots := [] }
    dom := { s.dom with recs := [], rec0 := DomRec.reset }
    vlt := { s.vlt with formatted := true, vaultKey := key, placement := placement, epochs := [], objs := []
                        badHandles := [], seq := seq, sealed := seq, kc := [], reserved := [], assignNext := []
                        ledgerJournal := [], batch := [], flight := [], tries := 0, closeDue := false, cache := []
                        tree := [], log := [], openBlk := none
                        blks := s.vlt.blks.map (fun (b : Blk) => { b with used := 0, mark := true }) } }
  let n := s.recBytes (7, 0) + 64
  let p := s.vlt.takePages (ceilDiv n pageBytes)
  let s := { s with vlt := { p.2 with progBytes := p.2.progBytes + n, hourNow := (p.2.hourNow.1, p.2.hourNow.2 + n) } }
  let tree := s.writeTree p.1 [(7, 0)]
  let r := rootOf tree seq
  { s with isl := { s.isl with rootSlots := [r] }, vlt := { s.vlt with tree := tree, log := [r] } }

/-- The vault controller restarts: commits before their switch end, the vault is mounted again (R248, R259). -/
def State.vaultRestart (s : State) : State :=
  if s.vlt.state == 1 || s.mounted then
    let n := (s.vlt.flight ++ [s.vlt.batch]).countP (fun b => !b.isEmpty)
    let s := (s.failCommits Status.vaultCommitFailed).abortPostings
    { s with vlt := { s.vlt with state := 1, failedBatches := satAdd 16 s.vlt.failedBatches n } }
  else s

/-! Loss of keys (Table 11.10) -/

/-- The memory key goes: every QDR content is unreadable, the vault is unmounted, accepted commits are abandoned with
their messages ended, and copies of vault keys are cleared (R248, R255, R349). -/
def State.dropQdr (s : State) : State :=
  let s := s.failCommits Status.aborted
  let s := (s.dropFlows (fun _ => true)).dropTemplates (fun _ => true)
  let s := s.mapInst (fun i => { i with compSession := none })
  let noDrk (r : DomRec) : DomRec := { r with drk := false }
  { s with
    ident := { s.ident with present := false }
    dom := { s.dom with rec0 := noDrk s.dom.rec0, recs := s.dom.recs.map (fun p => (p.1, noDrk p.2)) }
    vlt := { s.vlt with state := if s.vlt.state == 4 then 4 else 0, memKey := none, kc := [], cache := [], mountDue := false } }

/-- The envelope key goes, and with it the vault, the domains 1 to 1023 and their bindings (R299, R302). -/
def State.destroyVault (s : State) : State :=
  let bound := (List.range 256).filter (fun n => ((s.getInst n).domain.getD 0) != 0)
  let s := bound.foldl State.dropBinding s
  let s := s.discardTandems (fun t => t.domain != 0)
  { s with
    isl := s.isl.clearBbram
    dom := { s.dom with recs := [], rec0 := DomRec.reset }
    vlt := { s.vlt with formatted := false, vaultKey := [], placement := [], epochs := [], objs := [], badHandles := []
                        reserved := [], assignNext := [], ledgerJournal := [], batch := [], flight := [], tries := 0
                        closeDue := false, tree := [], log := [], cache := [] } }

/-! Integrity (R249 to R251) -/

/-- A read failure (R250): counted, recorded with page and handle, vector 7. With the NAND pages that ECC could not recover go the objects
of the vault page and of every leaf record in them. -/
def State.integrityFailure (s : State) (page h : Nat) (lost : List Nat) : State :=
  let bad := if lost.isEmpty then [] else (s.pageObjs page).map (·.handle) ++ s.objsOn lost
  let s := { s with vlt := { s.vlt with
    integFails := satAdd 16 s.vlt.integFails 1
    lostPages := satAdd 16 s.vlt.lostPages lost.length
    badHandles := s.vlt.badHandles ++ (bad.filter (fun x => !s.vlt.badHandles.contains x)).eraseDups } }
  (s.record 0x0701 0 3 (pay 0 page h)).raise 0 7

/-- A write of VLT_CTL.CHECKPOINT; a request waits for a mounted vault (R270). -/
def State.ckptRequest (s : State) : State :=
  if s.mounted then s.checkpoint else { s with vlt := { s.vlt with ckptBusy := true } }

/-- A checkpoint that was asked for can be written. -/
def State.ckptDue (s : State) : Bool := s.vlt.ckptBusy && s.mounted && !s.ckptWorn

/-! QDR errors (R254, Table 10.9) -/

/-- A message whose cell is lost ends with ABORTED. A commit or transition of it that is under way goes on, with the number
it reserved. -/
def State.loseMsg (s : State) (r : MsgRec) : State :=
  if r.phase == .commit || r.phase == .custody then
    let s := s.complete r (s.failFlags r (Final.plain Status.aborted)) false
    if s.inStream r then s.failStream r.inst r.m.flowId else s
  else s.abortMsg r

/-- QDR failed: outstanding messages end and no ring is fetched until a cold reset. -/
def State.qdrFail (s : State) : State :=
  let s := { s with vlt := { s.vlt with state := 4 } }
  (s.sch.msgs.foldl (fun t r => match t.findMsg r.id with
    | some r => t.loseMsg r
    | none => t) s).raise 0 7

/-- An uncorrectable error by its region (Table 10.9). A node of levels 3 to 7 is read again at once, one of levels 1 and
2 at its next use. A template that is being built has nothing in QDR yet. -/
def State.qdrRegion (s : State) (g : QdrRegion) : State :=
  match g with
  | .keyCache h => { s with vlt := { s.vlt with kc := s.vlt.kc.filter (fun k => k.handle != h.toNat) } }
  | .treeNode l i => { s with vlt := { s.vlt with cache := s.vlt.cache.filter (· != (l, i)) } }
  | .derailleur => s
  | .template i =>
    if (s.sch.templates[i]?).any (·.building) then s
    else { s with sch := { s.sch with templates := s.sch.templates.eraseIdx i } }
  | .message id => match s.findMsg id with
    | some r => s.loseMsg r
    | none => s
  | .stream n f =>
    if ((s.findFlow n.val f.toNat).bind (·.stream)).isSome then
      let s := s.failStream n.val f.toNat
      s.abortAll (fun r => r.inst == n.val && r.m.flowId == f.toNat && r.m.seg ≥ 1 && r.isRunning)
    else s
  | .chainHead d c => (s.stopOwner (.chain d.val c.val)).modChain d.val c.val Chain.resume

/-- QDR_ERROR (R252, R254): one flipped bit is corrected and counted, more are uncorrectable. -/
def State.qdrError (s : State) (g : QdrRegion) (flips : List (Fin 576)) : State :=
  if correctable flips then
    { s with vlt := { s.vlt with qdrCorr := satAdd 16 s.vlt.qdrCorr 1 }, hlt := { s.hlt with qdrNow := s.hlt.qdrNow + 1 } }
  else
    let times := s.vlt.qdrTimes.filter (fun t => s.opTime < t + 1000) ++ [s.opTime]
    let s := { s with vlt := { s.vlt with qdrUncorr := satAdd 16 s.vlt.qdrUncorr 1, qdrTimes := times } }.qdrRegion g
    if times.length > 16 && s.vlt.state != 4 then s.qdrFail else s

/-- The scrub ends. -/
def State.qdrScrubComplete (s : State) : State := { s with vlt := { s.vlt with scrubbing := false } }

end Sys2Proof.Machine
end

