-- ==== Sys2Proof/Machine/Fabric.lean ====
section
/-! DEFINITION. Clusters, hubs and the control pair (R22 to R30, R120 to R124, R161, R466, R468): fences and resets with the
replay of what they touch, parking, freewheel and program-store scrubs. -/

namespace Sys2Proof.Machine

/-! States of a cluster -/

def State.hubBusy (s : State) (q : Nat) : Bool := s.glb.hubReset.getLsbD q

/-- CLU_STAT.STATE: a fence or a park shows before what the cluster was doing (R126). -/
def State.cluState (s : State) (c : Nat) : CluState :=
  if s.cluFenced c then .fenced else if s.pwr.parked.getLsbD c then .parked else (s.getClu c).state

/-- Engines of a cluster with running work, as CLU_STAT.BUSY. -/
def State.busyEngines (s : State) (c : Nat) : List Nat :=
  (List.range 12).filter (fun i => (s.getEng (12 * c + i)).work.isSome)

def State.cluBusy (s : State) (c : Nat) : Bool := !(s.busyEngines c).isEmpty

/-- Lap length of a message: its flow's, else that of built-in programs (R107). -/
def State.lapOf (s : State) (r : MsgRec) : Nat :=
  (((r.flow.bind (s.findFlow r.inst)).map (·.lap)).filter (· != 0)).getD 65536

/-- Input bytes staged for the work an engine of the cluster runs: its lap's, or its operation's. -/
def State.stagedIn (s : State) (c i : Nat) : Nat :=
  match (s.getEng (12 * c + i)).work.bind s.findMsg with
  | some r => if i ≥ 10 then r.m.input.length else min (s.lapOf r) (r.m.input.length - r.done_)
  | none => 0

/-- Output bytes that the running lap or operation of an engine has written: at most its output, how many is a free value (R126, log 40).
The output of work that has ended is released with it, and its context is saved and copied within the same command (R25). -/
def State.stagedOut (s : State) (c i : Nat) : Nat :=
  match (s.getEng (12 * c + i)).work.bind s.findMsg with
  | some r => min (Config.stagedOutput s.draw (12 * c + i)) (if i ≥ 10 then 8192 else s.lapOf r + 16)
  | none => 0

/-- Input bytes of laps that wait to run: no more than they have, and how much of it has arrived in this cluster is a free value (R126,
log 40). -/
def State.stagedWaiting (s : State) (c : Nat) : Nat :=
  let waits := s.sch.msgs.filter (fun r => r.op.kind.isSome && (r.phase == .ready || r.phase == .between || r.phase == .replay))
  min (Config.stagedWaiting s.draw c) ((waits.map (fun r => min (s.lapOf r) (r.m.input.length - r.done_))).foldl (· + ·) 0)

/-- CLU_STAGE.KIB: every byte held for work of the cluster, of its 2,048 KiB: inputs of running and of waiting laps, and output (R126). -/
def State.stageKib (s : State) (c : Nat) : Nat :=
  let held := ((s.busyEngines c).map (fun i => s.stagedIn c i + s.stagedOut c i)).foldl (· + ·) 0
  min 2048 (ceilDiv (held + s.stagedWaiting c) 1024)

/-! Replay (R25, R26, R28) -/

/-- The next place in the replay queue. -/
def State.nextStamp (s : State) : Nat :=
  (s.sch.msgs.map (·.stamp) ++ s.sch.internal.map (·.stamp)).foldl max 0 + 1

/-- The work of one engine goes to the replay queue; the engine is cleared. -/
def State.replayEngine (s : State) (e : Nat) : State :=
  match (s.getEng e).work with
  | none => s.modEng e Engine.clear
  | some id =>
    let stamp := s.nextStamp
    let s := s.modMsg id (fun r => { r with phase := .replay, stamp := stamp })
    let s := { s with sch := { s.sch with internal := s.sch.internal.map (fun (x : IntOp) =>
      if x.id == id then { x with again := true, stamp := stamp } else x) } }
    { s with sch := { s.sch with replays := satAdd 32 s.sch.replays 1 } }.modEng e Engine.clear

def State.replayCluster (s : State) (c : Nat) : State :=
  (List.range 12).foldl (fun t i => t.replayEngine (12 * c + i)) s

/-! Parking (R123, R466, R468) -/

/-- Clusters that take work or will: enabled, not fenced, not parked. -/
def State.openClusters (s : State) : List Nat := s.usableClusters.filter (fun c => !s.pwr.parked.getLsbD c)

/-- Park a cluster; vector 5 at the first. -/
def State.park (s : State) (c : Nat) : State :=
  let s := if s.pwr.parked == 0 then s.raise 0 5 else s
  { s with pwr := { s.pwr with parked := setBit16 s.pwr.parked c true, parking := setBit16 s.pwr.parking c true
                               unparking := setBit16 s.pwr.unparking c false, parks := satAdd 16 s.pwr.parks 1 } }

/-- Park one cluster: the highest-numbered that is open, never the last. -/
def State.parkOne (s : State) : State :=
  match s.openClusters.reverse with
  | c :: _ :: _ => s.park c
  | _ => s

/-- Unpark a cluster; vector 5 with the last. It takes work once UNPARK_COMPLETE reports it. -/
def State.unpark (s : State) (c : Nat) : State :=
  let s := { s with pwr := { s.pwr with parked := setBit16 s.pwr.parked c false, parking := setBit16 s.pwr.parking c false
                                        unparking := setBit16 s.pwr.unparking c true } }
  if s.pwr.parked == 0 then
    { s with pwr := { s.pwr with throttleT := false, throttleP := s.pwr.throttleP && !s.pwr.charging } }.raise 0 5
  else s

def State.parkedList (s : State) : List Nat := (List.range 16).filter s.pwr.parked.getLsbD

def State.unparkOne (s : State) : State :=
  match s.parkedList with
  | c :: _ => s.unpark c
  | [] => s

/-- Parked clusters whose last work has ended lose their power. -/
def State.gateParked (s : State) : State :=
  (List.range 16).foldl (fun t c =>
    if t.pwr.parking.getLsbD c && !t.cluBusy c then
      (List.range 12).foldl (fun u i => u.modEng (12 * c + i) Engine.clear)
        { t with pwr := { t.pwr with parking := setBit16 t.pwr.parking c false, gated := setBit16 t.pwr.gated c true } }
    else t) s

/-! Fences (R27, R28, R120, R123) -/

/-- KEY_GENERATE of a public-key algorithm: its pair is made on an engine (R286). -/
def MsgRec.makesPair (r : MsgRec) : Bool := r.op == .keyGenerate && r.attrAlg / 256 == 4

/-- The engine kind a message needs now; a pair needs one until it is made. -/
def MsgRec.kind (r : MsgRec) : Option Nat :=
  match r.op with
  | .keyGenerate =>
    if !r.makesPair then none
    else match r.phase with
      | .ready | .running | .replay => some 2
      | _ => none
  | o => o.kind

/-- Needs an engine: now, or, for a pair, once its random bytes are drawn. -/
def MsgRec.needsEngine (r : MsgRec) : Bool := r.kind.isSome || (r.makesPair && r.phase != .between && r.phase != .commit)

/-- Work of an engine kind that no cluster can run any more ends: not started with BUSY_NO_ENGINE, started with
ABORTED (R120). Unstarted segments behind a started one of their stream end as R86 has it, with ABORTED and DISCARD (DESIGN CHOICE,
log 83: R120 and R86 both apply to them). -/
def State.endWork (s : State) : State :=
  (s.sch.msgs.filter (fun r => r.admitted && r.needsEngine)).foldl (fun t r =>
    match t.findMsg r.id with
    | none => t
    | some r =>
      if r.isRunning then t.abortMsg r
      else if r.phase == .commit then t
      else if t.endIsHeld r then t
      else t.endOrHold r (.failed (Final.plain Status.busyNoEngine))) s

/-- A message that waits for the internal world with no engine left to run its work (R120; DEDUCED, log 48). -/
def State.endInternalWork (s : State) : State :=
  (s.sch.msgs.filter (fun r => s.serving (.message r.id) && !s.endIsHeld r)).foldl (fun t r =>
    if r.admitted then t.endOrHold r (.failed (Final.plain Status.busyNoEngine))
    else t.endOrHold r (.refused (Final.refuse Status.busyNoEngine 0))) s

/-- The record of a contained fault, and vector 8 (R75). -/
def State.faultRecord (s : State) (code source fault engine : Nat) : State :=
  (s.record 0x0201 source 3 (pay code fault engine)).raise 0 8

def Glb.contained (g : Glb) : Glb := { g with contain := satAdd 32 g.contain 1 }

/-- CLU_FAULT.CAUSE; 0 for a correctable error, which is no fault. -/
def faultCode (f : FaultCause) : Nat :=
  match f with
  | .corrected => 0
  | .stagingEcc => 1
  | .storeEcc => 2
  | .lockstep => 3
  | .engineWatchdog => 4
  | .clusterWatchdog => 5
  | .spokeCode => 6
  | .selfCheck => 7

/-- Fence a cluster: its work is replayed, it loses its power and its keys; the kinds left without engines end; a
cluster that is the only one left and parked is unparked. -/
def State.fence (s : State) (c cause engine : Nat) : State :=
  let busy := ((s.busyEngines c).map (2 ^ ·)).foldl (· + ·) 0
  let kib := s.stageKib c
  let s := s.replayCluster c
  let s := s.modClu c (fun x => { x with faultCause := cause, faultEngine := engine, heldBusy := busy, heldKib := kib })
  let s := { s with
    glb := { s.glb.contained with fenced := setBit16 s.glb.fenced c true }
    pwr := { s.pwr with gated := setBit16 s.pwr.gated c true, parked := setBit16 s.pwr.parked c false
                        parking := setBit16 s.pwr.parking c false, unparking := setBit16 s.pwr.unparking c false } }
  let s := s.faultRecord 1 (src 3 c) (engine * 256 + cause) engine
  if s.usableClusters.isEmpty then s.endWork.endInternalWork
  else if s.openClusters.isEmpty then s.unparkOne
  else s

/-- The cluster's checkers are active (R30): enabled, not fenced, its clock and power on. A freewheeling cluster is
checked on waking, its spokes by the hub (R27, R124), whose checkers are armed but while it is being reset; an unparking one by
its wake self-check. -/
def State.detects (s : State) (c cause : Nat) : Bool :=
  s.pwr.booted && s.cluUsable c
    && (cause == 7 && s.pwr.unparking.getLsbD c || !s.pwr.gated.getLsbD c)
    && ((s.getClu c).state != .freewheel || cause ≥ 6)
    && (cause != 6 || !s.hubBusy (c / 4))

/-- CLUSTER_FAULT. A correctable error counts in CLU_CE.STAGE and ends nothing (R126, R196; log 53). An engine of another cluster is none of
this one's. -/
def State.clusterFault (s : State) (c cause : Nat) (engine : Option Nat) : State :=
  if cause == 0 then
    if s.detects c 1 then s.modClu c (fun x => { x with ceStage := satAdd 16 x.ceStage 1 }) else s
  else if s.detects c cause then
    s.fence c cause (match engine with | some e => if engCluster e == c then e else 0xFF | none => 0xFF)
  else s

/-- HUB_FAULT: the work in its clusters is replayed, the clusters are kept. -/
def State.hubFault (s : State) (q : Nat) : State :=
  if !s.pwr.booted || s.hubBusy q then s
  else
    let s := (List.range 4).foldl (fun t i => t.replayCluster (4 * q + i)) s
    let s := { s with glb := { s.glb.contained with hubReset := s.glb.hubReset ||| (1 <<< q)
                                                    hubResets := satAdd 16 s.glb.hubResets 1 } }
    s.faultRecord 2 (src 3 (16 + q)) 0 0xFF

def State.hubResetComplete (s : State) (q : Nat) : State :=
  { s with glb := { s.glb with hubReset := s.glb.hubReset &&& ~~~((1 : BitVec 4) <<< q) } }

/-- SPOKE_FAULT: an open hub-mesh spoke is closed; its transfers go by another hub. With both of its hubs being reset no checker is
armed on it, and the fault is folded into the resets (R30). -/
def State.spokeFault (s : State) (a b : Nat) : State :=
  let p := (min a b, max a b)
  if !s.pwr.booted || a == b || s.glb.spokesClosed.contains p || (s.hubBusy a && s.hubBusy b) then s
  else { s with glb := { s.glb.contained with spokesClosed := s.glb.spokesClosed ++ [p] } }

/-! The control pair (R23, R122) -/

/-- CONTROL_PAIR_RESTART. A mismatch or expiry while the pair is already restarting is folded into the restart, with no count and no
record (DESIGN CHOICE, log 84: R23 and R30 do not say). -/
def State.controlRestart (s : State) : State :=
  if !s.pwr.booted || s.glb.ctrlRestart then s
  else
    { s with glb := { s.glb with ctrlRestart := true, ctrlRestarts := satAdd 16 s.glb.ctrlRestarts 1 } }.abortPostings.faultRecord
      3 0 0 0xFF

/-- A write of SCH_CTL (R124, R125). -/
def State.writeSchCtl (s : State) (v : BitVec 32) : State :=
  { s with sch := { s.sch with fwIdle := (v >>> 8).setWidth 8, pack := v.getLsbD 0 } }

/-- The restart completes: parameter writes that waited take effect (R23). -/
def State.controlRestartDone (s : State) : State :=
  if !s.glb.ctrlRestart then s
  else
    let held := s.sch.heldWrites
    let s := { s with glb := { s.glb with ctrlRestart := false }, sch := { s.sch with heldWrites := [] } }
    (held.foldl (fun t p => if p.1 == 0xA0000 then t.writeSchCtl p.2 else t) s).endHeld

/-! Freewheel and scrubs (R124, R161) -/

/-- FREEWHEEL_ENTRY: no work for FW_IDLE µs. The cluster has nothing staged when none of its engines runs. -/
def State.freewheel (s : State) (c : Nat) : State :=
  if s.pwr.booted && s.cluUsable c && !s.cluParked c && (s.getClu c).state == .running && s.sch.fwIdle != 0
      && !s.cluBusy c then
    let s := (List.range 12).foldl (fun t i => t.modEng (12 * c + i) Engine.clear) s
    s.modClu c (fun x => { x with state := .freewheel })
  else s

/-- Work assigned to a freewheeling cluster wakes it. -/
def Cluster.wake (x : Cluster) : Cluster :=
  if x.state == .freewheel then { x with state := .running, wakes := satAdd 32 x.wakes 1 } else x

/-- PROGRAM_STORE_SCRUB: one pass, its corrected errors, or an uncorrectable one. -/
def State.storeScrub (s : State) (c corrected : Nat) (uncorrectable : Bool) : State :=
  if !s.detects c 2 then s
  else
    let s := s.modClu c (fun x => { x with scrub := satAdd 32 x.scrub 1, ceProg := satAdd 16 x.ceProg corrected })
    if uncorrectable then s.fence c 2 0xFF else s

/-- UNPARK_COMPLETE: eligible, or fenced when its program store does not compare. -/
def State.unparkComplete (s : State) (c : Nat) (pass : Bool) : State :=
  if !s.pwr.unparking.getLsbD c then s
  else
    let s := { s with pwr := { s.pwr with unparking := setBit16 s.pwr.unparking c false
                                          gated := setBit16 s.pwr.gated c false } }
    let s := s.modClu c (fun x => { x with state := .running })
    if pass then s else s.fence c 2 0xFF

/-! Throttling (R468) -/

/-- Two's complement of a temperature. -/
def tempByte (t : Int) : BitVec 8 := BitVec.ofInt 8 t

/-- The mean of the latest n of a list of powers, of all of them where there are fewer (DESIGN CHOICE, log 26). -/
def meanPower (l : List Nat) (n : Nat) : BitVec 16 :=
  let l := l.take n
  BitVec.ofNat 16 (min 65535 (l.foldl (· + ·) 0 / max 1 l.length))

/-- The samples of the input stage are taken over (R469): 100 evaluations are 1 s, and 6,000 a minute. A voltage outside 36 to 75 V is
an undervoltage event. -/
def State.sampleInput (s : State) (i : InputSample) : State :=
  let l := (i.power :: s.pwr.powers).take 6000
  let good : Bool := 3600 ≤ i.voltage.toNat && i.voltage.toNat ≤ 7500
  { s with
    pwr := { s.pwr with powers := l, avg1S := meanPower l 100, avg1Min := meanPower l 6000, voltage := i.voltage
                        current := i.current, inputOk := good }
    lcs := { s.lcs with unstableAt := if good then s.lcs.unstableAt else s.opTime } }

/-- THROTTLE_EVALUATION, every 10 ms, with the die temperatures in °C and what the input stage samples. -/
def State.throttle (s : State) (fabric control : Int) (i : InputSample) : State :=
  if !s.pwr.booted then s
  else
    let power := i.power
    let s := { s.sampleInput i with tmp := { s.tmp with tempFabric := tempByte fabric, tempControl := tempByte control } }
    let s : State := if fabric ≥ 100 || control ≥ 100 then
        let t := s.parkOne
        { t with pwr := { t.pwr with throttleT := true } }
      else { s with pwr := { s.pwr with throttleT := s.pwr.throttleT && s.pwr.parked != 0 } }
    let s : State := if power > 11000 then
        let t := if s.pwr.overLast then s.parkOne else s
        { t with pwr := { t.pwr with throttleP := true, charging := false } }
      else s
    let low := if power < 10000 then s.pwr.lowTicks + 1 else 0
    let cool := if fabric < 95 && control < 95 && power < 10000 then s.pwr.coolTicks + 1 else 0
    let charging := s.pwr.charging || low ≥ 10
    let s := { s with pwr := { s.pwr with
      lowTicks := low, overLast := power > 11000, charging := charging, coolTicks := if cool ≥ 10 then 0 else cool
      throttleP := s.pwr.throttleP && (!charging || s.pwr.parked != 0) } }
    if cool ≥ 10 then s.unparkOne else s

end Sys2Proof.Machine
end

