-- ==== Sys2Proof/Machine/Acu.lean ====
section
/-! DEFINITION. Access-control units (chapter 18): the check of an access, the activation of region sets, the sets of each
life-cycle state (R402), violation records and captures, guarded registers and the debug master. -/

namespace Sys2Proof.Machine

/-! Addresses (R430) -/

/-- First and last byte of the fixed exclusions (R432). -/
def otpRoot : Nat × Nat := (0x30040000, 0x3004003F)
def keyRegion : Nat × Nat := (0x30030000, 0x3003FFFF)
def inRange (p : Nat × Nat) (a : Nat) : Bool := p.1 ≤ a && a ≤ p.2

/-- The ranges of Table 18.2: register blocks, QDR, staging, program stores, PRF, BBRAM, custody SRAM, OTP, NOR and NAND. -/
def addressMap : List (Nat × Nat) :=
  [(0x0, 0x3FFFFFF), (0x10000000, 0x1FFFFFFF), (0x20000000, 0x21FFFFFF), (0x22000000, 0x220FFFFF), (0x30000000, 0x30003FFF),
   (0x30010000, 0x30010FFF), (0x30020000, 0x3003FFFF), (0x30040000, 0x30040FFF), (0x40000000, 0x47FFFFFF),
   (0x10000000000, 0x31FFFFFFFFF)]

/-- An address lies in some memory. -/
def mapped (a : Nat) : Bool := addressMap.any (inRange · a)

/-- The guarded registers of the manager window: staged and active sets and ACU_UCTL (Table 18.6). -/
def guardedOffset (a : Nat) : Bool :=
  0xC0000 ≤ a && a < 0xCFC00 && (let o := (a - 0xC0000) % 0xC00; o < 0x804)

/-- Of these, the registers whose writers are narrowed to the custody world: the staged set and ACU_UCTL (R435). -/
def narrowedOffset (a : Nat) : Bool :=
  guardedOffset a && (let o := (a - 0xC0000) % 0xC00; o < 0x400 || 0x800 ≤ o)

/-! The check (R431 to R433) -/

def accCode (k : AccKind) : Nat := match k with | .read => 0 | .write => 1 | .fetch => 2

/-- The levels a unit's master issues, and the fetches that units 0 and 1 alone make (Table 18.1, R434). -/
def issues (u level kind : Nat) : Bool :=
  (kind != 2 || u ≤ 1) &&
  match u with
  | 0 => level == 0
  | 1 => level == 1 || level == 2
  | 2 => level == 1
  | 3 => level == 2 || level == 3
  | 20 => level == 1 || level == 2
  | _ => level == 3

/-- Descriptor i of the active set by majority vote; none when its three copies differ. -/
def AcuUnit.descriptor (a : AcuUnit) (i : Nat) : Option Region := (a.active[i]?).bind Triple.vote

/-- Three copies of an active descriptor differ: the unit is closed from then on (R437). -/
def AcuUnit.split (a : AcuUnit) : Bool := a.active.toList.any Triple.split

/-- The active region that holds an address. -/
def AcuUnit.regionOf (a : AcuUnit) (addr : Nat) : Option Nat :=
  (List.range 32).find? (fun i => ((a.descriptor i).map (fun r =>
    r.valid && r.start.toNat * 16 ≤ addr && addr ≤ r.fin.toNat * 16 + 15)).getD false)

/-- A byte is allowed: in some memory (R430), inside a valid region whose rights for the level include the kind, and not excluded. X is
not stored in units 2 to 20, and rights of a level that the master never issues act on nothing (R434). -/
def AcuUnit.byteOk (a : AcuUnit) (u level kind addr : Nat) : Bool :=
  mapped addr && issues u level kind && !inRange otpRoot addr && !(u != 0 && inRange keyRegion addr)
    && ((a.regionOf addr).bind (fun i => (a.descriptor i).map (fun r => r.rights.getLsbD (3 * level + kind)))).getD false

/-- The region a violation names. -/
def AcuUnit.violRegion (a : AcuUnit) (u addr : Nat) : Nat :=
  if !mapped addr || inRange otpRoot addr || (u != 0 && inRange keyRegion addr) then 0xFF else (a.regionOf addr).getD 0xFF

/-- The first forbidden byte of an access and the region concerned; none when every byte is allowed. -/
def AcuUnit.refuses (a : AcuUnit) (u level kind start len : Nat) : Option (Nat × Nat) :=
  if a.closed || a.split then some (start, 0xFE)
  else ((List.range len).find? (fun i => !a.byteOk u level kind (start + i))).map
    (fun i => (start + i, a.violRegion u (start + i)))

/-! Violations (R438 to R441) -/

/-- Payload of Table 18.4. -/
def violPayload (addr kind level u region len start : Nat) : Bytes :=
  leBytes 6 addr ++ leBytes 1 kind ++ leBytes 1 level ++ leBytes 1 u ++ leBytes 1 region ++ leBytes 2 len
    ++ leBytes 6 start ++ zeros 6

/-- A violation that cannot be recorded goes to the unit's capture registers (R439). -/
def AcuUnit.capture (a : AcuUnit) (addr kind level region len start : Nat) : AcuUnit :=
  if a.capValid then { a with capCount := satAdd 32 a.capCount 1 }
  else { a with capValid := true, capAddr := BitVec.ofNat 48 addr, capKind := kind, capLevel := level, capLen := len
                capRegion := region, capStart := BitVec.ofNat 48 start, capFresh := true }

/-- One refused access of type 0x0601, or guarded access of type 0x0602. -/
def State.acuViolation (s : State) (type u addr kind level region len start : Nat) : State :=
  let s := s.modAcu u (fun a => { a with viol := satAdd 32 a.viol 1 })
  if s.evr.state == 1 || s.evr.state == 3 then
    s.record type (src 4 u) 2 (violPayload addr kind level u region len start)
  else s.modAcu u (fun a => a.capture addr kind level region len start)

/-- The first byte of a guarded register reached by a master outside P0, P1 and the custody world, or of a narrowed one written
from outside the custody world (R435, R441). -/
def guardedByte (u level kind addr len : Nat) : Option Nat :=
  if u == 0 then none
  else ((List.range len).map (addr + ·)).find? (fun a => if level ≥ 2 then guardedOffset a else kind == 1 && narrowedOffset a)

def guardRefuses (u level kind addr len : Nat) : Bool := (guardedByte u level kind addr len).isSome

/-- What a refused access returns: zeros to a read or a fetch, nothing to a write. The zeros of a refused fetch are an illegal
instruction to units 0 and 1, handled as a firmware fault (R433); the specification gives that fault no further effect (log 86). -/
def State.refusedReply (s : State) (u kind : Nat) : State :=
  let s := if kind == 1 then s else { s with reply := some 0 }
  if kind == 2 then s.modAcu u (fun a => { a with fwFaults := a.fwFaults + 1 }) else s

/-- An access of an internal master: refused by its unit, by a guard, or allowed. One of a level or kind that the master never issues is
impossible and does nothing (R434). -/
def State.access (s : State) (u level kind start len : Nat) : State :=
  if !issues u level kind then s
  else match (s.getAcu u).refuses u level kind start len with
  | some (addr, region) => (s.acuViolation 0x0601 u addr kind level region len start).refusedReply u kind
  | none => match guardedByte u level kind start len with
    | some addr =>
      (s.acuViolation 0x0602 u addr kind level (((s.getAcu u).regionOf addr).getD 0xFF) len start).refusedReply u kind
    | none => s

/-- An access of an internal master is carried out. -/
def State.accessAllowed (s : State) (u level kind start len : Nat) : Bool :=
  issues u level kind && ((s.getAcu u).refuses u level kind start len).isNone && !guardRefuses u level kind start len

/-! Host accesses that unit 3 forwards (R429, R431, R436, R441) -/

/-- A register access of instance 0 that the address decode forwards inward, by unit 3 at P2, is refused: the state after the refusal. -/
def State.hostRefused (s : State) (kind start len : Nat) : Option State :=
  if ((s.getAcu 3).refuses 3 2 kind start len).isSome then some (s.access 3 2 kind start len) else none

/-- What the host does at a register of the manager window, if unit 3 lets the write through. -/
def State.atManager (s : State) (addr : Nat) (f : State → State) : State :=
  if s.mgrUp then (s.hostRefused 1 addr 4).getD (f s) else s.unreached 0 addr

/-- A write in the window of instance n's rings; that of instance 0 lies in the manager window, and unit 3 checks it. -/
def State.atRing (s : State) (n off : Nat) (f : State → State) : State :=
  if n == 0 && s.mgrUp then (s.hostRefused 1 (0x1000000 + off) 4).getD (f s) else f s

/-! Activation (R435, R436) -/

/-- Check 1: a valid region with START above END. -/
def orderBad (r : Region) : Bool := r.valid && r.start.toNat > r.fin.toNat
/-- Check 2: two valid regions share a granule. -/
def overlaps (a b : Region) : Bool :=
  a.valid && b.valid && a.start.toNat ≤ b.fin.toNat && b.start.toNat ≤ a.fin.toNat

/-- The first failure of Table 18.3 in region order: its code and the region. A region's own order is tested before its
overlap with the regions before it. -/
def regionsBad (l : List Region) : Option (Nat × Nat) :=
  (List.range l.length).findSome? (fun i =>
    let r := l.getD i Region.reset
    if orderBad r then some (2, i)
    else if (l.take i).any (overlaps r) then some (1, i)
    else none)

/-- Activate the staged set of a unit. -/
def State.activate (s : State) (u : Nat) : State :=
  match regionsBad (s.getAcu u).staged.toList with
  | some (code, i) =>
    let s := s.modAcu u (fun a => { a with check := code, checkRegion := i, fail := true })
    s.record 0x0603 (src 4 u) 2 (leBytes 1 u ++ leBytes 1 code ++ leBytes 1 i ++ zeros 13)
  | none =>
    s.modAcu u (fun a => { a with active := a.staged.map Triple.all, gen := satAdd 16 a.gen 1, closed := false, check := 0, checkRegion := 0 })

def State.closeUnit (s : State) (u : Nat) : State := s.modAcu u (fun a => { a with closed := true })
def State.closeUnits (s : State) : State := (List.range 21).foldl State.closeUnit s

/-! The sets of a life-cycle state (R402, Table 16.10) -/

/-- Who reaches a memory and how: custody pair, control pair, vault DMA, host-link DMA, staging DMA, debug master under
DIAG and under FULL. -/
inductive Reach where
  | c | k | v | h | s | d | f
deriving DecidableEq, Repr

/-- Masters with read and write rights, and masters with read rights alone. -/
structure MemRow where
  start : Nat
  fin   : Nat
  rw    : List Reach
  ro    : List Reach
deriving DecidableEq, Repr

/-- The register blocks of the two register rows (Table 1.4). -/
def openBlocks : List (Nat × Nat) :=
  [(0x0, 0x1FFFF), (0x60000, 0x7FFFF), (0xA0000, 0xAFFFF), (0xD0000, 0xEFFFF), (0x100000, 0x1FFFFF)]
def otherBlocks : List (Nat × Nat) := [(0x20000, 0x5FFFF), (0x80000, 0x9FFFF), (0xB0000, 0xCFFFF), (0x1000000, 0x3FFFFFF)]

/-- The rows of Table 16.10 but for staging and the registers. -/
def memRows (lc : Nat) : List MemRow :=
  let early := lc ≤ 1
  let row (p : Nat × Nat) (rw ro : List Reach) : MemRow := { start := p.1, fin := p.2, rw := rw, ro := ro }
  let debugF := if early then [Reach.f] else []
  [ row (0x10000000, 0x1FFFFFFF)
      (if early then [.c, .k, .v, .h, .s, .f] else if lc ≤ 4 then [.k, .v, .h, .s] else [.k, .h]) []
  , row (0x30040040, 0x300400DF) (if lc == 6 then [] else [.c]) (if lc == 6 then [.c] else debugF)
  , row (0x30010000, 0x30010FFF) (.c :: debugF) []
  , row (0x30030000, 0x3003FFFF) [.c] []
  , row (0x30000000, 0x30003FFF) (if lc ≤ 4 then .c :: .k :: debugF else [.c]) (if lc ≤ 4 then [] else [.k])
  , row (0x10000000000, 0x31FEFFFFFFF) (if lc == 0 then [.v, .f] else if lc == 3 then [.v] else [])
      (if lc == 4 then [.v] else [])
  , row (0x31FF0000000, 0x31FFFFFFFFF) (if lc == 0 || lc == 5 then [] else [.v]) []
  , row (0x40000000, 0x47FFFFFF) (.c :: debugF) [] ]

/-- Masters of staging, program stores and the open register blocks, other than the staging DMAs. -/
def openReach (lc : Nat) : List Reach :=
  match lc with
  | 0 => [.c, .k, .v, .h, .f]
  | 1 => [.c, .k, .v, .h, .d, .f]
  | 2 => [.c, .k, .v, .h, .d]
  | 3 => [.c, .k, .v, .h, .d]
  | 4 => [.c, .k, .v, .h]
  | _ => [.k, .h, .d]

def otherReach (lc : Nat) : List Reach := if lc ≤ 1 then [.c, .k, .h, .f] else [.c, .k, .h]

/-- The master of a unit; the debug master by the scope of its session, none when it is closed. -/
def State.reachOf (s : State) (u : Nat) : Option Reach :=
  match u with
  | 0 => some .c
  | 1 => some .k
  | 2 => some .v
  | 3 => some .h
  | 20 => match s.lcs.debug with | 1 => some .d | 2 => some .f | _ => none
  | _ => some .s

/-- Levels at which a master's accesses to memory and to registers are granted (Table 18.1). -/
def levelsOf (m : Reach) (register : Bool) : List Nat :=
  match m with
  | .c => [0]
  | .k => [1, 2]
  | .v => [1]
  | .h => if register then [2] else [3]
  | .s => [3]
  | .d => [2]
  | .f => [1]

/-- A region with read rights, and write rights too, for some levels. -/
def mkRegion (p : Nat × Nat) (levels : List Nat) (write : Bool) : Region :=
  { start := BitVec.ofNat 44 (p.1 / 16), fin := BitVec.ofNat 44 (p.2 / 16), valid := true
    rights := BitVec.ofNat 12 ((levels.map (fun l => 2 ^ (3 * l) + (if write then 2 ^ (3 * l + 1) else 0))).foldl (· + ·) 0) }

/-- The regions of a unit in a life-cycle state, in the order of Table 16.10 (log 27); a staging DMA has the staging
and the program store of its own cluster. -/
def regionSet (m : Reach) (lc cluster : Nat) : List Region :=
  let mem := (memRows lc).filterMap (fun r =>
    if r.rw.contains m then some (mkRegion (r.start, r.fin) (levelsOf m false) true)
    else if r.ro.contains m then some (mkRegion (r.start, r.fin) (levelsOf m false) false)
    else none)
  let stage := if m == .s then
      (if lc ≤ 4 then
        [mkRegion (0x22000000 + cluster * 0x10000, 0x2200FFFF + cluster * 0x10000) [3] true,
         mkRegion (0x20000000 + cluster * 0x200000, 0x201FFFFF + cluster * 0x200000) [3] true]
       else [])
    else if (openReach lc).contains m then
      [mkRegion (0x22000000, 0x220FFFFF) (levelsOf m false) true, mkRegion (0x20000000, 0x21FFFFFF) (levelsOf m false) true]
    else []
  let open_ := if (m == .s && lc ≤ 4) || (openReach lc).contains m then
      openBlocks.map (fun p => mkRegion p (levelsOf m true) true) else []
  let other := if (otherReach lc).contains m then otherBlocks.map (fun p => mkRegion p (levelsOf m true) true) else []
  mem ++ stage ++ open_ ++ other

/-- Stage the set of the present state for a unit and activate it. -/
def State.programUnit (s : State) (u : Nat) : State :=
  let l := match s.reachOf u with
    | some m => regionSet m s.lc (u - 4)
    | none => []
  let s := s.modAcu u (fun a => { a with staged := Vector.ofFn (fun (i : Fin 32) => l.getD i.val Region.reset) })
  s.activate u

/-- Every unit closed, then activated at the sets of the state (R436, R437). -/
def State.programUnits (s : State) : State :=
  (List.range 21).foldl State.programUnit s.closeUnits

/-! The debug session (R404, R406) -/

/-- Close the debug session with a cause: 1 reset, 2 transition, 3 tamper response, 4 violations, 5 by command (log 23:
the causes have no numbers in the specification); the debug unit is left open at the empty set (R442). -/
def State.closeDebug (s : State) (cause : Nat) : State :=
  if s.lcs.debug == 0 then s
  else
    let s := s.record 0x0502 0 3 (pay s.lcs.debug cause s.prf.dbgCount)
    { s with lcs := { s.lcs with debug := 0, violTimes := [] } }.programUnit 20

/-! Rows -/

/-- A master in the custody world: the custody pair, behind unit 0, or its response controller or island spoke (R429). -/
def isCustody (m : Master) : Bool :=
  match m with
  | .unit u _ => u.val == 0
  | .custody => true
  | .host _ => false

/-- A write of a guarded register by a master that may not write it (R435, R441). -/
def State.guardedWrite (s : State) (m : Master) (offset : Nat) : State :=
  match m with
  | .unit u l => s.access u.val l.val 1 offset 4
  | .custody => s
  | .host n =>
    if !s.reachable n.val then s.unreached n.val offset
    else ((if n == 0 then s.hostRefused 1 offset 4 else none)).getD (s.violation n.val violReg offset)

def uctlOffset (u : Nat) : Nat := 0xC0000 + u * 0xC00 + 0x800

/-- The custody pair's own unit refuses its write. -/
def State.custodyRefused (s : State) (m : Master) (offset : Nat) : Bool :=
  match m with
  | .unit u l => !s.accessAllowed u.val l.val 1 offset 4
  | _ => false

/-- ACTIVATE and CLOSE (R435, R436). -/
def State.activateBy (s : State) (u : Nat) (m : Master) : State :=
  if isCustody m && !s.custodyRefused m (uctlOffset u) then s.activate u else s.guardedWrite m (uctlOffset u)
def State.closeBy (s : State) (u : Nat) (m : Master) : State :=
  if isCustody m && !s.custodyRefused m (uctlOffset u) then s.closeUnit u else s.guardedWrite m (uctlOffset u)

/-- A write of 1 to ACU_CAP_INFO.VALID; a capture in the same cycle prevails (R11, R439). -/
def State.captureClear (s : State) (u : Nat) (now : Option Access) : State :=
  let s := s.modAcu u (fun a => { a with capValid := false, capCount := 0, capFresh := false })
  match now with
  | some a => if a.unit.val == u then s.access u a.level.val (accCode a.kind) a.start.toNat a.len else s
  | none => s

/-- The level of the debug master: P2 under DIAG, P1 under FULL (Table 18.1). With no session the rule names none, and the model takes P2
(DESIGN CHOICE, log 87); the empty set refuses either. -/
def State.debugLevel (s : State) : Nat := if s.lcs.debug == 2 then 1 else 2

/-- DEBUG_ACCESS (R404): the debug master at the level of its scope; 64 refusals within 1 s close the session. With no session the unit
refuses every access (R442), and the session's counters stay. -/
def State.debugAccess (s : State) (k : AccKind) (start len : Nat) : State :=
  if !s.pwr.booted then s
  else
    let level := s.debugLevel
    let refused := issues 20 level (accCode k) && !s.accessAllowed 20 level (accCode k) start len
    let s := s.access 20 level (accCode k) start len
    if !refused || s.lcs.debug == 0 then s
    else
      let times := s.lcs.violTimes.filter (fun t => s.opTime < t + 1000) ++ [s.opTime]
      let s := { s with lcs := { s.lcs with viol := satAdd 16 s.lcs.viol 1, violTimes := times } }
      if times.length ≥ 64 then
        let s := { s with lcs := { s.lcs with closedViol := true } }
        s.closeDebug 4
      else s

/-- A debug session opened at a scope (R406): its set activated, the opening recorded. -/
def State.openDebug (s : State) (scope : Nat) : State :=
  let s := s.record 0x0502 0 3 (pay scope 0 s.prf.dbgCount)
  let s := { s with lcs := { s.lcs with debug := scope, viol := 0, violTimes := [], closedViol := false } }
  s.programUnit 20

/-- A write of LCS_CTL.DBG_CLOSE. -/
def State.dbgClose (s : State) : State := s.closeDebug 5

end Sys2Proof.Machine
end

