-- ==== Sys2Proof/Machine/Tamper.lean ====
section
/-! DEFINITION. The cocoon (chapter 17): monitors, classes, responses, incidents and their end, the island journal and
re-commissioning. -/

namespace Sys2Proof.Machine

/-! Monitors (R409, R411) -/

/-- The number has a monitor (Table 17.1). -/
def monPresent (m : Nat) : Bool :=
  m ≤ 70 || (72 ≤ m && m ≤ 76) || (80 ≤ m && m ≤ 114) || (120 ≤ m && m ≤ 123)

/-- Its front end is on the island die. -/
def monIsland (m : Nat) : Bool := m ≤ 68 || m == 76 || m == 80 || (112 ≤ m && m ≤ 114)

/-- Default filter length; 1 for an unassigned number. -/
def monFilter (m : Nat) : Nat :=
  if m ≤ 63 then 4
  else if m ≤ 67 then 8
  else if m ≤ 70 then 16
  else if m == 72 then 4
  else if 73 ≤ m && m ≤ 76 then 2
  else if 80 ≤ m && m ≤ 104 then 4
  else if 105 ≤ m && m ≤ 112 then 2
  else if m == 113 then 16
  else if m == 114 then 2
  else 1

/-- The single value a fixed or unassigned monitor's filter can have. -/
def monFixed (m : Nat) : Bool := m == 114 || m ≥ 115 || m == 71 || (77 ≤ m && m ≤ 79)

/-- The filter in force: the image's, or the default (R411). -/
def State.filterOf (s : State) (m : Nat) : Nat := s.cfg.tamperFilter.getD m (monFilter m)

/-! Classes (R413) -/

/-- A row of Table 17.2 by life-cycle state: PUPA, IMAGO, DIAPAUSE. -/
def classRow (m : Nat) (high main : Bool) : Nat × Nat × Nat :=
  if m ≤ 67 then (3, 3, 3)
  else if m ≤ 70 then (if high then (2, 2, 0) else (3, 3, 0))
  else if m == 72 then (1, 1, 1)
  else if 73 ≤ m && m ≤ 75 then (2, 2, 2)
  else if m == 76 || m == 80 then (3, 3, 2)
  else if m == 81 || m == 83 || m == 84 then (2, 2, 2)
  else if 82 ≤ m && m ≤ 104 then (1, 1, 1)
  else if 105 ≤ m && m ≤ 112 then (4, 4, 4)
  else if m == 113 then (0, if high then 3 else 0, 0)
  else if m == 114 then (0, if main then 0 else 3, 0)
  else if m == 123 then (2, 2, 2)
  else (3, 3, 3)

/-- Table 17.2. -/
def alarmClass (lc m : Nat) (high main : Bool) : Nat :=
  let r := classRow m high main
  match lc with
  | 0 => if 120 ≤ m && m ≤ 122 then 3 else if m == 123 then 2 else 0
  | 1 => if 120 ≤ m && m ≤ 122 then 3 else if m == 123 then 2 else 0
  | 2 => r.1
  | 3 => r.2.1
  | 4 => r.2.2
  | _ => 0

/-- TMP_MON.CLASS: the higher of a monitor's classes in the present state, 0xF for an unassigned number (log 23). -/
def State.monClass (s : State) (m : Nat) : Nat :=
  if monPresent m then max (alarmClass s.lc m true s.pwr.inputOn) (alarmClass s.lc m false s.pwr.inputOn) else 0xF

/-! The island journal (R425) -/

/-- A record enters the journal; when it is full, one of class ZEROIZE or SPEND replaces the newest of a lower class. -/
def Isl.journalAdd (i : Isl) (r : JournalRec) : Isl :=
  if i.journal.length < 32 then { i with journal := i.journal ++ [r] }
  else
    let at_ := ((List.range 32).reverse).find? (fun k => ((i.journal.getD k JournalRec.reset).cls < r.cls))
    match if r.cls ≥ 3 then at_ else none with
    | some k => { i with journal := i.journal.eraseIdx k ++ [r] }
    | none => { i with journalOver := satAdd 16 i.journalOver 1 }

/-- A journal record as bytes (Table 17.7). -/
def JournalRec.bytes (r : JournalRec) : Bytes :=
  leBytes 4 r.seq.toNat ++ leBytes 4 r.tick.toNat ++ leBytes 1 r.monitor ++ leBytes 1 r.cls ++ leBytes 1 r.det
    ++ leBytes 1 r.flags ++ leBytes 1 r.lcstate ++ zeros 3 ++ leBytes 4 r.islandUp ++ zeros 12

/-- Journal an alarm of class ZEROIZE or SPEND, and any alarm on backup power. CLASS is the class that acts: its incident's, if that is
higher (R420, R425). -/
def State.journalAlarm (s : State) (m cls det : Nat) (seq : BitVec 32) : State :=
  let backup := !s.pwr.inputOn
  if cls ≥ 3 || backup then
    let r : JournalRec :=
      { seq := seq, tick := s.isl.tick, monitor := m, cls := if s.tmp.open_ then max s.tmp.cls cls else cls, det := det
        flags := bit backup + 2 * bit (backup && cls == 4) + 4 * bit (backup && cls ≥ 3 && s.lc == 4)
        lcstate := s.lc, islandUp := s.isl.powerUps }
    { s with isl := s.isl.journalAdd r }
  else s

/-! Responses (R417) -/

/-- PAUSE: key registers and operand memory cleared, running messages end, those for which an operation of the internal world runs among
them. One that runs for a chain or for SPDM is stopped, and its owner begins again after the pause (R198, R209). -/
def State.pauseActions (s : State) : State :=
  let s := s.abortAll (fun r => r.isRunning || s.runsInternal r)
  let s := s.sch.internal.foldl (fun t x => if s.onEngine x.id || x.ended then t.stopOwner x.owner else t) s
  { s with eng := s.eng.map Engine.clear }

/-- The recorder key is lost; records wait (R452, R453). -/
def State.recorderOff (s : State) : State :=
  if s.evr.state == 3 then s else { s with evr := { s.evr with state := 0 } }

/-- Messages that end with the flows, templates and commits: data messages and postings, and those whose commit is
accepted. -/
def MsgRec.onFlows (r : MsgRec) : Bool := r.op.isData || r.op == .ledgerPost || r.phase == .commit

/-- What SHED and a life-cycle transition destroy beside what a PAUSE does (Table 11.10). SHED (cause 3) loses the chains' heads; a
transition has journalled them (R348, R349). -/
def State.destroyKeys (s : State) (cause : Nat) : State :=
  let s := s.recorderOff
  let s := s.abortAll (fun r => r.onFlows && r.phase != .commit)
  let s := s.dropQdr
  let s := (if cause == 3 then s.loseHeads true else s).closeDebug cause
  let s := s.discardTandems (fun _ => true)
  let ide := s.lnk.ideIo || s.lnk.ideCache
  let s := s.stopOwner .spdm
  let s := { s with lnk := { s.lnk with spdm := Spdm.reset, ideKeyIo := [], ideKeyCache := [] }
                    vlt := { s.vlt with scrubbing := true } }
  let s := s.wipeGens
  if ide then (s.lossRecord 3).linkDown else s

/-- SHED. -/
def State.shedActions (s : State) : State := s.destroyKeys 3

/-- The transport record is overwritten with zeros in DIAPAUSE (R400). -/
def State.dropTransport (s : State) : State :=
  if s.prf.transport.isSome then
    let s := (s.prfWrite prfTransport).2
    { s with prf := { s.prf with transport := none } }
  else s

/-- TMP_RECOM. -/
def Tmp.recom (t : Tmp) : Nat := t.recomCause * 256 + t.recomState

def State.recomRecord (s : State) : State := s.record 0x0404 0 1 (pay s.tmp.recom 0 0)

/-- A ZEROIZE stops a re-commissioning that runs, with the cause of an open incident (DESIGN CHOICE, log 74: R427 does not
say). -/
def State.recomStops (s : State) : State :=
  if s.tmp.recomState == 1 then { s with tmp := { s.tmp with recomState := 3, recomCause := 3 } }.recomRecord else s

/-- ZEROIZE. -/
def State.zeroizeActions (s : State) : State :=
  let s := s.recomStops.destroyVault
  if s.lc == 4 then s.dropTransport else s

/-- LC19 written and the root burned (R277, R389); recording stops for good (R453, R454). -/
def State.spendRows (s : State) : State :=
  { s with
    otp := { s.otp with lcRows := s.otp.lcRows.set 19 (lcCode 5), root := BitVec.allOnes 512 }
    ident := { s.ident with present := false }
    lcs := { s.lcs with rootGenDue := false }
    evr := { s.evr with state := 3, stopCause := 1, hold := [], openBatch := [], copied := [], freezeEnd := none, lostNow := [] } }

/-- SPEND: the sets of SPENT are activated when LC19 reads back (R418, R442). A lost unit programs no OTP bit again, but no
alarm there is of this class. -/
def State.spendActions (s : State) : State :=
  let s := s.spendRows.programUnits
  { s with tmp := { s.tmp with state := 4 } }

/-- ZEROIZE as a response: its recovery leaves the vault unmounted (R423). -/
def State.zeroizeResponse (s : State) : State := { s with tmp := { s.tmp with zeroized := true } }.zeroizeActions

/-- The actions of the classes after one up to another, in order. PAUSE and SHED are folded into a transition that runs, unless SPEND
ends it (Table 16.7). -/
def State.respond (s : State) (from_ till : Nat) : State :=
  if s.lcs.busy && till < 4 then (if from_ < 3 && till ≥ 3 then s.zeroizeResponse else s) else
  let s := if from_ < 1 && till ≥ 1 then { s with tmp := { s.tmp with state := 1 } }.pauseActions else s
  let s := if from_ < 2 && till ≥ 2 then { s with tmp := { s.tmp with state := 2, owed := true } }.shedActions else s
  let s := if from_ < 3 && till ≥ 3 then s.zeroizeResponse else s
  if from_ < 4 && till ≥ 4 then s.spendActions else s

/-- What the island alone does on backup power (Table 17.6). -/
def State.respondBackup (s : State) (cls : Nat) : State :=
  if cls ≥ 3 then
    { s with isl := { s.isl.clearBbram with
        spendOwed := s.isl.spendOwed || cls == 4, transportOwed := s.isl.transportOwed || s.lc == 4 } }
  else s

/-! Alarms (R410, R414, R417, R419, R420) -/

/-- The monitor samples: on main power all of them, on backup power those of the island, which is off in PUPA. The clock
of a cluster that is gated, fenced, parked, freewheeling or disabled is not checked (R409). -/
def State.samples (s : State) (m : Nat) : Bool :=
  monPresent m
    && (if s.pwr.inputOn then
          (m < 89 || m > 104
            || !(s.cluFenced (m - 89) || !s.cluEnabled (m - 89) || s.pwr.gated.getLsbD (m - 89)
                  || (s.getClu (m - 89)).state == .freewheel))
        else monIsland m && s.lc != 2 && (s.isl.cell || m == 114))

/-- Mesh layers that alarmed within the last 10 ms by the island's tick, this alarm's among them: 10 ms are 327 or 328 edges (R414). -/
def Tmp.meshSeen (t : Tmp) (layer : Nat) (now : BitVec 32) : List (Nat × Nat) :=
  (t.meshTimes.filter (fun p => p.1 != layer && (now - BitVec.ofNat 32 p.2).toNat ≤ 328)) ++ [(layer, now.toNat)]

/-- Time goes on to an alarm, on main power and on backup power. -/
def State.pass (s : State) (ms : Nat) : State :=
  if s.pwr.booted then s.advance (s.opTime + ms)
  else { s with isl := { s.isl with tick := s.isl.tick + BitVec.ofNat 32 (edges ms) } }

/-- The class of an alarm with the three-layer rule of R414. -/
def State.classOf (s : State) (a : Alarm) (layers : Nat) : Nat :=
  let c := alarmClass s.lc a.monitor.val a.high s.pwr.inputOn
  if layers ≥ 3 && 2 ≤ s.lc && s.lc ≤ 4 then 4 else c

/-- How an alarm meets the open incident: 0 with none open or opening one, 1 folded, 2 preempting. -/
def State.meets (s : State) (cls : Nat) : Nat := if !s.tmp.open_ then 0 else if cls > s.tmp.cls then 2 else 1

/-- Take the next alarm number and record an alarm of a class (R419, R420); with it what the machine of a code stands for (R415). The
record holds the class, the detectors and the code, the incident, and how the alarm met it, the machine and the alarm's own number
(places: DESIGN CHOICE, log 98). An alarm that is not folded starts a response, with vector 2 (R418). -/
def State.noteAlarm (s : State) (m cls det how : Nat) (machine : Nat := 0) (code : Nat := 0) : State :=
  let seq := s.isl.alarmSeq
  let inc := if how != 0 then s.tmp.incident.toNat else if cls ≥ 1 then seq.toNat else 0
  let s := { s with
    isl := { s.isl with alarmSeq := seq + 1 }
    tmp := { s.tmp with alarms := satAdd 16 s.tmp.alarms 1, seen := s.tmp.seen ||| ((1 : BitVec 5) <<< cls)
                        folded := if how == 1 then satAdd 16 s.tmp.folded 1 else s.tmp.folded } }
  let s := if s.pwr.inputOn then s.record 0x0401 (src 5 m) (if cls == 0 then 1 else 4) (pay (cls + 256 * det + 65536 * code) inc (how + 256 * machine + 2 ^ 32 * seq.toNat)) else s
  let s := s.journalAlarm m cls det seq
  if s.pwr.inputOn && how != 1 then s.raise 0 2 else s

/-- An alarm of the cell-presence monitor: the cell is gone, and with main power off what BBRAM held. -/
def State.cellGone (s : State) (m : Nat) : State :=
  if m != 114 then s
  else if s.pwr.inputOn then { s with isl := { s.isl with cell := false } }
  else { s with isl := { s.isl.clearBbram with cell := false } }

/-- What an alarm does beside the cell it may report gone. -/
def State.alarmActs (s : State) (a : Alarm) : State :=
  let m := a.monitor.val
  let times := if m ≤ 63 then s.tmp.meshSeen (m / 16) s.isl.tick else s.tmp.meshTimes
  let cls := s.classOf a (if m ≤ 63 then times.length else 0)
  let how := s.meets cls
  let old := if s.tmp.open_ then s.tmp.cls else 0
  let seq := s.isl.alarmSeq
  let s := s.modMon m (fun r => { r with
    atlas := r.atlas || a.atlas, luna := r.luna || a.luna, alarm := true
    cntAtlas := satAdd 16 r.cntAtlas (bit a.atlas), cntLuna := satAdd 16 r.cntLuna (bit a.luna) })
  let s := { s with tmp := { s.tmp with meshTimes := times } }
  let s := s.noteAlarm m cls (bit a.atlas + 2 * bit a.luna) how a.machine.val a.code.toNat
  if cls == 0 then s
  else
    let t := s.tmp
    let s := { s with tmp := { t with
      open_ := true, cls := max old cls, incident := if how == 0 then seq else t.incident
      folded := if how == 0 then 0 else t.folded, clearFrom := s.opTime
      incMons := (if how == 0 then [] else t.incMons.filter (· != m)) ++ [m] } }
    if how == 1 then s
    else if s.pwr.inputOn then s.respond old cls
    else s.respondBackup cls

/-- Every detector reads normal again. -/
def MonRec.normal (r : MonRec) : MonRec := { r with atlas := false, luna := false, alarm := false }

/-- A die temperature at which an alarm reads normal again (R422). -/
def tempNormal (t : BitVec 8) : Bool := -15 < t.toInt && t.toInt < 100

/-- The monitor cannot read normal yet, by what the state holds: no cell, or a die still too cold or too hot (R422). -/
def State.stillAlarms (s : State) (m : Nat) : Bool :=
  if m == 114 then !s.isl.cell
  else if m == 68 then !tempNormal s.isl.temp
  else if m == 69 then !tempNormal s.tmp.tempControl
  else if m == 70 then !tempNormal s.tmp.tempFabric
  else false

/-- A monitor reads normal on both detectors: for one of the open incident the clear time runs from here at the earliest. -/
def State.readsNormal (s : State) (m : Nat) : State :=
  if s.stillAlarms m then s
  else
    let s := s.modMon m MonRec.normal
    if s.tmp.open_ && s.tmp.incMons.contains m then { s with tmp := { s.tmp with clearFrom := s.opTime } } else s

/-- TAMPER_ALARM: an alarm, or with no detector raising one, a monitor that reads normal. -/
def State.tamperAlarm (s : State) (a : Alarm) : State :=
  if !s.samples a.monitor.val then s
  else
    let s := s.pass a.after
    if a.atlas || a.luna then (s.alarmActs a).cellGone a.monitor.val else s.readsNormal a.monitor.val

/-- MONITOR_DISAGREEMENT (R412): an alarm of class LOG, counted for the monitor. -/
def State.monitorDisagreement (s : State) (m : Nat) (atlas : Bool) : State :=
  if !s.samples m then s
  else
    let s := s.modMon m (fun r => { r with disagree := satAdd 8 r.disagree 1 })
    let s := { s with tmp := { s.tmp with disagree := satAdd 16 s.tmp.disagree 1 } }
    s.noteAlarm m 0 (if atlas then 1 else 2) (if s.tmp.open_ then 1 else 0)

/-! Triplicated fields (R9, R437) -/

/-- A disagreeing copy is recorded as an alarm of class LOG of its monitor is, but is no alarm and takes no number (DESIGN
CHOICE, log 55: R9 has it recorded and names no record type). -/
def State.strayRecord (s : State) (source : Nat) : State := s.record 0x0401 source 1 (pay 0 0 0)

/-- The number of copies of a unit's active set that disagree with their fellows. -/
def AcuUnit.strays (a : AcuUnit) : Nat := (a.active.toList.filter Triple.stray).length

/-- A disagreeing copy is to be rewritten, in a floor or in an active descriptor. -/
def State.strayDue (s : State) : Bool :=
  s.prf.imageFloor.stray || s.prf.fwFloor.stray || s.acu.toList.any (fun a => a.strays != 0)

/-- Every disagreeing copy rewritten, each with its record. -/
def State.mendStrays (s : State) : State :=
  let n := bit s.prf.imageFloor.stray + bit s.prf.fwFloor.stray + (s.acu.toList.map AcuUnit.strays).foldl (· + ·) 0
  let s := { s with
    prf := { s.prf with imageFloor := if s.prf.imageFloor.stray then s.prf.imageFloor.mend else s.prf.imageFloor
                        fwFloor := if s.prf.fwFloor.stray then s.prf.fwFloor.mend else s.prf.fwFloor }
    acu := s.acu.map (fun a => { a with active := a.active.map (fun t => if t.stray then t.mend else t) }) }
  (List.range n).foldl (fun t _ => t.strayRecord (src 5 123)) s

/-- Some field has three different copies. -/
def State.splitField (s : State) : Bool :=
  s.prf.imageFloor.split || s.prf.fwFloor.split || s.acu.toList.any AcuUnit.split

/-- Monitor 123 is to alarm, or a unit with such a descriptor is to be closed. -/
def State.splitDue (s : State) : Bool :=
  (s.splitField && !(s.tmp.getMon 123).alarm) || s.acu.toList.any (fun a => a.split && !a.closed)

/-- All three copies differ: the units concerned are closed until activated again, and monitor 123 alarms. -/
def State.splitAlarm (s : State) : State :=
  let t := { s with acu := s.acu.map (fun a => if a.split then { a with closed := true } else a) }
  if (s.tmp.getMon 123).alarm then t
  else t.tamperAlarm { monitor := 123, atlas := true, luna := true, high := false }

/-- The vote on the triplicated fields. -/
def State.voteFields (s : State) : State :=
  let t := if s.strayDue then s.mendStrays else s
  if t.splitDue then t.splitAlarm else t

/-! The end of an incident (R422, R423) -/

/-- TAMPER_PAUSED ends. -/
def State.endResponse (s : State) : State :=
  let s := s.record 0x0402 0 1 (pay s.tmp.cls s.tmp.incident.toNat 0)
  { s with tmp := { s.tmp with state := 0 } }

/-- The clear time of an incident, in ms. -/
def clearTime (cls : Nat) : Nat := if cls ≤ 1 then 10 else 100

/-- INCIDENT_END: the clear time has passed with every monitor of the incident normal. No effect while one of them cannot be. A PAUSE
during a recovery leaves the recovery to be finished. A ZEROIZE that a transition took in owes no recovery, and leaves the vault to be
re-commissioned if the transition made none. An incident of class SPEND never ends. -/
def State.incidentEnd (s : State) : State :=
  if !s.tmp.open_ || s.tmp.cls ≥ 4 || !s.pwr.inputOn || s.tmp.incMons.any s.stillAlarms then s
  else
    let s := if s.pwr.booted then s.advance (s.tmp.clearFrom + clearTime s.tmp.cls) else s
    let s := s.tmp.incMons.foldl (fun t m => t.modMon m MonRec.normal) s
    let s := { s with tmp := { s.tmp with open_ := false, incMons := [] } }.raise 0 2
    if s.tmp.owed then { s with tmp := { s.tmp with state := 3 } }
    else { s with tmp := { s.tmp with
      recomNeeded := s.tmp.recomNeeded || (s.tmp.zeroized && s.lc == 3 && !s.bbramValid), zeroized := false } }.endResponse

/-- The recorder key is there again: recording resumes unless a freeze is in force (R451). -/
def State.recorderOn (s : State) : State :=
  if !s.ident.present || s.evr.state != 0 then s
  else if s.evr.freezeEnd.isSome then { s with evr := { s.evr with state := 2 } }
  else s.resumeRecording

/-- The identity is derived, and with it the recorder key (R278). -/
def State.deriveIdentity (s : State) : State :=
  if !s.rootValid then s else { s with ident := { s.ident with present := true } }.recorderOn

/-- Step 4 of Table 17.5: after a ZEROIZE the vault stays unmounted with cause 3 and awaits re-commissioning, else its mount begins. -/
def State.recoverVault (s : State) : State :=
  if s.tmp.zeroized then
    let s := s.mountFails 3
    { s with tmp := { s.tmp with recomNeeded := true, zeroized := false, owed := false } }
  else { s with tmp := { s.tmp with owed := false }, vlt := { s.vlt with mountDue := true } }

/-- Recovery (Table 17.5), as far as the scrub and the generators have come. -/
def State.recover (s : State) : State :=
  if s.tmp.state != 3 || s.vlt.scrubbing then s
  else
    let s := if s.rootValid && !s.ident.present then s.deriveIdentity else s
    if s.vlt.memKey.isSome && s.rng.gens.toList.all Gen.seeded then s.recoverVault.endResponse else s

/-- The generators may be seeded: not while a response of class SHED or higher holds, nor before its scrub is complete. -/
def State.mayseed (s : State) : Bool := !(s.tmp.state == 2 || (s.tmp.state == 3 && s.vlt.scrubbing))

/-! Re-commissioning (R427) -/

/-- The cause that refuses a request; 0 none. -/
def State.recomCheck (s : State) : Nat :=
  if s.lc != 3 then 1
  else if s.bbramValid then 2
  else if s.tmp.open_ then 3
  else if !s.isl.cell then 4
  else if s.rng.phase != 3 || (s.rng.getGen 257).marked then 5
  else if s.vlt.state != 0 then 6
  else 0

/-- The keys of the new vault can be drawn. -/
def State.recomReady (s : State) : Bool :=
  s.tmp.recomState == 1 && !s.bbramValid && s.genSeeded 257 && s.genSeeded 258

/-- The new envelope key, the format and the mount, once generators 257 and 258 are seeded. -/
def State.recomFormat (s : State) : State :=
  if s.recomReady then
    let k := s.drawBytes 257 32
    let p := k.2.drawBytes 258 32
    (p.2.formatVault k.1 p.1).startMount
  else s

/-- A write of TMP_CTL. While one re-commissioning runs, a request that a condition refuses leaves its cause, and STATE tells of the
one that runs; a request that none refuses changes nothing (DESIGN CHOICE, log 74). -/
def State.recommission (s : State) (v : BitVec 32) : State :=
  if v.toNat / 65536 != 0x5A3C || !v.getLsbD 1 then s
  else
    let c := s.recomCheck
    if s.tmp.recomState == 1 then (if c == 0 then s else { s with tmp := { s.tmp with recomCause := c } }.recomRecord)
    else if c != 0 then { s with tmp := { s.tmp with recomCause := c, recomState := 3 } }.recomRecord
    else { s with tmp := { s.tmp with recomCause := 0, recomState := 1 } }.recomRecord.recomFormat

/-- The mount of a re-commissioned vault is done. -/
def State.recomSettle (s : State) : State :=
  if s.tmp.recomState == 1 && s.bbramValid && s.vlt.state != 1 then
    if s.mounted then { s with tmp := { s.tmp with recomState := 2, recomNeeded := false } }.recomRecord
    else { s with tmp := { s.tmp with recomState := 3 } }.recomRecord
  else s

/-! Copying the journal into the recorder (R426) -/

/-- The records of the journal, in order of number, become records of type 0x0403. They leave the journal when the recorder holds them (clearCopied). -/
def State.copyJournal (s : State) : State :=
  if s.evr.state != 1 || s.lc ≥ 5 then s
  else
    let l := sortKey (fun r => r.seq.toNat) s.isl.journal
    let s := l.foldl (fun t r =>
      t.recordWith 0x0403 (src 5 r.monitor) (if r.cls == 0 then 1 else 4) (pay 0 0 0 ++ r.bytes) 1) s
    { s with evr := { s.evr with copied := l.map JournalRec.seq } }

end Sys2Proof.Machine
end

