-- ==== Sys2Proof/Machine/Image.lean ====
section
/-! DEFINITION. The configuration image (R371 to R382): its layout, the checks of a bank, its fields with the reports
they give, and the messages that write and accept a bank. -/

namespace Sys2Proof.Machine

/-! Layout (R372, R375) -/

/-- One field of an image. -/
structure Field where
  id    : Nat
  type  : Nat
  flags : Nat
  value : Bytes
deriving DecidableEq, Repr

/-- Fields one after another, and whether the structure is well formed to its end; fuel bounds their number. -/
def parseFieldsF : Nat → Bytes → List Field × Bool
  | 0, b => ([], b.isEmpty)
  | f + 1, b =>
    if b.isEmpty then ([], true)
    else
      let n := leAt b 4 4
      let whole := 8 + 8 * ceilDiv n 8
      if b.length < whole || !allZero (slice b (8 + n) (whole - 8 - n)) then ([], false)
      else
        let r := parseFieldsF f (b.drop whole)
        ({ id := leAt b 0 2, type := byteAt b 2, flags := byteAt b 3, value := slice b 8 n } :: r.1, r.2)

/-- Bytes of the countersignature by CSIG. -/
def csigLen (k : Nat) : Nat := match k with | 1 => 4627 | 2 => 96 | 3 => 4723 | _ => 0

/-- An image as read from a bank; bytes a bank was not programmed with read as erased (log 18). -/
structure Image where
  header  : Bytes
  length  : Nat
  version : Nat
  count   : Nat
  package : Bytes
  csig    : Nat
  sig     : Bytes
  /-- Everything before the countersignature. -/
  signed  : Bytes
  whole   : Bytes
  fields  : List Field
  shaped  : Bool
deriving DecidableEq, Repr

/-- MAGIC, FORMAT, LENGTH, CSIG and FW_LEN in range. -/
def imageShape (b : Bytes) : Bool :=
  let n := leAt b 4 4
  b.take 4 == [0x56, 0x57, 0x49, 0x31] && leAt b 16 2 == 1 && 96 ≤ n && n ≤ 16777216 && byteAt b 72 ≤ 3
    && 96 + leAt b 20 4 + csigLen (byteAt b 72) ≤ n

def parseImage (bank : Bytes) : Image :=
  let n := leAt bank 4 4
  let b := bank.take n ++ List.replicate (n - bank.length) 0xFF
  let k := byteAt b 72
  let body := n - csigLen k
  let fs := parseFieldsF (n / 8) (slice b (96 + leAt b 20 4) (body - 96 - leAt b 20 4))
  { header := b.take 96, length := n, version := leAt b 8 8, count := leAt b 18 2, package := slice b 96 (leAt b 20 4)
    csig := k, sig := b.drop body, signed := b.take body, whole := b, fields := fs.1, shaped := fs.2 }

/-- FW_RELEASE and FW_MIN: the first bytes of the package (log 18). -/
def Image.fwRelease (i : Image) : Nat := leAt i.package 0 2
def Image.fwMin (i : Image) : Nat := leAt i.package 2 2

/-! Bank checks (R373) -/

/-- The IDs of Table 15.5. -/
def fieldIds : List Nat :=
  [0x0001, 0x0010, 0x0011, 0x0012, 0x0013, 0x0014, 0x0015, 0x0016, 0x0020, 0x0021, 0x0030, 0x0040, 0x0060, 0x0061, 0x0100]

/-- Key bytes of an AUTHKIND. -/
def authLen (k : Nat) : Nat := match k with | 1 => 2592 | 2 => 97 | 3 => 2689 | _ => 0

/-- A D0_AUTH value is well formed. -/
def authOk (v : Bytes) : Bool :=
  1 ≤ byteAt v 0 && byteAt v 0 ≤ 3 && (firstNonZero v 1 7).isNone && v.length == 8 + authLen (byteAt v 0)

/-- The first D0_AUTH field of an image, if it can carry a key. -/
def Image.auth (i : Image) : Option Bytes :=
  (((i.fields.find? (fun f => f.id == 0x0061)).map (·.value)).filter authOk)

/-- The countersignature verifies under the key of D0_AUTH. -/
def authVerify (kind : Nat) (key m sig : Bytes) : Bool :=
  match kind with
  | 1 => dsaVerify mldsa87 key (dsaMu (dsaTr key) [] m) sig
  | 2 => p384.verify key sig (sha384 m) == some true
  | _ => idVerify (key.take 2592) (key.drop 2592) m sig

/-- Cause 6. -/
def State.csigBad (s : State) (i : Image) : Bool :=
  let enrolled := s.prf.auth0Kind != 0
  if i.csig == 0 then enrolled
  else match i.auth with
    | none => true
    | some v =>
      let key := v.drop 8
      byteAt v 0 != i.csig || !authVerify i.csig key i.signed i.sig
        || (enrolled && (byteAt v 0 != s.prf.auth0Kind || sha384 key != s.prf.auth0Digest))

/-- Kosuotte's signature: the last 4,723 bytes of the package, over the rest (log 18). -/
def Image.packageOk (i : Image) : Bool :=
  i.package.length ≥ 4727
    && idVerify Config.imageKeyMldsa Config.imageKeyEc (i.package.take (i.package.length - 4723))
      (i.package.drop (i.package.length - 4723))

/-- Table 15.4: the cause of a bank, and the image when it has a shape. -/
def State.bankCause (s : State) (bank : Bytes) : Nat :=
  if bank.all (· == 0xFF) then 1
  else if !imageShape bank then 2
  else
    let i := parseImage bank
    if sha384 (i.signed.drop 96) != slice i.header 24 48 then 3
    else if !i.packageOk then 4
    else if i.fwRelease < s.prf.fwFloor.value.toNat then 5
    else if s.csigBad i then 6
    else if i.version < s.prf.imageFloor.value.toNat then 7
    else if !i.shaped || i.fields.length != i.count
        || i.fields.any (fun f => f.flags % 2 == 1 && !fieldIds.contains f.id) then 8
    else 0

def State.bank (s : State) (k : Nat) : Bank := if k == 0 then s.nor.bankA else s.nor.bankB
def State.setBank (s : State) (k : Nat) (b : Bank) : State :=
  if k == 0 then { s with nor := { s.nor with bankA := b } } else { s with nor := { s.nor with bankB := b } }

/-! Fields (R375 to R378) -/

/-- One report entry: CFG_REP while it has room, and a record. -/
def State.report (s : State) (field reason supplied applied index : Nat) : State :=
  let r : CfgReport := { field := field, reason := reason, supplied := supplied, applied := applied, index := index }
  let c := s.cfg
  let s := { s with cfg := if c.reports.length < 512 then { c with reports := c.reports ++ [r] }
                           else { c with lost := satAdd 16 c.lost 1 } }
  s.record 0x0301 0 1 (pay (field + 65536 * reason) index supplied ++ leBytes 8 applied)

def State.applied (s : State) : State := { s with cfg := { s.cfg with applied := s.cfg.applied + 1 } }
def State.ignored (s : State) : State := { s with cfg := { s.cfg with ignored := s.cfg.ignored + 1 } }

/-- A value clamped to a range (reasons 1 and 2). -/
def State.clamp (s : State) (id index v lo hi : Nat) : Nat × State :=
  if v < lo then (lo, s.report id 1 v lo index)
  else if v > hi then (hi, s.report id 2 v hi index)
  else (v, s)

/-- The elements of an array clamped one by one, each cut to what a sum limit leaves (reason 3). -/
def State.clampArray (s : State) (id : Nat) (range : Nat → Nat × Nat) (limit : Option Nat) (l : List Nat) :
    List Nat × State :=
  let r := l.zipIdx.foldl (fun (a : List Nat × Nat × State) x =>
    let c := a.2.2.clamp id x.2 x.1 (range x.2).1 (range x.2).2
    let left := (limit.map (· - a.2.1)).getD c.1
    if c.1 > left then (a.1 ++ [left], a.2.1 + left, c.2.report id 3 x.1 left x.2)
    else (a.1 ++ [c.1], a.2.1 + c.1, c.2)) ([], 0, s)
  (r.1, r.2.2)

/-- Type, width and element range of a UINT or ARRAY field, with the limit of its sum. -/
def fieldForm (id : Nat) : Option (Nat × Nat × (Nat → Nat × Nat) × Option Nat) :=
  match id with
  | 0x0001 => some (1, 2, fun _ => (1, 0xFFFF), none)
  | 0x0010 => some (2, 1, fun _ => (1, 255), none)
  | 0x0011 => some (2, 1, fun _ => (0, 96), some 96)
  | 0x0012 => some (2, 1, fun _ => (0, 64), some 64)
  | 0x0013 => some (2, 1, fun _ => (0, 30), some 30)
  | 0x0014 => some (2, 2, fun _ => (0, 65535), none)
  | 0x0015 => some (2, 4, fun _ => (1, 262144), none)
  | 0x0016 => some (2, 2, fun _ => (1, 1000), none)
  | 0x0020 => some (1, 1, fun _ => (0, 255), none)
  | 0x0021 => some (1, 1, fun _ => (0, 1), none)
  | 0x0030 => some (1, 1, fun _ => (0, 1), none)
  | 0x0040 => some (2, 1, fun m => if monFixed m then (monFilter m, monFilter m) else (1, 255), none)
  | _ => none

/-- The default of a UINT field, or of each element of an array. -/
def fieldDefault (id : Nat) : Nat :=
  match id with
  | 0x0001 => 0xFFFF
  | 0x0010 => 16
  | 0x0014 => 256
  | 0x0015 => 4096
  | 0x0016 => 50
  | 0x0020 => 20
  | _ => 0

/-- Put an array of 256 values into the instances. -/
def State.perInst (s : State) (l : List Nat) (f : InstRec → Nat → InstRec) : State :=
  { s with inst := s.inst.mapFinIdx (fun n i _ => f i (l.getD n 0)) }

/-- Put the values of a field into effect. -/
def State.putField (s : State) (id : Nat) (l : List Nat) : State :=
  let v := l.getD 0 0
  match id with
  | 0x0001 => { s with glb := { s.glb with enabled := BitVec.ofNat 16 v } }
  | 0x0010 => s.perInst l (fun i v => { i with weight := v })
  | 0x0011 => s.perInst l (fun i v => { i with guarCipher := v })
  | 0x0012 => s.perInst l (fun i v => { i with guarDigest := v })
  | 0x0013 => s.perInst l (fun i v => { i with guarPk := v })
  | 0x0014 => s.perInst l (fun i v => { i with flowLimit := v })
  | 0x0015 => s.perInst l (fun i v => { i with outLimit := v })
  | 0x0016 => s.perInst l (fun i v => { i with rngWait := v })
  | 0x0020 => { s with sch := { s.sch with fwIdle := BitVec.ofNat 8 v } }
  | 0x0021 => { s with sch := { s.sch with pack := v == 1 } }
  | 0x0030 => { s with cfg := { s.cfg with requireIde := v == 1 } }
  | 0x0040 => { s with cfg := { s.cfg with tamperFilter := l } }
  | _ => s

/-- A UINT or ARRAY field. -/
def State.applyValue (s : State) (f : Field) : State :=
  match fieldForm f.id with
  | none => s
  | some (ty, w, range, limit) =>
    let n := if ty == 1 then 1 else 256
    if f.type != ty || f.value.length != w * n || f.flags > 1 then
      (s.report f.id 6 f.value.length (fieldDefault f.id) 0).ignored
    else
      let l := (List.range n).map (fun i => leAt f.value (w * i) w)
      let r := s.clampArray f.id range limit l
      (r.2.putField f.id r.1).applied

/-- D0_ROSTER (R376). -/
def State.applyRoster (s : State) (f : Field) : State :=
  if f.type != 3 || f.value.length != 1024 || f.flags > 1 then (s.report f.id 6 f.value.length 0 0).ignored
  else if !(activeRoster s.prf.roster0).isEmpty then (s.report f.id 7 f.value.length 0 0).ignored
  else if (checkRoster 0 f.value).isSome then (s.report f.id 8 f.value.length 0 0).ignored
  else
    let w := s.prfWrite (prfRoster ++ prfEnrol)
    (if w.1 then { w.2 with prf := { w.2.prf with roster0 := parseRoster f.value } } else w.2).applied

/-- D0_AUTH (R376): enrols the authority, or only carries the key of the countersignature. -/
def State.applyAuth (s : State) (f : Field) : State :=
  if f.type != 3 || ! [105, 2600, 2697].contains f.value.length || f.flags > 1 then
    (s.report f.id 6 f.value.length 0 0).ignored
  else if !authOk f.value then (s.report f.id 8 f.value.length 0 0).ignored
  else if s.prf.auth0Kind != 0 then s.applied
  else
    let w := s.prfWrite (prfAuth ++ prfEnrol)
    let key := f.value.drop 8
    (if w.1 then { w.2 with prf := { w.2.prf with auth0Kind := byteAt f.value 0, auth0Digest := sha384 key }
                            nor := { w.2.nor with authKey := [key, key] } }
     else w.2).applied

/-- A PROGRAM field with the TYPE and FLAGS of its ID. -/
def Field.isProgram (f : Field) : Bool := f.id == 0x0100 && f.type == 3 && f.flags ≤ 1

/-- Program fields, each with its place in the image, in order of slot (R164). -/
def insertProgram (f : Field × Nat) : List (Field × Nat) → List (Field × Nat)
  | [] => [f]
  | x :: r => if byteAt f.1.value 4 < byteAt x.1.value 4 then f :: x :: r else x :: insertProgram f r

/-- What the verifier answers for a PROGRAM field: the rule broken with the failing word, or the program. -/
abbrev Verdict := (Nat × Nat) ⊕ Program

/-- The programs of an image, verified and loaded in order of slot, with the verdict on the field of each place (R164). A slot counts
as taken by programs that were loaded; one named by an earlier field that was itself refused is free (DESIGN CHOICE, log 68: V01 says
"taken by an earlier field" and no more). -/
def loadPrograms (l : List Field) : List Program × List (Nat × Verdict) :=
  let fields := (l.zipIdx.filter (fun x => x.1.isProgram)).foldl (fun a x => insertProgram x a) []
  fields.foldl (fun a x =>
    match verifyProgram x.1.value a.1 (a.1.map (·.slot)) with
    | .inl e => (a.1, a.2 ++ [(x.2, .inl e)])
    | .inr p => (a.1 ++ [p], a.2 ++ [(x.2, .inr p)])) ([], [])

/-- PROGRAM: what the verifier answered is reported in the place of the field in the image (R375, R377). -/
def State.applyProgram (s : State) (f : Field) (v : Option Verdict) : State :=
  match v with
  | none => (s.report f.id 6 f.value.length 0 0).ignored
  | some (.inl (rule, word)) =>
    let s := (s.report f.id (0x0100 + rule) (byteAt f.value 4) word 0).ignored
    s.record 0x0302 0 2 (pay (0x0100 + rule) word 0)
  | some (.inr _) => s.applied

/-- One field, with the verdict on it as a program and the IDs applied before it. -/
def State.applyField (s : State) (f : Field) (v : Option Verdict) (seen : List Nat) : State :=
  if !fieldIds.contains f.id then (s.report f.id 4 f.value.length 0 0).ignored
  else if f.id == 0x0100 then s.applyProgram f v
  else if seen.contains f.id then (s.report f.id 5 f.value.length 0 0).ignored
  else if f.id == 0x0060 then s.applyRoster f
  else if f.id == 0x0061 then s.applyAuth f
  else s.applyValue f

/-- Every field at its default (R375). -/
def State.defaults (s : State) : State :=
  let s := s.mapInst (fun i => { i with weight := 16, guarCipher := 0, guarDigest := 0, guarPk := 0, flowLimit := 256
                                        outLimit := 4096, rngWait := 50 })
  { s with
    glb := { s.glb with enabled := 0xFFFF }
    sch := { s.sch with fwIdle := 20, pack := false, programs := [] }
    cfg := { s.cfg with requireIde := false, tamperFilter := [] } }

/-- Step 7 on the fields of a valid image, in image order. -/
def State.applyFields (s : State) (l : List Field) : State :=
  let p := loadPrograms l
  let s := { s with sch := { s.sch with programs := p.1 } }
  (l.zipIdx.foldl (fun (a : State × List Nat) x => (a.1.applyField x.1 (p.2.lookup x.2) a.2, a.2 ++ [x.1.id])) (s, [])).1

/-- The PRF after an image is applied (R374): each word is written only when its value changes; a word that cannot be
written stays, and the failure is recorded. -/
def State.imageFloors (s : State) (bank : Nat) (i : Image) : State :=
  let w1 := if s.prf.active != bank || s.prf.pend.isSome then
      let w := s.prfWrite prfBank
      if w.1 then { w.2 with prf := { w.2.prf with active := bank, pend := none } } else w.2
    else s
  let w2 := if i.version > w1.prf.imageFloor.value.toNat then
      let w := w1.prfWrite prfFloor
      if w.1 then { w.2 with prf := { w.2.prf with imageFloor := Triple.all (BitVec.ofNat 64 i.version) } } else w.2
    else w1
  if i.fwMin > w2.prf.fwFloor.value.toNat then
    let w := w2.prfWrite prfFwFloor
    if w.1 then { w.2 with prf := { w.2.prf with fwFloor := Triple.all (BitVec.ofNat 16 i.fwMin) } } else w.2
  else w2

/-- A valid image applied (steps 7 of Table 15.1). -/
def State.applyImage (s : State) (bank : Nat) (i : Image) : State :=
  let s := { s with cfg := { s.cfg with
    source := bank + 1, state := 1, version := BitVec.ofNat 64 i.version, fwRelease := BitVec.ofNat 16 i.fwRelease
    fwMin := BitVec.ofNat 16 i.fwMin, digest := sha384 i.whole } }
  let s := { s with glb := { s.glb with imageApplied := true } }
  (s.applyFields i.fields).imageFloors bank i

def State.setCause (s : State) (bank cause : Nat) : State :=
  if bank == 0 then { s with cfg := { s.cfg with causeA := cause } } else { s with cfg := { s.cfg with causeB := cause } }

/-- Steps 5 to 7: the pending or active bank, then the other; kickstand when neither is valid (R374, R379). -/
def State.readImage (s : State) : State :=
  let s := { s.defaults with cfg := Cfg.reset, glb := { s.defaults.glb with imageApplied := false } }
  let first := s.prf.pend.getD s.prf.active
  let c1 := s.bankCause (s.bank first).bytes
  let s := s.setCause first c1
  if c1 == 0 then s.applyImage first (parseImage (s.bank first).bytes)
  else
    let other := 1 - first
    let c2 := s.bankCause (s.bank other).bytes
    let s := s.setCause other c2
    if c2 == 0 then s.applyImage other (parseImage (s.bank other).bytes)
    else { s with cfg := { s.cfg with state := 2 } }

/-! IMAGE_WRITE and IMAGE_ACCEPT (R380 to R382) -/

/-- The bank applied at this start. -/
def State.appliedBank (s : State) (k : Nat) : Bool := s.cfg.source == k + 1

def imageWrite7 (m : Msg) : Option Final :=
  noKeys m
  <|> failIf (m.field 40 1 > 1) Status.paramRange 40
  <|> failIf (m.field 41 1 > 1) Status.reservedNonzero 41
  <|> m.mustZero 42 2
  <|> m.mustZero 48 16

/-- The checks that depend on the bank, made when the message's turn comes (log 24), and the LENGTH_INVALID that follows them. -/
def imageWrite8 (s : State) (r : MsgRec) : Checked :=
  let k := r.m.field 40 1
  let b := s.bank k
  let erase := r.m.field 41 1 == 1
  let off := r.m.field 44 4
  checked s (failIf (s.appliedBank k) Status.paramRange 40
    <|> failIf (b.dirty && !erase) Status.paramRange 41
    <|> failIf ((if erase then off != 0 else off != 256 * b.next) || off + r.m.inLen > 16777216) Status.paramRange 44
    <|> failIf (r.m.inlineIn || r.m.inLen < 256 || r.m.inLen > 1048576 || r.m.inLen % 256 != 0) Status.lengthInvalid 0)

/-- A bank with a chunk that reads back as written: it lies at NEXT, which advances. -/
def Bank.take (b : Bank) (chunk : Bytes) : Bank :=
  { b with bytes := b.bytes ++ chunk, next := b.next + chunk.length / 256, dirty := false }

/-- The first place where what was read back differs from what was written. -/
def firstDiff : Bytes → Bytes → Nat → Option Nat
  | [], _, _ => none
  | _ :: _, [], i => some i
  | a :: l, b :: m, i => if a == b then firstDiff l m (i + 1) else some i

/-- A chunk is programmed and read back (R380, R381): a difference marks the bank dirty and is answered with its offset in the bank
(DEDUCED, log 24), NEXT staying; while the chunk is still being programmed the bank is dirty and the message is under way. -/
def State.writeChunk (s : State) (r : MsgRec) (k : Nat) (b : Bank) : Acted :=
  let s := { s with cfg := { s.cfg with writeBank := k } }
  let good : Acted := .ends (Final.good []) (s.setBank k (b.take r.m.input))
  match r.m.nor with
  | .kept => good
  | .reads found => match firstDiff r.m.input found 0 with
    | none => good
    | some i => .ends (Final.refuse Status.verifyFailed (r.m.field 44 4 + i))
        (s.setBank k { b with bytes := b.bytes ++ fit r.m.input.length found, dirty := true })
  | .lasts => .engine ((s.setBank k { b with dirty := true }).modMsg r.id (fun x => { x with phase := .flash s.opTime }))

/-- A programming that was under way is done: at the first command after which operating time has gone on (DESIGN CHOICE, log 24). -/
def State.flashDone (s : State) (r : MsgRec) : Bool :=
  match r.phase with
  | .flash since => since < s.opTime
  | _ => false

/-- The chunk of a programming that was under way stands in its bank. -/
def State.flashed (s : State) (r : MsgRec) : State :=
  let k := r.m.field 40 1
  s.setBank k ((s.bank k).take r.m.input)

/-- The erase clears the bank's pending mark; the chunk then lies at NEXT. -/
def imageWriteAct (s : State) (r : MsgRec) : Acted :=
  let k := r.m.field 40 1
  let erase := r.m.field 41 1 == 1
  let w : Bool × State :=
    if erase && s.prf.pend == some k then
      let w := s.prfWrite prfBank
      if w.1 then (true, { w.2 with prf := { w.2.prf with pend := none } }) else w
    else (true, s)
  if !w.1 then .ends prfRefusal w.2
  else
    w.2.writeChunk r k (if erase then Bank.reset else w.2.bank k)

def imageAccept7 (m : Msg) : Option Final :=
  noKeys m <|> failIf (m.field 40 1 > 1) Status.paramRange 40 <|> m.mustZero 41 23 <|> checkNoInput m

def imageAccept8 (s : State) (r : MsgRec) : Checked :=
  let k := r.m.field 40 1
  let bytes := (s.bank k).bytes
  let c := s.bankCause bytes
  let i := parseImage bytes
  let f := failIf (s.appliedBank k) Status.paramRange 40
    <|> failIf (c == 5 || c == 7) Status.keyVersion c
    <|> failIf (c != 0) Status.verifyFailed c
    <|> failIf (s.cfg.state == 1 && i.version ≤ s.cfg.version.toNat) Status.keyVersion 7
  if s.cfg.state == 2 then checked s f
  else if (activeRoster s.prf.roster0).isEmpty then
    checked s (f <|> failIf (!i.fields.any (fun x => x.id == 0x0060)) Status.tandemRequired 0)
  else s.checkTandem f 0 10 (sha384 (ascii "VW.IMG" ++ leBytes 1 k ++ i.header))

def imageAcceptAct (s : State) (r : MsgRec) : Acted :=
  let k := r.m.field 40 1
  if s.prf.pend == some k then .ends (Final.good []) s
  else
    let w := s.prfWrite prfBank
    if w.1 then .ends (Final.good []) { w.2 with prf := { w.2.prf with pend := some k } } else .ends prfRefusal w.2

end Sys2Proof.Machine
end

