-- ==== Sys2Proof/Machine/Boot.lean ====
section
/-! DEFINITION. Power and resets (R368 to R370, R444, R463 to R478): the start of the module, service ready, the input-loss
sequence, cold resets and PERST#. -/

namespace Sys2Proof.Machine

/-! What the loss of power or a cold reset leaves -/

/-- The next record number after what the partition holds (Table 19.6). -/
def Evr.storedSeq (e : Evr) : BitVec 32 :=
  ((e.batches.getLast?).map (·.seqNext)).getD 0

def Indicator.kept (i : Indicator) : Indicator := { Indicator.reset with value := i.value }

def DomRec.kept (r : DomRec) : DomRec := { r with drk := false }

/-- What NAND and the vault's own metadata keep. -/
def Vlt.kept (v : Vlt) : Vlt :=
  { Vlt.reset with
    formatted := v.formatted, vaultKey := v.vaultKey, placement := v.placement, epochs := v.epochs, objs := v.objs
    seq := v.seq, sealed := v.seq, blks := v.blks, openBlk := v.openBlk, tree := v.tree, log := v.log
    progBytes := v.progBytes, hourNow := v.hourNow, hourBytes := v.hourBytes, diaExit := v.diaExit
    lostPages := v.lostPages, badHandles := v.badHandles, hourCommits := v.hourCommits, since := v.since, assignNext := v.assignNext
    ledgerJournal := v.ledgerJournal, fresh := true, upBytes := v.hourNow }

/-- Everything but the island, OTP, NOR, PRF, NAND and what the host link has seen returns to its reset value. The closed spokes of the
hub mesh are among it: Table 1.17 gives no end, and they open here (DESIGN CHOICE, log 100). -/
def State.volatile (s : State) : State :=
  { State.reset with
    pending := s.pending, opTime := s.opTime, isl := s.isl, otp := s.otp, nor := s.nor
    prf := { s.prf with sel := 0 }
    glb := { Glb.reset with serial := s.glb.serial, fabricStep := s.glb.fabricStep, controlStep := s.glb.controlStep }
    inst := s.inst.map (fun i => { InstRec.reset with domain := i.domain })
    evr := { Evr.reset with batches := s.evr.batches, last := s.evr.last, link := s.evr.link
                            nextSeq := s.evr.storedSeq, erasures := s.evr.erasures
                            hourBytes := s.evr.hourBytes, hourNow := s.evr.hourNow }
    hlt := { Hlt.reset with inds := s.hlt.inds.map Indicator.kept, prfPast := s.hlt.prfPast, energies := s.hlt.energies
                            convTotal := s.hlt.convTotal, convHours := s.hlt.convHours, qdrHours := s.hlt.qdrHours
                            qdrNow := s.hlt.qdrNow }
    vlt := s.vlt.kept
    dom := { Dom.reset with recs := s.dom.recs.map (fun p => (p.1, p.2.kept)), rec0 := s.dom.rec0.kept }
    pwr := { Pwr.reset with energy := s.pwr.energy, bankAt := s.pwr.bankAt, bankDrop := s.pwr.bankDrop, lossIncomplete := s.pwr.lossIncomplete
                            lossSeqs := s.pwr.lossSeqs, lastOutcome := s.pwr.lastOutcome, lastTime := s.pwr.lastTime
                            perstLow := s.pwr.perstLow }
    out := s.out, irqs := s.irqs, draw := s.draw }

/-! What counts since power-up: a cold reset is none (R369) -/

def Glb.counted (t s : Glb) : Glb :=
  { t with hubResets := s.hubResets, ctrlRestarts := s.ctrlRestarts, contain := s.contain }

def Sch.counted (t s : Sch) : Sch := { t with tplHit := s.tplHit, tplMiss := s.tplMiss, replays := s.replays }

def Cluster.counted (s : Cluster) : Cluster :=
  { Cluster.reset with laps := s.laps, pkops := s.pkops, wakes := s.wakes, scrub := s.scrub }

def Vlt.counted (t s : Vlt) : Vlt :=
  { t with failedBatches := s.failedBatches, integFails := s.integFails, kcHit := s.kcHit, kcMiss := s.kcMiss
           qdrUncorr := s.qdrUncorr, qdrCorr := s.qdrCorr, roCause := s.roCause, upHours := s.upHours, upBytes := s.upBytes }

def MonRec.counted (s : MonRec) : MonRec :=
  { MonRec.reset with disagree := s.disagree, cntAtlas := s.cntAtlas, cntLuna := s.cntLuna }

def AcuUnit.counted (s : AcuUnit) : AcuUnit := { AcuUnit.reset with gen := s.gen, viol := s.viol }

/-- The counters of s that a cold reset keeps (Tables 1.16, 2.16, 4.9, 4.10, 9.5, 10.17, 17.8, 18.5 and 20.9). -/
def State.counted (t s : State) : State :=
  { t with
    glb := t.glb.counted s.glb
    lnk := { t.lnk with lossHot := s.lnk.lossHot, lossSurprise := s.lnk.lossSurprise }
    sch := t.sch.counted s.sch
    clu := s.clu.map Cluster.counted
    rng := s.rng.counted
    vlt := t.vlt.counted s.vlt
    tmp := { t.tmp with alarms := s.tmp.alarms, disagree := s.tmp.disagree, mons := s.tmp.mons.map MonRec.counted }
    acu := s.acu.map AcuUnit.counted
    dom := { t.dom with nextTid := s.dom.nextTid }
    pwr := { t.pwr with parks := s.pwr.parks, parkSeconds := s.pwr.parkSeconds, parkMs := s.pwr.parkMs
                        perstCount := s.pwr.perstCount } }

/-- The OTP-integrity alarm of both row decoders (R274, Table 17.1). -/
def badRows : Alarm := { monitor := 122, atlas := true, luna := true, high := false }

/-- The presence monitor's alarm at a cell that is not there. -/
def noCell : Alarm := { monitor := 114, atlas := true, luna := true, high := false }

/-- The cause of a lost unit (R390). -/
def State.lostCause (s : State) : Nat :=
  if s.otp.rowsCause != 0 then s.otp.rowsCause
  else if s.otp.lcState != 5 && s.otp.root != 0 && !s.rootValid then 4
  else 0

/-- The rails go off and the island goes on the cell (step 6 of Table 20.5); with none in IMAGO its monitor acts (Table
20.6). A unit whose rows are such that it is lost is one on backup power too, where its alarms are of class LOG (R413). -/
def State.powerOff (s : State) : State :=
  let s := s.volatile
  let s := { s with lcs := { s.lcs with lostCause := s.lostCause } }
  let s := { s with isl := { s.isl with main := false } }
  if s.isl.cell then s
  else if s.lc == 3 then s.tamperAlarm noCell
  else { s with isl := s.isl.clearBbram }

/-! Step 3: owed actions (R400, R424, R426, R389) -/

def Otp.burned (o : Otp) : Bool := o.row 19 != 0 && o.root != BitVec.allOnes 512

/-- The burn of an owed SPEND, or of one cut short, and the overwrite of the transport record. A lost unit programs no bit (R390). -/
def State.owedActions (s : State) : State :=
  let spend := s.isl.spendOwed && s.lostCause == 0
  let s : State := if spend || s.otp.burned then
      { s with otp := { s.otp with lcRows := s.otp.lcRows.set 19 (lcCode 5), root := BitVec.allOnes 512 } }
    else s
  let owed := spend || s.isl.transportOwed
  let s := if s.isl.transportOwed then s.dropTransport else s
  { s with isl := { s.isl with spendOwed := false, transportOwed := false, deferred := owed } }

/-! Step 4: operating time and counts (R444, R384, R474) -/

def prfFlag : List Nat := [1538]

/-- One PRF write whose refusal leaves the words as they are. -/
def State.tryPrf (s : State) (words : List Nat) (f : Prf → Prf) : State :=
  let w := s.prfWrite words
  if w.1 then { w.2 with prf := f w.2.prf } else w.2

/-- The outcome of an input loss that step 4 finds. -/
def State.lossFound (s : State) (outcome : Nat) : State :=
  let s := s.record 4 0 3 (pay outcome 0 0)
  { s with pwr := { s.pwr with lastOutcome := outcome
                               lossIncomplete := if outcome == 3 then satAdd 16 s.pwr.lossIncomplete 1
                                                 else s.pwr.lossIncomplete } }

/-- The operating time restored, and the power cycle counted at a power-up. A raised count is written, so that a start that does not come
to be armed repeats no value either (R444; DEDUCED, log 99). -/
def State.restoreTime (s : State) (cold : Bool) : State :=
  let flag := s.prf.opFlag
  let ran := s.prf.cycles != 0
  let add := flag != 1 && s.prf.opTime != 0
  let s := { s with
    opTime := s.prf.opTime + if add then 3600000 else 0
    evr := { s.evr with timeAdj := add }
    prf := { s.prf with counts := s.nor.prfCounts } }
  let s := if add then s.tryPrf prfTime (fun p => { p with opTime := s.opTime }) else s
  let s := if cold then s else s.tryPrf prfCycles (fun p => { p with cycles := p.cycles + 1 })
  let s := if cold || !ran then s
           else if flag == 0 then s.lossFound 3
           else if flag == 2 then s.lossFound 4
           else s
  s.tryPrf prfFlag (fun p => { p with opFlag := 2 })

/-! Step 7: the clusters -/

/-- Enabled clusters run, disabled ones are gated; a program store or self-check that fails fences (R160, R124). -/
def State.startClusters (s : State) (e : BootEnv) : State :=
  let s := (List.range 16).foldl (fun t c =>
    t.modClu c (fun x => { x with state := if t.cluEnabled c then .running else .disabled })) s
  let s := { s with pwr := { s.pwr with gated := ~~~s.glb.enabled } }
  let s := e.storeFail.foldl (fun t c => if t.cluUsable c.val then t.fence c.val 2 0xFF else t) s
  e.selfFail.foldl (fun t c => if t.cluUsable c.val then t.fence c.val 7 0xFF else t) s

/-! Step 8: life cycle and root -/

/-- Certificates that do not match the derived identity (R280). -/
def State.checkChain (s : State) : State :=
  if !s.ident.present then s
  else
    let s := if s.nor.chainMldsa == s.idMldsa.1 then s else s.record 0x0503 0 3 (pay 1 0 0)
    if s.nor.chainEc == s.idPoint then s else s.record 0x0503 0 3 (pay 2 0 0)

/-- The life cycle read, access-control units set, the identity derived, the journal copied. -/
def State.startLife (s : State) : State :=
  let s := { s with lcs := { s.lcs with lostCause := s.lostCause } }
  let s := { s with lcs := { s.lcs with debug := if s.lc == 0 then 2 else 0, rootGenDue := s.lc == 1 && s.otp.root == 0 }
                    tmp := { s.tmp with state := if s.lc == 5 then 4 else 0 } }
  let s := if s.lcs.lostCause != 0 then s.tamperAlarm badRows else s
  let gone := s.lc ≥ 5 || (s.lc == 3 && !s.bbramValid && s.vlt.formatted)
  let s := if gone then s.destroyVault else s
  let s := s.recorderStop.programUnits
  (s.deriveIdentity.checkChain).copyJournal

/-! Arming (R472) -/

/-- The input-loss sequence is armed, and the flag of the operating time is 0. -/
def State.arm (s : State) : State :=
  if s.pwr.armed then s
  else { s with pwr := { s.pwr with armed := true } }.tryPrf prfFlag (fun p => { p with opFlag := 0 })

/-- Service ready is never reached: kickstand or a lost unit. -/
def State.neverReady (s : State) : Bool := s.cfg.state == 2 || s.lcs.lostCause != 0

/-- Where service ready is never reached, the sequence is armed with the bank's charge. -/
def State.armCharged (s : State) : State := if s.neverReady && s.pwr.charged then s.arm else s

/-! The start -/

/-- Steps 4 to 9. The random source of a lost unit starts as its link does, since a signed RECORDER_READ is answered there (R390, R455;
DEDUCED, log 96). -/
def State.start (s : State) (e : BootEnv) (cold : Bool) : State :=
  let s := s.restoreTime cold
  let s := if cold then s else { s with lcs := { s.lcs with unstableAt := s.opTime } }
  let s := s.readImage.startClusters e
  let s := s.startLife
  let s := s.modInst 0 (fun i => { i with exists_ := true, state := .ringsOff })
  let s := { s with pwr := { s.pwr with booted := true } }
  let s := s.startRandom
  if s.lcs.lostCause != 0 then { s with glb := { s.glb with phase := 5 } }.armCharged
  else
    let s := s.armCharged
    if s.cfg.state == 2 then s
    else if s.lc == 3 then { s with vlt := { s.vlt with mountDue := true } }
    else s.startMount

/-- The input rises (steps 1 to 3): rails, island on main power, owed actions, then the start. -/
def State.powerUp (s : State) (e : BootEnv) : State :=
  if s.pwr.inputOn then s
  else
    let kept := s.isl.cell && s.lc != 2
    let s := s.volatile
    let s := { s with
      isl := { s.isl with main := true, tick := if kept then s.isl.tick else 0
                          powerUps := if kept then s.isl.powerUps else s.isl.powerUps + 1 }
      pwr := { s.pwr with inputOn := true, rails := 0x7F, charging := true, inputOk := true, state := 1 } }
    s.owedActions.start e false

/-- Input below 33 V before the sequence is armed (Table 15.2). -/
def State.lockout (s : State) : State := if s.pwr.inputOn && !s.pwr.armed then s.powerOff else s

/-- The input outside 36 to 75 V (R469). -/
def State.undervoltage (s : State) : State :=
  if s.pwr.inputOn then
    { s with pwr := { s.pwr with inputOk := false }, lcs := { s.lcs with unstableAt := s.opTime } }
  else s

/-- The bank reaches 70 V. -/
def State.bankCharged (s : State) : State :=
  if s.pwr.inputOn && s.pwr.charging then
    { s with pwr := { s.pwr with charged := true, bankVolt := 7000, state := 2 } }.armCharged
  else s

/-! CFG_STAT (R385), and the record of a completed start -/

def State.cfgStat (s : State) : Nat :=
  s.cfg.causeA * 2 ^ 24 + s.cfg.causeB * 2 ^ 20 + bit (s.prf.auth0Kind != 0) * 2 ^ 17
    + bit (!(activeRoster s.prf.roster0).isEmpty) * 2 ^ 16 + bit s.prf.pend.isSome * 2 ^ 9
    + (s.prf.pend.getD 0) * 2 ^ 8 + s.cfg.source * 4 + s.cfg.state

def State.upRecord (s : State) : State := s.record 1 0 0 (pay s.glb.phase.toNat s.cfgStat s.opTime)

/-- LINK_READY: the link as trained; the phase rises at the first. -/
def State.linkReady (s : State) (p : LinkParams) : State :=
  if !s.pwr.booted || s.pwr.perstLow || s.pwr.holdup || s.lnk.mode != 0 then s
  else
    let s := { s with lnk := s.lnk.train p }
    if s.glb.phase != 0 then s
    else if s.cfg.state == 2 then { s with glb := { s.glb with phase := 3 } }.upRecord
    else { s with glb := { s.glb with phase := 1 } }

/-- What service ready waits for (R368). -/
def State.isReady (s : State) : Bool :=
  s.pwr.booted && s.glb.phase == 1 && (s.ident.present || !s.rootValid) && s.genSeeded 257 && s.pwr.charged
    && s.vlt.state != 1 && !s.vlt.mountDue

/-- SERVICE_READY. -/
def State.serviceReady (s : State) : State :=
  if s.isReady then { s with glb := { s.glb with phase := 2 } }.upRecord.arm else s

/-! What a stop saves (R369, R384, R444, R472) -/

/-- Running work ends with ABORTED; accepted commits complete with no completion, and no other message has one, but for the unstarted
segments of a stream whose running segment ends so: R86 has those end with it, in order (DESIGN CHOICE, log 101: R74 gives cells to the
stopped messages). -/
def State.stopWork (s : State) : State :=
  let s := s.abortAll (fun r => r.isRunning || r.flashing)
  s.squash (fun _ => true)

/-- Ledger journal and PRF checkpoint of a mounted vault. -/
def State.saveVault (s : State) : State := if s.mounted then s.writeLedgerJournal.checkpoint else s

/-- The operating time and its flag, the counts, and the recorder. -/
def State.saveAll (s : State) (type severity code : Nat) : State :=
  let s := s.tryPrf (prfTime ++ prfFlag) (fun p => { p with opTime := s.opTime, opFlag := 1 })
  let s := { s with nor := { s.nor with prfCounts := s.prf.counts } }
  (s.record type 0 severity (pay code 0 0)).closeBatch.clearCopied

/-! Input loss (R472 to R475) -/

/-- A held random request. -/
def MsgRec.heldRandom (r : MsgRec) : Bool := r.phase == .rngWait || r.phase == .genCall

/-- A transition past its step 1 that has not come to its act: it waits for what it draws (R393). -/
def MsgRec.transits (r : MsgRec) : Bool := r.op == .lcTransition && r.admitted && r.phase != .custody

/-- Steps 1 to 3. A transition past its step 1 is not ended (R395). -/
def State.lossSteps (s : State) : State :=
  let s := { s with pwr := { s.pwr with holdup := true, state := 3, inputOk := false }
                    lcs := { s.lcs with unstableAt := s.opTime }, glb := { s.glb with phase := 4 } }
  let s := (s.endFreeze 5).raise 0 5
  let s := s.abortAll (fun r => (r.isRunning || r.flashing || r.heldRandom) && !r.transits)
  { s.discardTandems (fun _ => true) with pwr := { s.pwr with gated := 0xFFFF } }

/-! Cold resets (R369, R385, R477) -/

/-- A cold reset up to the start from step 4; with COLD_RST# low the start waits. Until it comes the input-loss sequence stays armed, and
its record can be sealed: the recorder key goes with the restart (R475; DESIGN CHOICE, log 102). -/
def State.coldReset (s : State) (cause : Nat) : State :=
  let s := s.stopWork.finishCommits
  let s := (s.endFreeze 5).saveVault.saveAll 5 1 cause
  let t := s.volatile.counted s
  { t with
    lcs := { t.lcs with unstableAt := s.lcs.unstableAt }
    ident := s.ident
    evr := { t.evr with state := s.evr.state, stopCause := s.evr.stopCause }
    pwr := { t.pwr with inputOn := true, armed := s.pwr.armed, state := s.pwr.state, charged := s.pwr.charged, charging := true
                        inputOk := s.pwr.inputOk, rails := s.pwr.rails, bankVolt := s.pwr.bankVolt
                        current := s.pwr.current, voltage := s.pwr.voltage, avg1Min := s.pwr.avg1Min
                        avg1S := s.pwr.avg1S, powers := s.pwr.powers, conv := s.pwr.conv, coldCount := satAdd 16 s.pwr.coldCount 1
                        coldWait := some cause } }

/-- The start that waited. -/
def State.coldStart (s : State) (e : BootEnv) : State :=
  if s.pwr.coldWait.isNone then s
  else
    { s with ident := { s.ident with present := false }, evr := { s.evr with state := 0, stopCause := 0 }
             pwr := { s.pwr with coldWait := none, armed := false } }.start e true

/-- A write of CFG_CTL. -/
def State.cfgCtl (s : State) (v : BitVec 32) (e : BootEnv) : State :=
  if v.toNat / 65536 == 0xA5C3 && v.getLsbD 0 && !s.pwr.holdup then (s.coldReset 1).coldStart e else s

def State.coldPin (s : State) (ms : Nat) : State :=
  if s.pwr.booted && ms ≥ 100 && !s.pwr.holdup then s.coldReset 2 else s

/-! PERST# (R476) -/

def State.perst (s : State) (us : Nat) : State :=
  if us < 100 then s
  else
    let s := { s with pwr := { s.pwr with perstLow := true } }
    if !s.pwr.booted || s.pwr.holdup then s
    else
      let s := { s with pwr := { s.pwr with perstCount := satAdd 16 s.pwr.perstCount 1 } }
      if s.lnk.mode == 0 then s else s.linkDown

def State.perstEnd (s : State) : State := { s with pwr := { s.pwr with perstLow := false } }

end Sys2Proof.Machine
end

