-- ==== Sys2Proof/Machine/LifeCycle.lean ====
section
/-! DEFINITION. Life-cycle transitions and debug authorization (R391 to R406), and the generation of the root (R275). -/

namespace Sys2Proof.Machine

/-! The hold-up bank (R470) -/

def State.modInd (s : State) (i : Nat) (f : Indicator → Indicator) : State :=
  { s with hlt := { s.hlt with inds := s.hlt.inds.setIfInBounds i (f (s.hlt.getInd i)) } }

/-- The measured energy; with the bank below its charge indicator 19 stays. -/
def State.measured (s : State) (energy : Nat) : State :=
  let e := min energy 65535
  let s := { s with pwr := { s.pwr with energy := e, bankAt := s.hours } }
  if s.pwr.charged then s.modInd 19 (fun x => { x with value := e }) else s

/-- PWR_CTL.MEASURE: 200 mA for 5 ms drop the bank by a number of mV, so that C is 1 ÷ that number in farads (R470).
With the bank below its charge the energy is that at the present voltage. -/
def bankEnergy (charged : Bool) (dropMv volt : Nat) : Nat :=
  if charged then 202500 / dropMv else 45 * (volt ^ 2 - 4000000) / (10000 * dropMv)

def State.measure (s : State) (dropMv : Nat) (volt : BitVec 16) : State :=
  if s.pwr.holdup || dropMv == 0 then s
  else
    ({ s with pwr := { s.pwr with bankVolt := volt, bankDrop := dropMv } }).measured (bankEnergy s.pwr.charged dropMv volt.toNat)

/-- A measurement that the module makes of itself. What it finds is given, or is what the last one found; before any has been made the
energy stands as it is known (DESIGN CHOICE, log 94). -/
def State.remeasure (s : State) (b : Option BankSample) : State :=
  let d := (b.map (·.drop)).getD s.pwr.bankDrop
  if d == 0 then s.measured s.pwr.energy else s.measure d ((b.map (·.volt)).getD s.pwr.bankVolt)

/-! The gate (R392, checks 5 and 6) -/

/-- 150 % of the requirement, in units of 10 mJ: the power of the last 1 s for 40 ms. -/
def State.gateNeed (s : State) : Nat := ceilDiv (6 * s.pwr.avg1S.toNat) 100

/-- The measurement of check 6 and the quantities it uses, shown by LCS_GATE (R470). -/
def State.noteGate (s : State) (b : Option BankSample) : State :=
  let s := s.remeasure b
  { s with lcs := { s.lcs with need := s.gateNeed, avail := s.pwr.energy } }

/-- Check 5: the input has been within 36 to 75 V for 1 s. -/
def State.inputStable (s : State) : Bool := s.pwr.inputOk && s.lcs.unstableAt + 1000 ≤ s.opTime

/-- Check 6 on the energy measured. -/
def State.energyShort (s : State) : Bool := 100 * s.pwr.energy < 6 * s.pwr.avg1S.toNat

/-- Checks 5 and 6: what they answer and the state they leave; the bank is measured once check 5 has passed. -/
def State.gate (s : State) (b : Option BankSample) : Option Final × State :=
  if !s.inputStable then (some (Final.plain Status.lcInputUnstable), s)
  else
    let t := s.noteGate b
    (failIf t.energyShort Status.lcEnergy 0, t)

/-! Table 16.3 -/

/-- The row that a move writes; none for a move that is not allowed. -/
def moveRow (lc target trips : Nat) : Option Nat :=
  match lc, target with
  | 0, 1 => some 0
  | 1, 2 => some 1
  | 2, 3 => some 2
  | 3, 4 => some (3 + 2 * trips)
  | 4, 3 => some (2 + 2 * trips)
  | l, 5 => if l ≤ 4 then some 19 else none
  | _, _ => none

def lcTarget (m : Msg) : Nat := m.field 40 1

/-- Input lengths of a move; a move that is not allowed has none. -/
def moveLengths (lc target : Nat) : List Nat :=
  if lc == 3 && target == 4 then [3144] else if lc == 4 && target == 3 then [3264, 0] else [0]

def lcLargest (s : State) (m : Msg) : Nat := if s.lc == 3 && lcTarget m == 4 then 9611 else 0

def lcTransition7 (s : State) (m : Msg) : Option Final :=
  noKeys m <|> m.mustZero 41 23
  <|> failIf (!(moveLengths s.lc (lcTarget m)).contains m.inLen) Status.lengthInvalid 0
  <|> checkCap m (lcLargest s m)

/-- The input of a DIAPAUSE entry (R396). -/
def State.entryBad (s : State) (b : Bytes) : Option Final :=
  let roster := s.roster 0
  let holds (i : Nat) : Bool :=
    let e := roster.getD i RosterEntry.reset
    e.keyAlg != 0 && e.roles.getLsbD 4
  let o1 := byteAt b 0
  let o2 := byteAt b 1
  failIf (o1 > 15) Status.paramRange 0x100
  <|> failIf (o2 > 15) Status.paramRange 0x101
  <|> failIf (o1 == o2) Status.paramRange 0x101
  <|> ((firstNonZero b 2 6).map (fun i => Final.refuse Status.paramRange (0x100 + i)))
  <|> failIf (!holds o1) Status.paramRange 0x100
  <|> failIf (!holds o2) Status.paramRange 0x101
  <|> failIf (!kemEkOk mlkem1024 (slice b 8 1568) || !kemEkOk mlkem1024 (slice b 1576 1568)) Status.pkInputRejected 0

/-- Drawing an envelope key needs a healthy source (R226, R281). -/
def State.envelopeDraw (s : State) : Option Final :=
  failIf (s.rng.phase != 3 || (s.rng.getGen 257).marked) Status.rngFault 0

/-- The further conditions of a move (check 3), in the order of Table 16.3 (DESIGN CHOICE, log 73: Table 16.4 lists their
statuses in another). -/
def State.moveBad (s : State) (target : Nat) (b : Bytes) : Option Final :=
  match s.lc, target with
  | 1, 2 => failIf (!s.rootValid) Status.lcState 1
  | 2, 3 =>
    failIf (activeRoster s.prf.roster0).isEmpty Status.lcState 5
    <|> failIf (!s.isl.cell) Status.lcState 4
    <|> s.envelopeDraw
  | 3, 4 =>
    failIf (s.otp.trips ≥ 8) Status.lcTripsExhausted 0
    <|> failIf (!s.mounted) Status.vaultNotMounted 0
    <|> s.entryBad b
  | 4, 3 =>
    failIf (!s.isl.cell) Status.lcState 4
    <|> failIf (b.length != 0 && s.prf.transport.isNone) Status.lcState 6
    <|> failIf (b.length == 0 && s.prf.transport.isSome) Status.lengthInvalid 0
    <|> (if b.length == 0 then s.envelopeDraw else none)
  | _, _ => none

def State.moveDigest (s : State) (target : Nat) (b : Bytes) : Bytes :=
  sha384 (ascii "VW.LCT" ++ leBytes 8 (lcCode s.lc).toNat ++ leBytes 1 target ++ leBytes 1 s.otp.trips ++ sha384 b)

/-- The authorization of a move (check 4): a FULL session before PUPA is left, else a tandem of act 11. -/
def State.moveAuth (s : State) (target : Nat) (b : Bytes) : Checked :=
  if s.lc ≤ 1 then checked s (failIf (s.lcs.debug != 2) Status.lcState 3)
  else if s.lc == 2 && target == 5 && (activeRoster s.prf.roster0).isEmpty then .ok none
  else s.needTandem 0 11 (s.moveDigest target b)

/-- Table 16.4. -/
def lcTransition8 (s : State) (r : MsgRec) : Checked :=
  let target := lcTarget r.m
  let early := failIf (target == 0 || target > 5) Status.paramRange 40
    <|> failIf (moveRow s.lc target s.otp.trips).isNone Status.lcState (if s.lc == 6 then 2 else 1)
    <|> s.moveBad target r.m.input
  match early with
  | some f => .no f s
  | none => match s.moveAuth target r.m.input with
    | .ok t => match s.gate r.m.bank with
      | (some f, u) => .no f u
      | (none, _) => .ok t
    | c => c

/-- Random bytes of a move: shares, IVs, encapsulation and signature for an entry; envelope and placement keys for a
format. -/
def lcDraws (s : State) (m : Msg) : List (Nat × Nat) :=
  match s.lc, lcTarget m with
  | 2, 3 => [(257, 32), (258, 32)]
  | 3, 4 => [(257, 88), (259, 120)]
  | 4, 3 => if m.inLen == 0 then [(257, 32), (258, 32)] else []
  | _, _ => []

/-! DIAPAUSE (R396 to R399) -/

/-- The trip receive key pair. -/
def State.tripKey (s : State) (k : Nat) : Bytes × Bytes :=
  let seed := kdf s.rootSecret "VW.TRK" (serialBytes s ++ leBytes 1 k) 512
  kemKeyGen mlkem1024 (seed.take 32) (seed.drop 32)

def shareKey (secret : Bytes) (trip index : Nat) : Bytes := kdf secret "VW.TSH" (leBytes 1 trip ++ leBytes 1 index) 256

/-- A share record (Table 16.9). -/
def State.shareRecord (s : State) (officer index trip : Nat) (ek m iv share : Bytes) : Bytes :=
  let kem := kemEncaps mlkem1024 ek m
  let head := leBytes 1 officer ++ leBytes 1 index ++ zeros 2 ++ kem.1 ++ iv
  let body := gcmSeal (shareKey kem.2 trip index) iv (head ++ s.identDigest) share
  head ++ body.1 ++ body.2

/-- A returned share record opened under the trip receive key. -/
def State.openShare (s : State) (trip index : Nat) (b : Bytes) : Option Bytes :=
  gcmOpen (shareKey (kemDecaps mlkem1024 (s.tripKey trip).2 (slice b 4 1568)) trip index) (slice b 1572 12)
    (b.take 1584 ++ s.identDigest) (slice b 1584 32) (slice b 1616 16)

/-- Step 3 of an entry: the transport record and the statement. -/
def State.buildEntry (s : State) (b random : Bytes) : TransportRec × Bytes :=
  let k := s.otp.trips + 1
  let s1 := random.take 32
  let s2 := slice random 32 32
  let env := s.isl.envelope.getD []
  let wrapped := kwWrap (xorB s1 s2) (env ++ s.envCheck env)
  let r1 := s.shareRecord (byteAt b 0) 1 k (slice b 8 1568) (slice random 88 32) (slice random 64 12) s1
  let r2 := s.shareRecord (byteAt b 1) 2 k (slice b 1576 1568) (slice random 120 32) (slice random 76 12) s2
  let body := ascii "TRS1" ++ leBytes 1 k ++ zeros 3 ++ s.identDigest ++ (s.tripKey k).1 ++ r1 ++ r2
  ({ trip := k, wrapped := wrapped }, body ++ s.idSign body (slice random 152 56))

/-- Step 3 of an exit: the envelope key, or how the move ends. -/
def State.openTransport (s : State) (b : Bytes) : Final ⊕ Bytes :=
  match s.prf.transport with
  | none => .inl (Final.plain Status.unwrapFailed)
  | some t =>
    let b1 := b.take 1632
    let b2 := slice b 1632 1632
    if byteAt b1 1 != 1 || byteAt b2 1 != 2 then .inl (Final.refuse Status.paramRange 0x101)
    else match s.openShare t.trip 1 b1, s.openShare t.trip 2 b2 with
      | some s1, some s2 => match kwUnwrap (xorB s1 s2) t.wrapped with
        | some e => if e.drop 32 == s.envCheck (e.take 32) then .inr (e.take 32) else .inl (Final.plain Status.unwrapFailed)
        | none => .inl (Final.plain Status.unwrapFailed)
      | _, _ => .inl (Final.plain Status.unwrapFailed)

/-! The transition (R393, R394) -/

/-- LCS_ROWS (R407). -/
def Otp.rowsMap (o : Otp) : Nat :=
  ((List.range 20).map (fun i =>
    if (if i == 19 then o.row 19 != 0 else !rowBlank (o.row i)) then 2 ^ i else 0)).foldl (· + ·) 0

/-- LCS_LAST, the record and vector 2 of a transition that ends (step 7). -/
def State.lcEnd (s : State) (src_ till : Nat) (st : BitVec 16) : State :=
  let s := { s with lcs := { s.lcs with busy := false, moving := none, lastFrom := src_, lastTo := till, lastStatus := st } }
  (s.record 0x0501 0 3 (pay (src_ + 256 * till) st.toNat s.otp.rowsMap)).raise 0 2

/-- The PAUSE or SHED of an incident that was folded into a transition (Table 16.7): when the transition ends before its step 4, which
would have destroyed what they destroy, the response runs after all (DESIGN CHOICE, log 95). -/
def State.unfold (s : State) : State :=
  if s.tmp.open_ && s.tmp.cls ≥ 1 && s.tmp.state == 0 then s.respond 0 (min s.tmp.cls 2) else s

/-- A transition that ends before its step 4: the units open again at the sets of the state that stands (DESIGN CHOICE, log
80: R442 gives their opening at step 6 alone). -/
def State.lcFail (s : State) (src_ till : Nat) (st : BitVec 16) : State :=
  (s.programUnits.recorderOn.lcEnd src_ till st).unfold

/-- The transition that runs has lost its message before its step 4 (R254): it ends as the message did (DESIGN CHOICE, log 81). -/
def State.moveLost (s : State) : Bool :=
  s.lcs.busy && s.lcs.moving.isNone && !s.sch.msgs.any (fun r => r.op == .lcTransition && r.admitted)

/-- Step 5: antifuse bits are only ever set. -/
def State.programRow (s : State) (row target : Nat) : State :=
  { s with otp := { s.otp with lcRows := s.otp.lcRows.set row (s.otp.row row ||| lcCode target) } }

/-- Step 5 cut short with these bits of the row programmed (R395). -/
def State.programBits (s : State) (row target : Nat) (bits : BitVec 64) : State :=
  { s with otp := { s.otp with lcRows := s.otp.lcRows.set row (s.otp.row row ||| (lcCode target &&& bits)) } }

/-- Steps 1 and 2: BUSY, the open batch and the units closed, later records held (R453), and the end of running work, flows and templates (R393, R442, Table 4.5). -/
def State.lcBegin (s : State) (target : Nat) : State :=
  let s := ({ s with lcs := { s.lcs with busy := true, towards := target } }).closeBatch.recorderOff.closeUnits.pauseActions
  let s := s.abortAll (fun r => r.onFlows && r.phase != .commit)
  (s.dropFlows (fun _ => true)).dropTemplates (fun _ => true)

/-- Step 4. -/
def State.moveDestroy (s : State) (target : Nat) : State :=
  let s := s.destroyKeys 2
  let s : State := if target == 5 then s.zeroizeActions else s
  if target == 4 then { s with isl := { s.isl with envelope := none, envCheck := [] } } else s

/-- The envelope key that step 3 draws or recovers is written to BBRAM before anything else. -/
def State.moveCut (s : State) (row target : Nat) (format : Option (Bytes × Bytes)) (envelope : Option Bytes) (bits : BitVec 64) :
    State :=
  let s := s.moveDestroy target
  let s : State := match (format.map (·.1)) <|> envelope with
    | some e => s.putEnvelope e
    | none => s
  s.programBits row target bits

/-- Steps 4 to 6 with the envelope and placement keys to format with, if any, or the envelope key recovered. -/
def State.moveOn (s : State) (row target : Nat) (format : Option (Bytes × Bytes)) (envelope : Option Bytes) : State :=
  let src_ := s.lc
  let s := s.moveDestroy target
  let s : State := if target == 5 then s.spendActions else s.programRow row target
  let s : State := if src_ == 4 && target == 3 then s.dropTransport else s
  let s := if target == 5 then s else s.programUnits
  let s := if target == 5 then s else s.deriveIdentity
  let s := { s with lcs := { s.lcs with moving := some (src_, target) }, vlt := { s.vlt with fresh := true, diaExit := src_ == 4 && target == 3 && format.isNone } }
  match format, envelope with
  | some f, _ => let t := s.formatVault f.1 f.2
                 { t with vlt := { t.vlt with mountDue := true } }
  | none, some e => let t := s.putEnvelope e
                    { t with vlt := { t.vlt with mountDue := true } }
  | none, none => s.startMount

/-- Steps 4 to 6, or as much of them as the hold-up lasts for. -/
def State.moveFor (s : State) (cut : Option (BitVec 64)) (row target : Nat) (format : Option (Bytes × Bytes))
    (envelope : Option Bytes) : State :=
  match cut with
  | some bits => s.moveCut row target format envelope bits
  | none => s.moveOn row target format envelope

/-- Steps 3 to 6 of LC_TRANSITION, or with a cut up to the row as far as it is programmed. A move that a SPEND since step 1 has
made impossible ends with LC_STATE. A PRF that cannot take the transport record ends an entry before its step 4. A ZEROIZE since
step 1 leaves no envelope key to write a transport record of, and no transport record to recover one from (R395). -/
def lcTransitionAct (s : State) (r : MsgRec) (cut : Option (BitVec 64) := none) : Acted :=
  let target := lcTarget r.m
  let src_ := s.lc
  match moveRow src_ target s.otp.trips with
  | none => .ends (Final.refuse Status.lcState 1) (s.lcFail src_ target Status.lcState)
  | some row =>
    match src_, target with
    | 2, 3 => .custody (s.moveFor cut row target (some (r.random.take 32, slice r.random 32 32)) none)
    | 3, 4 =>
      let s := s.finishCommits.checkpoint.writeLedgerJournal
      let e := s.buildEntry r.m.input r.random
      let go (s : State) : Acted := .custody ((s.modMsg r.id (fun x => { x with output := e.2 })).moveFor cut row target none none)
      if !s.bbramValid then go s
      else
        let w := s.prfWrite prfTransport
        if !w.1 then .ends prfRefusal (w.2.lcFail src_ target prfRefusal.status)
        else go { w.2 with prf := { w.2.prf with transport := some e.1 } }
    | 4, 3 =>
      if r.m.inLen == 0 then .custody (s.moveFor cut row target (some (r.random.take 32, slice r.random 32 32)) none)
      else match s.openTransport r.m.input with
        | .inl f => .ends f (s.lcFail src_ target f.status)
        | .inr e => .custody (s.moveFor cut row target none (some e))
    | _, _ => .custody (s.moveFor cut row target none none)

/-! Input loss (R395, R472 to R475) -/

/-- What a transition still draws, from generators that are seeded. -/
def State.serveMove (s : State) (r : MsgRec) : MsgRec × State :=
  (lcDraws s r.m).foldl (fun (p : MsgRec × State × Nat) d =>
    let below := p.2.2
    if r.random.length ≥ below + d.2 then (p.1, p.2.1, below + d.2)
    else
      let x := p.2.1.drawBytes d.1 d.2
      ({ p.1 with random := p.1.random ++ x.1 }, x.2, below + d.2)) (r, s, 0) |> fun p => (p.1, p.2.1)

/-- A transition past its step 1 runs on hold-up through its step 6, or until its row is cut short, and its completion is not
written; generators that are not seeded cannot serve it, and it ends (DEDUCED, log 81). -/
def State.moveThrough (s : State) (cut : Option (BitVec 64)) : State :=
  match s.sch.msgs.find? MsgRec.transits with
  | none => s
  | some r =>
    if (lcDraws s r.m).any (fun d => !s.genSeeded d.1) then s.lcFail s.lc (lcTarget r.m) Status.aborted
    else
      let p := s.serveMove r
      match lcTransitionAct p.2 p.1 cut with
      | .custody t => t
      | .ends _ t => t
      | .commit _ _ t => t
      | .engine t => t

/-- Steps 4 to 6 of Table 20.5, and the outcome of the sequence. -/
def State.lossEnd (s : State) (outcome time : Nat) : State :=
  let s := s.stopWork.finishCommits.saveVault.saveAll 4 3 outcome
  { s with pwr := { s.pwr with lossSeqs := satAdd 16 s.pwr.lossSeqs 1, lastOutcome := outcome, lastTime := time } }.powerOff

/-- INPUT_LOSS: the sequence, complete or cut short; before it is armed, an event of the input alone. -/
def State.inputLoss (s : State) (completes : HoldUp) (time : Nat) : State :=
  if !s.pwr.inputOn || s.pwr.holdup then s
  else if !s.pwr.armed then s.undervoltage
  else
    let moves := s.lcs.moving.isSome || s.sch.msgs.any MsgRec.transits
    let s := s.lossSteps
    match completes with
    | .whole => (s.moveThrough none).lossEnd (if moves then 2 else 1) time
    | .short => s.powerOff
    | .inRow bits => (s.moveThrough (some bits)).powerOff

/-- Generator 257 is seeded again, or the source cannot seed it: step 7 may come. -/
def State.moveSettled (s : State) : Bool := s.genSeeded 257 || s.rng.phase ≥ 4 || s.rng.phase == 0

/-! The root (R275) -/

/-- Root generation at a start in LARVA with a blank row, never in another state; a source that fails gives it up for this start. -/
def State.rootStep (s : State) : State :=
  if !s.lcs.rootGenDue || s.lc != 1 then s
  else if s.rng.phase ≥ 4 then { s with lcs := { s.lcs with rootGenDue := false } }
  else if s.rng.phase != 3 || !s.genSeeded 257 || (s.gate none).1.isSome then s
  else
    let d := (s.noteGate none).drawBytes 257 32
    let s := d.2
    let root := d.1 ++ rootCheck s d.1
    let s := { s with otp := { s.otp with root := BitVec.ofNat 512 (leNat root) }
                      lcs := { s.lcs with rootGenDue := false } }
    (s.record 0x0501 0 3 (pay (s.lc + 256 * s.lc) 0 s.otp.rowsMap)).deriveIdentity.checkChain.copyJournal

/-! Debug authorization (R405, R406) -/

/-- Table 16.11: the scope may be opened in the present state. -/
def scopeAllowed (lc scope : Nat) : Bool :=
  match lc with
  | 0 => true
  | 1 => true
  | 2 => scope == 1
  | 3 => scope == 1
  | 5 => scope == 1
  | _ => false

def debugMode (m : Msg) : Nat := m.field 40 1

def debugAuthorize7 (m : Msg) : Option Final :=
  noKeys m <|> failIf (debugMode m > 1) Status.paramRange 40
  <|> (if debugMode m == 0 then
        failIf (m.field 41 1 == 0 || m.field 41 1 > 2) Status.paramRange 41 <|> m.mustZero 42 22
          <|> checkNoInput m <|> checkCap m 128
      else m.mustZero 41 23 <|> lengthIs m 4779)

/-- The first byte of a response that is not as Table 16.13 has it. -/
def responseBad (b : Bytes) : Option Final :=
  (((List.range 4).find? (fun i => b.getD i 0 != (ascii "DBR1").getD i 0)) <|> firstNonZero b 5 3).map
    (fun i => Final.refuse Status.paramRange (0x100 + i))

def debugAuthorize8 (s : State) (r : MsgRec) : Checked :=
  let b := r.m.input
  if debugMode r.m == 0 then
    checked s (failIf (!scopeAllowed s.lc (r.m.field 41 1)) Status.lcState 1)
  else
    let chal := s.lcs.challenge.getD []
    let early := responseBad b
      <|> failIf (s.lcs.challenge.isNone || byteAt b 4 != byteAt chal 4 || slice b 8 48 != sha384 chal) Status.tokenExpired 0
      <|> failIf (!scopeAllowed s.lc (byteAt b 4)) Status.lcState 1
    if early.isNone && !s.served (.message r.id) then .work (idVerifyWork b)
    else
    let f := early <|> failIf (!idVerify Config.makerKeyMldsa Config.makerKeyEc (b.take 56) (b.drop 56)) Status.tokenInvalid 0
    if s.lc == 3 then s.checkTandem f 0 12 (sha384 (ascii "VW.DBG" ++ chal)) else checked s f

/-- The challenge (Table 16.12). -/
def State.debugChallenge (s : State) (scope : Nat) (nonce : Bytes) : Bytes :=
  ascii "DBC1" ++ leBytes 1 scope ++ leBytes 1 s.lc ++ zeros 2 ++ serialBytes s ++ leBytes 8 s.prf.dbgCount ++ nonce
    ++ (if s.otp.root == 0 then zeros 48 else s.identDigest) ++ zeros 24

def debugDraws (m : Msg) : List (Nat × Nat) := if debugMode m == 0 then [(257, 32)] else []

def debugAuthorizeAct (s : State) (r : MsgRec) : Acted :=
  if debugMode r.m == 0 then
    let c := s.debugChallenge (r.m.field 41 1) (r.random.take 32)
    .ends (Final.good c) { s with lcs := { s.lcs with challenge := some c } }
  else
    let w := s.prfWrite prfReopen
    if !w.1 then .ends prfRefusal w.2
    else
      let s := { w.2 with prf := { w.2.prf with dbgCount := w.2.prf.dbgCount + 1 }, lcs := { w.2.lcs with challenge := none } }
      .ends (Final.good []) (s.openDebug (byteAt r.m.input 4))

end Sys2Proof.Machine
end

