-- ==== Sys2Proof/Machine/Health.lean ====
section
/-! DEFINITION. The event recorder's reads and freezes (R448 to R455), the health indicators (R456 to R460), the
measurements (R469 to R471), scheduling quotas (R119) and the SMBus words (R479). -/

namespace Sys2Proof.Machine

/-! RECORDER_READ (R455) -/

def recorderCount (m : Msg) : Nat := m.field 44 2
def recorderSigned (m : Msg) : Bool := m.field 48 1 == 1
def recorderLargest (m : Msg) : Nat := if recorderSigned m then 70387 else 65664

def recorderRead7 (m : Msg) : Option Final :=
  noKeys m
  <|> failIf (recorderCount m == 0 || recorderCount m > 4096) Status.paramRange 44
  <|> m.mustZero 46 2
  <|> failIf (m.field 48 1 > 1) Status.paramRange 48
  <|> m.mustZero 49 15
  <|> checkNoInput m
  <|> checkCap m (recorderLargest m)

def recorderDraws (m : Msg) : List (Nat × Nat) := if recorderSigned m then [(259, 56)] else []

/-- EVR_FIRST: the oldest batch held. -/
def Evr.first (e : Evr) : Nat := match e.batches.head? with | some b => b.num | none => e.last + 1

/-- l[n], as far as batches are closed and held. -/
def State.linkOf (s : State) (n : Nat) : Bytes :=
  if n == s.evr.last then (if s.evr.link.isEmpty then s.linkZero else s.evr.link)
  else match s.evr.batches.find? (fun b => b.num == n + 1) with
    | some b => b.prev
    | none => Config.noLink n

/-- Bytes a batch takes in a read: header, records and link. -/
def Batch.size (b : Batch) : Nat := b.image.length - 16 + 48

/-- Whole batches that fit in a room. -/
def fitBatches : List Batch → Nat → List Batch
  | [], _ => []
  | b :: r, room => if b.size ≤ room then b :: fitBatches r (room - b.size) else []

/-- The batches opened in order, each with its link, up to the first whose tag fails. -/
def openBatches (key : Bytes) : List Batch → List (Bytes × Bytes) × Option Nat
  | [] => ([], none)
  | b :: r => match b.open_ key with
    | some t => ((t, b.link) :: (openBatches key r).1, (openBatches key r).2)
    | none => ([], some b.num)

/-- What a read takes from the batches held; a stored batch whose tag fails ends it before that batch. -/
def State.recorderTake (s : State) (m : Msg) : RecRead :=
  let first := max (m.field 40 4) s.evr.first
  let signed := recorderSigned m
  let room := m.outCap - 64 - (if signed then 4723 else 0)
  let l := fitBatches ((s.evr.batches.filter (fun b => first ≤ b.num)).take (recorderCount m)) room
  let opened := openBatches s.recorderKey l
  let got := opened.1
  let start := s.linkOf (first - 1)
  let header := ascii "EVR1" ++ leBytes 4 first ++ leBytes 4 got.length ++ zeros 4 ++ start
  let last := match got.getLast? with | some b => b.2 | none => start
  { header := header, body := (got.map (fun b => b.1 ++ b.2)).flatten, last := last, bad := opened.2 }

/-- A read begins, with the batches that are held then (R453). -/
def State.beginRead (s : State) (r : MsgRec) : State :=
  if r.op == .recorderRead && r.read.isNone then s.modMsg r.id (fun x => { x with read := some (s.recorderTake r.m) }) else s

/-- The end of a read. -/
def State.recorderRead (s : State) (x : RecRead) (signed : Bool) (random : Bytes) : Final :=
  let text := ascii "VW.EVS" ++ x.header ++ x.last
  let sig := if !signed then []
             else if s.ident.present then s.idSign text random
             else Config.noSignature text
  let f := Final.good (x.header ++ x.body ++ sig)
  match x.bad with
  | some n => { f with status := Status.vaultIntegrity, detail := BitVec.ofNat 32 n }
  | none => f

def recorderReadAct (s : State) (r : MsgRec) : Acted := .ends (s.recorderRead (r.read.getD (s.recorderTake r.m)) (recorderSigned r.m) r.random) s

/-! RECORDER_FREEZE (R451) -/

def recorderFreeze7 (m : Msg) : Option Final :=
  noKeys m
  <|> failIf (m.field 40 1 > 1) Status.paramRange 40
  <|> m.mustZero 41 23
  <|> checkNoInput m

/-- MODE 1: a freeze, or its 10 s again. A recorder that has stopped for good has nothing to freeze. -/
def State.freeze (s : State) : State :=
  if s.evr.state == 3 then s
  else
    let s := if s.evr.freezeEnd.isSome then s
             else
               let t := s.record 3 0 0 (pay 1 s.evr.hold.length 0)
               if t.evr.state != 1 then t
               else if t.closeBatch.evr.state == 3 then t.closeBatch
               else { t.closeBatch with evr := { t.closeBatch.evr with state := 2 } }
    if s.evr.state == 3 then s else { s with evr := { s.evr with freezeEnd := some (s.opTime + 10000) } }

def recorderFreezeAct (s : State) (r : MsgRec) : Acted :=
  .ends (Final.good []) (if r.m.field 40 1 == 1 then s.freeze else s.endFreeze 2)

/-- RECORDER_BATCH_CLOSE: 1 s after the first record of the open batch. -/
def State.batchTimeout (s : State) : State :=
  match s.evr.openBatch.head? with
  | some r => if s.pwr.booted && s.evr.state == 1 then (s.advance (r.time + 1000)).closeBatch else s
  | none => s

/-- FREEZE_EXPIRY: 10 s after the freeze began. -/
def State.freezeExpiry (s : State) : State :=
  match s.evr.freezeEnd with
  | some t => if s.pwr.booted then ((s.advance t).endFreeze 3).raise 0 3 else s
  | none => s

/-! Indicators (R456 to R459) -/

/-- Limits of Table 19.5. -/
def indLimit (i : Nat) : Nat :=
  if i < 16 then 40000
  else match i with
    | 16 => 3000
    | 17 => 100000000
    | 18 => 8
    | 19 => 330
    | 20 => 100000
    | 21 => 150000
    | _ => 720

/-- Hours left as a prediction: 32 bits, the largest value kept for none. -/
def hoursLeft (n : Nat) : Option Nat := some (min n 0xFFFFFFFE)

/-- a ÷ b as hours; none when nothing accrues. -/
def rateHours (a b : Nat) : Option Nat := if b == 0 then none else hoursLeft (a / b)

/-- The smaller of two predictions. -/
def minHours (a b : Option Nat) : Option Nat :=
  match a, b with
  | some x, some y => some (min x y)
  | some x, none => some x
  | none, y => y

/-- The limit is reached: indicators 19 and 20 fall to theirs. -/
def indReached (i v : Nat) : Bool := if i == 19 || i == 20 then v ≤ indLimit i else v ≥ indLimit i

/-- PRF writes: the smallest over all words of what is left ÷ writes an hour, over the trailing 720 h or all history. -/
def State.prfHours (s : State) : Option Nat :=
  let past := s.hlt.prfPast
  let hours := min past.length 720
  let base := past.getD 720 []
  ((past.headD []).map (fun p => rateHours ((100000000 - p.2) * hours) (p.2 - lookup0 base p.1))).foldl minHours none

/-- Hold-up energy: the falling linear fit of the hourly measurements of the trailing 8,760 h, in the exact form of
(n·Σhe − Σh·Σe) ÷ (n·Σh² − (Σh)²). -/
def fitHours (left : Nat) (l : List (Nat × Nat)) : Option Nat :=
  let n := l.length
  let sum := fun (f : Nat × Nat → Nat) => (l.map f).foldl (· + ·) 0
  let h := sum (·.1)
  let fall := h * sum (·.2) - n * sum (fun p => p.1 * p.2)
  rateHours (left * (n * sum (fun p => p.1 ^ 2) - h ^ 2)) fall

/-- 2^(k ÷ 10) in units of 2^-32, for k = 0 to 9. -/
def tenthPowers : List Nat :=
  [4294967296, 4603231970, 4933621867, 5287724991, 5667243323, 6074000999, 6509953083, 6977194956, 7477972397, 8014692369]

/-- The weight of an hour, 2^((T − 70) ÷ 10), in units of 2^-32 hour (DESIGN CHOICE, log 79: the fraction is cut there). -/
def hourWeight (t : BitVec 8) : Nat :=
  let e := (t.toInt + 130).toNat
  tenthPowers.getD (e % 10) 0 * 2 ^ (e / 10) / 2 ^ 20

/-- Corrected errors of the trailing 720 h, the running hour with them, and those of the 720 h before. -/
def Hlt.qdrCount (h : Hlt) : Nat := h.qdrNow + (h.qdrHours.take 720).foldl (· + ·) 0
def Hlt.qdrBefore (h : Hlt) : Nat := (h.qdrHours.drop 720).foldl (· + ·) 0

/-- R263's formula over the recorder pool. -/
def Evr.hoursLeft (e : Evr) : Option Nat :=
  rateHours ((3000 * 64 - e.erasures) * 4194304 * e.hourBytes.length) (e.hourBytes.foldl (· + ·) 0)

/-- The prediction of indicator i (Table 19.5). -/
def State.predict (s : State) (i : Nat) : Option Nat :=
  let v := (s.hlt.getInd i).value
  let t := s.hours
  if i < 16 && !s.cluUsable i then none
  else if indReached i v then some 0
  else if i < 16 then
    if v < 1000 then none else hoursLeft (t * 40000 ^ 4 / v ^ 4 - t)
  else match i with
    | 16 => minHours (rateHours s.vlt.capacity s.vlt.progRate) s.evr.hoursLeft
    | 17 => s.prfHours
    | 18 => if v == 0 then none else hoursLeft ((8 - v) * t / v)
    | 19 => fitHours (v - 330) s.hlt.energies
    | 20 => rateHours ((v - 100000) * 100) s.isl.cellMean.toNat
    | 21 => rateHours ((150000 * 2 ^ 32 - s.hlt.convTotal) * s.hlt.convHours.length) (s.hlt.convHours.foldl (· + ·) 0)
    | _ => rateHours (720 * (720 - v)) (s.hlt.qdrCount - s.hlt.qdrBefore)

/-- PRS_MAXCOUNT. -/
def Prf.maxCount (p : Prf) : Nat := (p.counts.map (·.2)).foldl max 0

/-- The values that follow from what the module holds; drift, energy and charge stand as last measured. -/
def State.indValue (s : State) (i : Nat) : Nat :=
  match i with
  | 16 => max s.vlt.wearAvg s.evr.wearAvg
  | 17 => s.prf.maxCount
  | 18 => s.otp.trips
  | 21 => s.hlt.convTotal / 2 ^ 32
  | 22 => s.hlt.qdrCount
  | _ => (s.hlt.getInd i).value

/-- The measurements of a report, taken over: the drift of the clusters in use, the charge drawn, the mean current and
the temperatures. -/
def State.takeReport (s : State) (r : HourReport) : State :=
  let s := (List.range 16).foldl (fun t i =>
    if t.cluUsable i then t.modInd i (fun x => { x with value := r.drift.getD i 0 }) else t) s
  let s := s.modInd 20 (fun x => { x with value := x.value - r.cellUse })
  { s with isl := { s.isl with cellMean := r.cell }, pwr := { s.pwr with conv := r.conv } }

/-- An hour added to the history the predictions rest on. -/
def Hlt.endHour (h : Hlt) (counts : List (Nat × Nat)) (weight : Nat) : Hlt :=
  { h with prfPast := (counts :: h.prfPast).take 721, convTotal := h.convTotal + weight
           convHours := (weight :: h.convHours).take 720, qdrHours := (h.qdrNow :: h.qdrHours).take 1440, qdrNow := 0 }

def Evr.endHour (e : Evr) : Evr := { e with hourBytes := (e.hourNow :: e.hourBytes).take 720, hourNow := 0 }

/-- A warning stands (R459, R384). -/
def State.warns (s : State) (i : Nat) : Bool :=
  let x := s.hlt.getInd i
  (!x.noneP && x.hours.toNat < s.hlt.thresh.toNat) || (i == 17 && x.value ≥ 80000000)

/-- A warning of indicator i raised or cleared. -/
def State.warn (s : State) (i : Nat) : State :=
  let x := s.hlt.getInd i
  let w := s.warns i
  if w == x.warned then s
  else
    let s := s.modInd i (fun x => { x with warned := w })
    let s := s.record 0x0A01 (src 7 i) 2 (pay (if w then 1 else 2) x.hours.toNat x.value)
    if w then s.raise 0 4 else s

/-- Every warning against the present threshold. -/
def State.warnAll (s : State) : State := (List.range 23).foldl State.warn s

/-- The indicator with the smallest prediction, the lowest number among equals; 0 when none predicts an end. -/
def Hlt.least (h : Hlt) : Nat :=
  (List.range 23).foldl (fun a i => if (h.getInd i).hours.toNat < (h.getInd a).hours.toNat then i else a) 0

/-- Every prediction, the overall figure and the warnings. -/
def State.predictAll (s : State) : State :=
  let s := (List.range 23).foldl (fun t i =>
    let t := t.modInd i (fun x => { x with value := t.indValue i })
    let p := t.predict i
    t.modInd i (fun x => { x with hours := BitVec.ofNat 32 (p.getD 0xFFFFFFFF), noneP := p.isNone })) s
  let i := s.hlt.least
  let s := { s with hlt := { s.hlt with minInd := i, eol := (s.hlt.getInd i).hours, at_ := s.hours } }
  s.warnAll

/-- Recompute, or hold the work while the control pair restarts (R457, R23). -/
def State.recomputeAll (s : State) : State :=
  if s.glb.ctrlRestart then { s with hlt := { s.hlt with recompute := true } }
  else { s.predictAll with hlt := { s.predictAll.hlt with recompute := false } }

/-- The recompute that a control-pair restart held. -/
def State.heldRecompute (s : State) : State := if s.hlt.recompute then s.recomputeAll else s

/-- The recompute after service ready or kickstand, from what is kept. -/
def State.firstRecompute (s : State) (was : BitVec 4) : State :=
  if s.glb.phase != was && (s.glb.phase == 2 || s.glb.phase == 3) then
    s.recomputeAll
  else s

/-- HLT_CTL.RECOMPUTE with what it measures. -/
def State.recompute (s : State) (r : HourReport) : State :=
  (s.takeReport r).recomputeAll

/-- HLT_CTL.CELL_NEW: the charge stands at that of a new cell, and its indicator, the overall figure and its warning
follow (R457, R459). -/
def State.cellNew (s : State) : State :=
  let s := s.modInd 20 (fun x => { x with value := 1000000 })
  let p := s.predict 20
  let s := s.modInd 20 (fun x => { x with hours := BitVec.ofNat 32 (p.getD 0xFFFFFFFF), noneP := p.isNone })
  let i := s.hlt.least
  { s with hlt := { s.hlt with minInd := i, eol := (s.hlt.getInd i).hours } }.warn 20

/-- A write of HLT_THRESH. -/
def State.setThresh (s : State) (v : BitVec 32) : State := { s with hlt := { s.hlt with thresh := v } }.warnAll

/-! Operating hours (R444, R456, R470) -/

/-- The hourly measurement of the bank joins those the fit of indicator 19 is made from. -/
def State.keepEnergy (s : State) : State :=
  if !s.pwr.charged then s
  else { s with hlt := { s.hlt with
    energies := (s.hours, s.pwr.energy) :: s.hlt.energies.filter (fun p => s.hours < p.1 + 8760) } }

/-- OPERATING_HOUR. -/
def State.operatingHour (s : State) (r : HourReport) : State :=
  if !s.pwr.booted || s.pwr.holdup then s
  else
    let s := s.advance ((s.hours + 1) * 3600000)
    let s := s.tryPrf prfTime (fun p => { p with opTime := s.opTime })
    let s := { s with vlt := s.vlt.endHour, evr := s.evr.endHour
                      hlt := s.hlt.endHour s.prf.counts (hourWeight r.hottest) }.eraseDue
    ((s.measure r.dropMv r.volt).keepEnergy.takeReport r).recomputeAll

/-- PRF_COUNT_SAVE: the counts go to NOR every 24 operating hours. -/
def State.countSave (s : State) : State :=
  if !s.pwr.booted || s.pwr.holdup then s
  else
    let s := s.advance (ceilDiv s.opTime 86400000 * 86400000)
    { s with nor := { s.nor with prfCounts := s.prf.counts } }

/-- CELL_FITTED. Where the island had no supply it starts. -/
def State.cellFitted (s : State) : State :=
  if s.isl.cell then s
  else
    let s := { s with isl := { s.isl with cell := true } }.readsNormal 114
    if s.isl.main || s.lc == 2 then s
    else { s with isl := { s.isl with tick := 0, powerUps := s.isl.powerUps + 1 } }

/-! HEALTH_READ (R460) -/

/-- WARNED bits. -/
def Hlt.warned (h : Hlt) : Nat :=
  (h.inds.toList.zipIdx.filter (fun p => p.1.warned)).foldl (fun a p => a + 2 ^ p.2) 0

def Indicator.flags (x : Indicator) : Nat := bit x.warned + 2 * bit x.noneP

/-- The 384 bytes. -/
def State.healthBytes (s : State) : Bytes :=
  leBytes 4 s.hlt.eol.toNat ++ leBytes 1 s.hlt.minInd ++ leBytes 3 s.hlt.warned ++ leBytes 8 s.opTime
    ++ (List.range 23).flatMap (fun i =>
      let x := s.hlt.getInd i
      leBytes 4 x.hours.toNat ++ leBytes 4 x.value ++ leBytes 4 (indLimit i) ++ leBytes 4 x.flags)

def healthRead7 (m : Msg) : Option Final :=
  noKeys m <|> m.mustZero 40 24 <|> checkNoInput m <|> checkCap m 384

def healthReadAct (s : State) (_ : MsgRec) : Acted :=
  .ends (Final.good s.healthBytes) s

/-! INSTANCE_QUOTA (R119) -/

/-- A guarantee of Table 4.8: its bound, and the sum over all instances with it. -/
def State.guarBad (s : State) (m : Msg) (off bound : Nat) (g : InstRec → Nat) : Option Final :=
  let n := m.field 40 1
  let sum := ((List.range 256).map (fun i => if i == n then m.field off 1 else g (s.getInst i))).foldl (· + ·) 0
  failIf (m.field off 1 > bound || sum > bound) Status.paramRange off

def instanceQuota7 (s : State) (m : Msg) : Option Final :=
  noKeys m
  <|> failIf (m.field 41 1 == 0) Status.paramRange 41
  <|> s.guarBad m 42 96 InstRec.guarCipher
  <|> s.guarBad m 43 64 InstRec.guarDigest
  <|> s.guarBad m 44 30 InstRec.guarPk
  <|> m.mustZero 45 1
  <|> failIf (m.field 48 4 == 0 || m.field 48 4 > 262144) Status.paramRange 48
  <|> m.mustZero 52 12
  <|> checkNoInput m

def instanceQuotaAct (s : State) (r : MsgRec) : Acted :=
  let m := r.m
  .ends (Final.good []) (s.modInst (m.field 40 1) (fun i =>
    { i with weight := m.field 41 1, guarCipher := m.field 42 1, guarDigest := m.field 43 1, guarPk := m.field 44 1,
             flowLimit := m.field 46 2, outLimit := m.field 48 4 }))

/-! Status outputs and wake (R478) -/

/-- A level on an open-drain output, or on one the module drives. -/
inductive Pin where
  | low
  | released
deriving DecidableEq, Repr

/-- An open-drain status output: pulled low under its condition, released while the rails are off. -/
def State.statusPin (s : State) (low : Bool) : Pin := if s.pwr.rails != 0 && low then .low else .released

/-- STAT_READY#: GLB_STAT.PHASE is 0x2. -/
def State.statReady (s : State) : Pin := s.statusPin (s.glb.phase == 2)

/-- STAT_TAMPER#: an incident of class PAUSE or higher is open, or the unit is SPENT or lost. -/
def State.statTamper (s : State) : Pin := s.statusPin ((s.tmp.open_ && s.tmp.cls ≥ 1) || s.lc == 5 || s.lcs.lostCause != 0)

/-- STAT_HOLDUP#: from the loss signal until step 6 of the input-loss sequence. -/
def State.statHoldup (s : State) : Pin := s.statusPin s.pwr.holdup

/-- What the TAP of the service port can select (R403). -/
inductive TapReg where
  | bypass
  | idcode (value : BitVec 32)
  | debug (scope : Nat)
deriving DecidableEq, Repr

/-- BYPASS and IDCODE alone while no debug session is open; boundary scan never. -/
def State.tap (s : State) : List TapReg :=
  [.bypass, .idcode 0x1192F0B5] ++ (if s.lcs.debug == 0 then [] else [.debug s.lcs.debug])

/-- WAKE# is never asserted. -/
def wakePin : Pin := .released

/-- PRSNT1# and PRSNT2# are joined inside the module: what a seated carrier drives on one is on the other. -/
def presence (seated : Bool) (prsnt1 : Pin) : Pin := if seated then prsnt1 else .released

/-! SMBus (R479) -/

/-- The word of a command code. -/
def State.smbWord (s : State) (code : Nat) : BitVec 16 :=
  match code with
  | 1 => BitVec.ofNat 16 (s.glb.phase.toNat + 16 * s.lc)
  | 2 => s.pwr.voltage
  | 3 => s.pwr.avg1S
  | 4 => s.tmp.tempFabric.signExtend 16
  | 5 => s.tmp.tempControl.signExtend 16
  | 6 => BitVec.ofNat 16 s.pwr.energy
  | 7 => BitVec.ofNat 16 (min (s.hlt.eol.toNat / 24) 0xFFFF)
  | _ => BitVec.ofNat 16 (bit s.tmp.open_ + 2 * s.tmp.cls + 16 * bit s.pwr.holdup + 32 * bit s.pwr.throttleT)

/-- A Read Word of a command code, answered while the rails are on. -/
def State.smbRead (s : State) (code : Nat) : State :=
  if s.pwr.rails == 0 then { s with pwr := { s.pwr with smbReply := none } }
  else { s with pwr := { s.pwr with smbReply := some (s.smbWord code) } }

/-- The read of code 0x08 releases SMB_ALERT#. -/
def State.smbIncident (s : State) : State :=
  if s.pwr.rails == 0 then s.smbRead 8 else { s.smbRead 8 with pwr := { (s.smbRead 8).pwr with smbAlert := false } }

end Sys2Proof.Machine
end

