-- ==== Sys2Proof/Machine/Registers.lean ====
section
/-! DEFINITION. The register windows (R6 to R20, Table 1.4): the value every register of the manager window and of an
instance window shows, the pairs of R15, and register writes. -/

namespace Sys2Proof.Machine

/-! Global and island registers (R19, R20) -/

/-- GLB_CAP: 0 until the image is applied. -/
def State.capWord (s : State) : Nat :=
  let n := s.usableClusters.length
  if s.glb.imageApplied then n * 2 ^ 24 + 2 * n * 2 ^ 16 + 4 * n * 2 ^ 8 + 6 * n else 0

def State.glbReg (s : State) (o : Nat) : Option Nat :=
  match o with
  | 0x00 => some 0x5657192F
  | 0x04 => some (s.glb.fabricStep.toNat * 256 + s.glb.controlStep.toNat)
  | 0x08 => some (s.glb.serial.toNat % 2 ^ 32)
  | 0x0C => some (s.glb.serial.toNat / 2 ^ 32)
  | 0x10 => some s.capWord
  | 0x14 => some (s.glb.fenced.toNat * 65536 + s.glb.enabled.toNat)
  | 0x18 => some (s.glb.hubReset.toNat * 256 + bit (s.glb.fenced != 0) * 128 + bit s.glb.ctrlRestart * 64
                    + s.glb.phase.toNat)
  | 0x1C => some (s.glb.hubResets * 65536 + s.glb.ctrlRestarts)
  | 0x20 => some s.glb.contain
  | _ => none

def State.islReg (s : State) (o : Nat) : Option Nat :=
  match o with
  | 0 => some s.isl.tick.toNat
  | 4 => some (s.isl.journal.length * 256 + bit s.bbramValid * 4 + bit s.isl.cell * 2 + bit s.isl.main)
  | _ => none

/-! Configuration and persistent registers (R385, R386) -/

def CfgReport.word (r : CfgReport) (k : Nat) : Nat :=
  match k with
  | 0 => r.field * 65536 + r.reason
  | 1 => r.supplied % 2 ^ 32
  | 2 => r.applied % 2 ^ 32
  | _ => r.index * 65536

def State.cfgReg (s : State) (o : Nat) : Option Nat :=
  if 0x20 ≤ o && o < 0x50 then some (leAt s.cfg.digest (o - 0x20) 4)
  else if 0x1000 ≤ o && o < 0x3000 then
    some (((s.cfg.reports[(o - 0x1000) / 16]?).map (fun r => r.word (o % 16 / 4))).getD 0)
  else match o with
    | 0x00 => some s.cfgStat
    | 0x04 => some (s.cfg.version.toNat % 2 ^ 32)
    | 0x08 => some (s.cfg.version.toNat / 2 ^ 32)
    | 0x0C => some (s.cfg.fwRelease.toNat * 65536 + s.cfg.fwMin.toNat)
    | 0x10 => some (s.cfg.ignored * 65536 + s.cfg.applied)
    | 0x14 => some (s.cfg.lost * 65536 + s.cfg.reports.length)
    | 0x18 => some (bit s.nor.bankB.dirty * 2 ^ 31 + bit s.nor.bankA.dirty * 2 ^ 30 + s.cfg.writeBank * 2 ^ 24
                      + (s.bank s.cfg.writeBank).next)
    | 0x1C => some 0
    | _ => none

/-- PRF words at or above 80 % of the rating. -/
def Prf.warnWords (p : Prf) : Nat := (p.counts.filter (fun c => c.2 ≥ 80000000)).length

/-- The word with the highest count, the lowest index among equals. -/
def Prf.maxWord (p : Prf) : Nat :=
  match (p.counts.filter (fun c => c.2 == p.maxCount)).map (·.1) with
  | [] => 0
  | w :: r => r.foldl min w

def State.prsReg (s : State) (o : Nat) : Option Nat :=
  if 0x20 ≤ o && o < 0x40 then some ((s.prf.user.getD ((o - 0x20) / 4) 0).toNat)
  else match o with
    | 0x00 => some (bit (s.prf.maxCount ≥ 100000000) * 2 ^ 31 + bit (s.prf.warnWords != 0) * 2 ^ 30
                      + s.prf.warnWords * 65536 + s.prf.maxWord)
    | 0x04 => some s.prf.maxCount
    | 0x08 => some s.prf.sel.toNat
    | 0x0C => some (lookup0 s.prf.counts s.prf.sel.toNat)
    | 0x10 => some (s.prf.imageFloor.value.toNat % 2 ^ 32)
    | 0x14 => some (s.prf.imageFloor.value.toNat / 2 ^ 32)
    | 0x18 => some s.prf.fwFloor.value.toNat
    | 0x1C => some s.prf.cycles
    | _ => none

/-! Life cycle and tamper (R407, R428) -/

/-- LCS_STAT.ROOT. -/
def State.rootCode (s : State) : Nat := if s.otp.root == 0 then 0 else if s.rootValid then 1 else 2

/-- Scope of the current challenge. -/
def Lcs.scope (l : Lcs) : Nat := match l.challenge with | some c => byteAt c 4 | none => 0

def State.lcsReg (s : State) (o : Nat) : Option Nat :=
  if 0x100 ≤ o && o < 0x180 then some (leAt (s.lcs.challenge.getD []) (o - 0x100) 4)
  else match o with
    | 0x00 => some (s.lcs.lostCause * 2 ^ 24 + s.otp.trips * 2 ^ 16 + s.rootCode * 2 ^ 10 + s.lcs.debug * 256
                      + bit s.prf.transport.isSome * 128 + bit s.lcs.busy * 64 + s.lc)
    | 0x04 => some s.otp.rowsMap
    | 0x08 => some (min s.lcs.need 65535 * 65536 + min s.lcs.avail 65535)
    | 0x0C => some (min (s.opTime - s.lcs.unstableAt) 65535)
    | 0x10 => some (s.lcs.lastFrom * 2 ^ 24 + s.lcs.lastTo * 2 ^ 16 + s.lcs.lastStatus.toNat)
    | 0x14 => some (s.prf.dbgCount % 2 ^ 32)
    | 0x18 => some (s.prf.dbgCount / 2 ^ 32)
    | 0x1C => some (s.lcs.viol * 65536 + s.lcs.scope * 2 + bit s.lcs.closedViol)
    | 0x20 => some 0
    | _ => none

/-- TMP_MON(m) and TMP_MON_CNT(m). -/
def State.monWord (s : State) (m : Nat) : Nat :=
  let r := s.tmp.getMon m
  s.filterOf m * 2 ^ 24 + r.disagree * 256 + s.monClass m * 16 + bit r.atlas * 8 + bit r.luna * 4 + bit r.alarm * 2
    + bit (monPresent m)

def State.tmpReg (s : State) (o : Nat) : Option Nat :=
  if 0x1000 ≤ o && o < 0x1400 then
    let m := (o - 0x1000) / 8
    some (if o % 8 == 0 then s.monWord m else (s.tmp.getMon m).cntAtlas * 65536 + (s.tmp.getMon m).cntLuna)
  else match o with
    | 0x00 => some (bit s.tmp.recomNeeded * 65536 + s.tmp.state * 4096 + bit s.tmp.open_ * 2048 + s.tmp.cls * 256
                      + s.tmp.seen.toNat)
    | 0x04 => some s.tmp.incident.toNat
    | 0x08 => some s.isl.alarmSeq.toNat
    | 0x0C => some (s.tmp.folded * 65536 + s.tmp.alarms)
    | 0x10 => some s.tmp.disagree
    | 0x14 => some 0
    | 0x18 => some s.tmp.recom
    | 0x1C => some (s.isl.journalOver * 65536 + bit s.isl.deferred * 512 + s.isl.journal.length)
    | 0x20 => some (s.isl.cellMv.toNat * 65536 + bit s.isl.main * 512 + bit s.isl.cell * 256 + s.isl.temp.toNat)
    | 0x24 => some (s.tmp.tempFabric.toNat * 256 + s.tmp.tempControl.toNat)
    | _ => none

/-! Recorder, health and power (R461, R462, R481) -/

def State.evrReg (s : State) (o : Nat) : Option Nat :=
  match o with
  | 0x00 => some (s.evr.state * 2 ^ 26 + s.evr.stopCause * 2 ^ 24 + s.evr.hold.length * 65536 + s.evr.openBatch.length)
  | 0x04 => some ((s.evr.freezeEnd.map (fun t => t - s.opTime)).getD 0)
  | 0x08 => some s.evr.first
  | 0x0C => some s.evr.last
  | 0x10 => some s.evr.nextSeq.toNat
  | 0x14 => some (s.evr.displaced * 65536 + s.evr.discarded)
  | 0x18 => some s.evr.lost
  | 0x1C => some (s.evr.wearMax * 65536 + s.evr.wearAvg)
  | 0x20 => some (s.opTime % 2 ^ 32)
  | 0x24 => some (s.opTime / 2 ^ 32)
  | _ => none

def State.hltReg (s : State) (o : Nat) : Option Nat :=
  if 0x100 ≤ o && o < 0x100 + 23 * 16 then
    let i := (o - 0x100) / 16
    let x := s.hlt.getInd i
    some (match o % 16 / 4 with
      | 0 => x.hours.toNat
      | 1 => x.value
      | 2 => indLimit i
      | _ => x.flags)
  else match o with
    | 0x00 => some (bit (s.hlt.warned != 0) * 2 ^ 31 + s.hlt.minInd * 2 ^ 24 + s.hlt.warned)
    | 0x04 => some s.hlt.eol.toNat
    | 0x08 => some s.hlt.at_
    | 0x0C => some s.hlt.thresh.toNat
    | 0x10 => some (bit s.hlt.recompute * 2)
    | _ => none

def State.pwrReg (s : State) (o : Nat) : Option Nat :=
  let p := s.pwr
  match o with
  | 0x00 => some (bit p.throttleP * 128 + bit p.throttleT * 64 + bit p.charged * 32 + bit p.inputOk * 16 + bit p.holdup * 8
                    + p.state)
  | 0x04 => some (p.current.toNat * 65536 + p.voltage.toNat)
  | 0x08 => some (p.avg1Min.toNat * 65536 + p.avg1S.toNat)
  | 0x0C => some (p.bankVolt.toNat * 65536 + p.energy)
  | 0x10 => some p.bankAt
  | 0x14 => some p.rails.toNat
  | 0x18 => some (p.gated.toNat * 65536 + p.parked.toNat)
  | 0x1C => some (p.parks * 65536 + p.parkSeconds)
  | 0x20 => some p.conv.toNat
  | 0x24 => some s.isl.cellMean.toNat
  | 0x28 => some (p.lossIncomplete * 65536 + p.lossSeqs)
  | 0x2C => some (p.lastOutcome * 2 ^ 24 + p.lastTime)
  | 0x30 => some (p.perstCount * 65536 + p.coldCount)
  | 0x34 => some 0
  | _ => none

/-! Random and vault (R231, Table 10.16) -/

def Gen.word (g : Gen) : Nat :=
  bit g.seeded * 2 ^ 31 + bit g.marked * 2 ^ 30 + bit g.cause * 2 ^ 29 + g.queue.length / 64 * 65536 + g.reseeds

def State.rngReg (s : State) (o : Nat) : Option Nat :=
  if 0x10 ≤ o && o < 0x30 then
    let c := s.rng.cells.getD ((o - 0x10) / 4) (0, 0)
    some (min c.1 65535 * 65536 + c.2)
  else if 0x1000 ≤ o && o < 0x1400 then some (s.getInst ((o - 0x1000) / 4)).rngWait
  else if 0x2000 ≤ o && o < 0x2000 + 260 * 8 then
    let g := s.rng.getGen ((o - 0x2000) / 8)
    some (if o % 8 == 0 then g.word else g.calls)
  else match o with
    | 0x0 => some s.rng.stat
    | 0x4 => some (bit (s.rng.phase == 5 && s.rng.testing) )
    | 0x8 => some (s.rng.failLock * 65536 + s.rng.failLive)
    | 0xC => some (s.rng.failed * 65536 + s.rng.restarts)
    | _ => none

/-- Figures that a mount restores. -/
def State.ifMounted (s : State) (n : Nat) : Nat := if s.mounted then n else 0

def State.vltReg (s : State) (o : Nat) : Option Nat :=
  let v := s.vlt
  match o with
  | 0x00 => some (v.roCause * 65536 + bit (s.mounted && v.throttled) * 512 + bit (s.mounted && v.gc) * 256 + v.state)
  | 0x04 => some (v.rolled * 65536 + v.mountCause)
  | 0x08 => some (s.ifMounted s.vaultUnits % 2 ^ 32)
  | 0x0C => some (s.ifMounted s.vaultUnits / 2 ^ 32)
  | 0x10 => some (s.ifMounted v.objs.length % 2 ^ 32)
  | 0x14 => some (s.ifMounted v.objs.length / 2 ^ 32)
  | 0x18 => some (s.ifMounted v.seq % 2 ^ 32)
  | 0x1C => some (s.ifMounted v.seq / 2 ^ 32)
  | 0x20 => some (s.ifMounted (s.prf.ckptSlot * 2 ^ 27 + v.since))
  | 0x24 => some (s.ifMounted v.freeBlocks)
  | 0x28 => some v.retired
  | 0x2C => some (v.wearMax * 65536 + v.wearAvg)
  | 0x30 => some v.wearMin
  | 0x34 => some (v.prog % 2 ^ 32)
  | 0x38 => some (v.prog / 2 ^ 32)
  | 0x3C => some v.wa
  | 0x40 => some v.rate
  | 0x44 => some (v.failedBatches * 65536 + v.retried)
  | 0x48 => some (v.lostPages * 65536 + v.integFails)
  | 0x4C => some s.kcPinned
  | 0x50 => some (kcLines v.kc)
  | 0x54 => some (v.kcHit % 2 ^ 32)
  | 0x58 => some (v.kcHit / 2 ^ 32)
  | 0x5C => some (v.kcMiss % 2 ^ 32)
  | 0x60 => some (v.kcMiss / 2 ^ 32)
  | 0x64 => some (s.ifMounted s.deadHours)
  | 0x68 => some (v.qdrUncorr * 65536 + v.qdrCorr)
  | 0x6C => some (bit v.ckptBusy)
  | _ => none

/-! Scheduler (R113, R125) -/

/-- Engines that R29 holds for short public-key operations. -/
def State.pkHold (s : State) : Nat := if s.usableClusters.length < 2 then 1 else 2

/-- N_k: engines enabled, not fenced, not parked, less those held (R113). -/
def State.engineCount (s : State) (k : Nat) : Nat :=
  let n := ((s.usableClusters.filter (fun c => !s.cluParked c)).length) * kindCount k
  if k == 2 then n - s.pkHold else n

def InstRec.guarantee (i : InstRec) (k : Nat) : Nat :=
  if k == 0 then i.guarCipher else if k == 1 then i.guarDigest else i.guarPk

/-- S_k. -/
def State.guarSum (s : State) (k : Nat) : Nat := (s.inst.toList.map (fun i => i.guarantee k)).foldl (· + ·) 0

def State.shortfall (s : State) : Bool := [0, 1, 2].any (fun k => s.guarSum k > s.engineCount k)

/-- Positive and negative templates held, those being built and those whose second is over left out. -/
def State.templatesHeld (s : State) : List Template :=
  s.sch.templates.filter (fun t => !t.building && (t.status == 0 || s.opTime < t.expires))

def shareWord (weight pk digest cipher : Nat) : Nat := weight * 2 ^ 24 + pk * 65536 + digest * 256 + cipher

def State.schInst (s : State) (n o : Nat) : Option Nat :=
  let i := s.getInst n
  match o with
  | 0x00 => some (shareWord i.weight i.guarPk i.guarDigest i.guarCipher)
  | 0x04 => some i.flowLimit
  | 0x08 => some i.outLimit
  | 0x0C => some (s.admittedOf n)
  | 0x10 => some ((s.sch.flows.filter (fun f => f.inst == n && f.stale.isSome)).length * 65536 + s.flowsOf n)
  | 0x14 => some (i.busyDevice * 65536 + i.busyQuota)
  | 0x18 => some i.maxWait
  | 0x1C => some 0
  | _ => none

/-- SCH_CTL: while a write waits for a control-pair restart, what it wrote (R16). -/
def State.schCtl (s : State) : Nat :=
  match s.sch.heldWrites.getLast? with
  | some w => w.2.toNat % 65536 / 256 * 256 + w.2.toNat % 2
  | none => s.sch.fwIdle.toNat * 256 + bit s.sch.pack

def State.schReg (s : State) (o : Nat) : Option Nat :=
  if 0x1000 ≤ o && o < 0x3000 then s.schInst ((o - 0x1000) / 32) (o % 32)
  else match o with
    | 0x00 => some s.schCtl
    | 0x04 => some (bit s.shortfall * 2 ^ 31 + bit (s.pkHold == 1) * 2 ^ 30 + s.admittedAll)
    | 0x08 => some s.sch.flows.length
    | 0x0C => some ((s.templatesHeld.filter (fun t => t.status != 0)).length * 65536 + s.templatesHeld.length)
    | 0x10 => some (s.sch.tplHit % 2 ^ 32)
    | 0x14 => some (s.sch.tplHit / 2 ^ 32)
    | 0x18 => some (s.sch.tplMiss % 2 ^ 32)
    | 0x1C => some (s.sch.tplMiss / 2 ^ 32)
    | 0x20 => some (s.sch.busyDevice * 65536 + s.sch.busyQuota)
    | 0x24 => some (s.sch.busyNoEngine * 65536 + s.sch.busyFlows)
    | 0x28 => some (s.guarSum 2 * 65536 + s.guarSum 1 * 256 + s.guarSum 0)
    | 0x2C => some s.sch.replays
    | _ => none

/-! Clusters (R126, R169) -/

def CluState.code (c : CluState) : Nat :=
  match c with
  | .disabled => 0
  | .freewheel => 1
  | .running => 2
  | .fenced => 3
  | .parked => 4

/-- Slots that hold built-in programs (Table 6.5). -/
def builtinSlots : List Nat := List.range 19 ++ [20, 21, 22] ++ (List.range 6).map (· + 24)

/-- ALG of a built-in program: 0 AES; 1 TDEA; 2 either; 3 digest. -/
def builtinAlg (slot : Nat) : Nat :=
  match slot with
  | 14 => 2
  | 15 | 16 | 17 | 18 => 1
  | 20 | 21 | 22 | 29 => 3
  | 24 | 25 | 27 | 28 => 2
  | _ => 0

/-- The four words of a slot: description, laps for AES or digest and for TDEA, and identity. -/
def State.slotWords (s : State) (slot : Nat) : List Nat :=
  if builtinSlots.contains slot then
    let a := builtinAlg slot
    [(if a == 3 then 2 else 1) * 2 ^ 30 + a * 2 ^ 28 + 2 ^ 27 + (Config.builtinStart slot).toNat * 2 ^ 13
       + (Config.builtinLength slot).toNat,
     if a == 1 then 0 else 65536, if a == 1 || a == 2 then 65536 else 0, s.cfg.fwRelease.toNat]
  else match s.sch.programs.find? (fun p => p.slot == slot) with
    | some p => [p.kind * 2 ^ 30 + (if p.kind == 2 then 3 else p.alg) * 2 ^ 28 + p.start * 2 ^ 13 + p.words.length, p.lapA, p.lapT,
                 p.id * 65536 + p.version]
    | none => [0, 0, 0, 0]

def State.slotMap (s : State) (lo : Nat) : Nat :=
  ((List.range 32).map (fun i =>
    if builtinSlots.contains (lo + i) || s.sch.programs.any (fun p => p.slot == lo + i) then 2 ^ i else 0)).foldl (· + ·) 0

/-- The program store registers: 0 before the image is applied. -/
def State.storeReg (s : State) (c o : Nat) : Option Nat :=
  let now (n : Nat) : Option Nat := some (if s.glb.imageApplied then n else 0)
  if 0x200 ≤ o && o < 0x600 then now ((s.slotWords ((o - 0x200) / 16)).getD (o % 16 / 4) 0)
  else match o with
    | 0x100 => now ((Config.builtinWords.toNat + wordsUsed s.sch.programs) * 65536
                      + (builtinSlots.length + s.sch.programs.length))
    | 0x104 => now (s.slotMap 0)
    | 0x108 => now (s.slotMap 32)
    | 0x10C => now (s.getClu c).scrub
    | _ => none

/-- CLU_STAT.BUSY, after a fence as it was at fencing. -/
def State.busyBits (s : State) (c : Nat) : Nat :=
  if s.cluFenced c then (s.getClu c).heldBusy else ((s.busyEngines c).map (2 ^ ·)).foldl (· + ·) 0

def State.cluReg (s : State) (c o : Nat) : Option Nat :=
  let x := s.getClu c
  let v := match o with
    | 0x00 => some (s.busyBits c * 65536 + (s.cluState c).code)
    | 0x04 => some (x.faultEngine * 256 + x.faultCause)
    | 0x08 => some (x.laps % 2 ^ 32)
    | 0x0C => some (x.laps / 2 ^ 32)
    | 0x10 => some (x.pkops % 2 ^ 32)
    | 0x14 => some (x.pkops / 2 ^ 32)
    | 0x18 => some (if s.cluFenced c then x.heldKib else s.stageKib c)
    | 0x1C => some x.wakes
    | 0x20 => some (x.ceProg * 65536 + x.ceStage)
    | _ => s.storeReg c o
  -- The windows of a quadrant whose hub is being reset read 0 (R126).
  if s.hubBusy (c / 4) then v.map (fun _ => 0) else v

/-! Instances and link (R40, R55, R56) -/

def Watch.code (w : Watch) : Nat := match w with | .off => 0 | .coherent => 1 | .doorbell => 2
def InsState.code (i : InsState) : Nat :=
  match i with
  | .absent => 0
  | .ringsOff => 1
  | .ringsOn => 2
  | .resetting => 3

/-- The lower and upper word of a 64-bit address register. -/
def lowWord (v : BitVec 64) : Nat := v.toNat % 2 ^ 32
def highWord (v : BitVec 64) : Nat := v.toNat / 2 ^ 32

/-- The MSI-X table and pending bits in the window of a virtual function (R40; layout PRESUMED, log 9): two vectors of 16 bytes,
and 0 beyond them. -/
def InstRec.msixReg (i : InstRec) (o : Nat) : Option Nat :=
  if 0x3000 ≤ o && o < 0x3800 && o % 4 == 0 then some (i.msix.getD ((o - 0x3000) / 4) 0).toNat
  else if o == 0x3800 then some i.msixPend.toNat
  else if 0x3800 ≤ o && o < 0x4000 && o % 4 == 0 then some 0
  else none

/-- Ring registers of an instance (VF BAR0, or the MBX ring). -/
def State.ringReg (s : State) (n o : Nat) : Option Nat :=
  let r := (s.getInst n).rings
  match o with
  | 0x0000 => some (lowWord r.sqBase)
  | 0x0004 => some (highWord r.sqBase)
  | 0x0008 => some r.sqLog2.toNat
  | 0x000C => some (lowWord r.cqBase)
  | 0x0010 => some (highWord r.cqBase)
  | 0x0014 => some r.cqLog2.toNat
  | 0x0018 => some (bit r.en)
  | 0x1000 => some 0
  | 0x1004 => some 0
  | 0x2000 => some (bit (s.lnk.mode == 2) * 256 + bit r.ringFault * 16 + bit r.cfgErr * 8 + r.watch.code * 2 + bit r.ringOn)
  | 0x2004 => some (bit (s.domainOf n).isSome * 2 ^ 31 + (s.domainOf n).getD 0)
  | _ => if n == 0 then none else (s.getInst n).msixReg o

def Dirty.reg (d : Dirty) (o : Nat) : Option Nat :=
  match o with
  | 0x10 => some (bit d.error * 16 + bit d.overflow * 8 + bit d.active * 4 + bit d.swap * 2 + bit d.en)
  | 0x14 => some (lowWord d.mapA)
  | 0x18 => some (highWord d.mapA)
  | 0x1C => some (lowWord d.mapB)
  | 0x20 => some (highWord d.mapB)
  | 0x24 => some (lowWord d.base)
  | 0x28 => some (highWord d.base)
  | 0x2C => some d.pages.toNat
  | 0x30 => some d.count
  | _ => none

def State.insReg (s : State) (o : Nat) : Option Nat :=
  let n := o / 64
  let i := s.getInst n
  if n ≥ 256 then none
  else match o % 64 with
    | 0x00 => some ((s.domainOf n).getD 0 * 65536 + bit (s.domainOf n).isSome * 512 + i.rings.watch.code * 64
                      + i.state.code)
    | 0x04 => some (bit i.forceDb)
    | 0x08 => some (lowWord i.tailHpa)
    | 0x0C => some (highWord i.tailHpa)
    | k => (i.dirty.reg k).map (fun v => if n == 0 then 0 else v)

/-- LNK_FALLBACK. -/
def Lnk.fallback (l : Lnk) : Nat :=
  bit (l.mode == 2 && !l.cacheEn) * 16 + bit l.fbAri * 8 + bit l.fbWidth * 4 + bit l.fbRate * 2 + bit l.fbPcie

def State.lnkReg (s : State) (o : Nat) : Option Nat :=
  if 0x1000 ≤ o && o < 0x2000 then
    let i := s.getInst ((o - 0x1000) / 16)
    match o % 16 / 4 with
    | 0 => some i.violReg
    | 1 => some (i.violDma * 65536 + i.violLink)
    | 2 => some (i.violRing * 65536 + i.violAmp)
    | _ => none
  else match o with
    | 0x00 => some s.lnk.stat
    | 0x04 => some s.lnk.fallback
    | 0x08 => some (s.lnk.lossHot * 65536 + s.lnk.lossSurprise)
    | 0x0C => some (s.lnk.ideCacheFail * 65536 + s.lnk.ideIoFail)
    | 0x10 => some 0
    | _ => none

/-! Access control (R443) -/

def Region.word (r : Region) (k : Nat) : Nat :=
  match k with
  | 0 => r.start.toNat % 2 ^ 32
  | 1 => r.start.toNat / 2 ^ 32
  | 2 => r.fin.toNat % 2 ^ 32
  | 3 => r.fin.toNat / 2 ^ 32
  | 4 => bit r.valid * 2 ^ 31 + r.rights.toNat
  | _ => 0

/-- A word of an active descriptor; with three different copies a free value of them (log 55). -/
def activeWord (t : Triple Region) (k : Nat) : Nat :=
  match t.vote with
  | some r => r.word k
  | none => Config.splitField (t.a.word k) (t.b.word k) (t.c.word k) % 2 ^ 32

def AcuUnit.reg (a : AcuUnit) (o : Nat) : Option Nat :=
  if o < 0x400 then some ((a.staged.toList.getD (o / 32) Region.reset).word (o % 32 / 4))
  else if o < 0x800 then some (activeWord (a.active.toList.getD ((o - 0x400) / 32) (Triple.all Region.reset)) (o % 32 / 4))
  else match o with
    | 0x800 => some 0
    | 0x804 => some (a.gen * 65536 + a.checkRegion * 256 + bit a.closed * 16 + a.check)
    | 0x808 => some (a.capAddr.toNat % 2 ^ 32)
    | 0x80C => some (a.capAddr.toNat / 2 ^ 32)
    | 0x810 => some (bit a.capValid * 2 ^ 31 + a.capKind * 2 ^ 29 + a.capLevel * 2 ^ 27 + a.capLen * 65536
                       + a.capRegion * 256)
    | 0x814 => some a.capCount
    | 0x818 => some a.viol
    | _ => none

/-- A bit for each unit. -/
def State.unitMap (s : State) (f : AcuUnit → Bool) : Nat :=
  ((List.range 21).map (fun u => if f (s.getAcu u) then 2 ^ u else 0)).foldl (· + ·) 0

def State.acuReg (s : State) (o : Nat) : Option Nat :=
  if o < 21 * 0xC00 then (s.getAcu (o / 0xC00)).reg (o % 0xC00)
  else if o == 0xFC00 then some (s.unitMap AcuUnit.closed)
  else if o == 0xFC04 then some (s.unitMap AcuUnit.fail)
  else none

/-! The windows -/

/-- A register of the manager window by its aligned offset but for its requests that wait; none where no register is defined (R18). -/
def State.mgrWord (s : State) (a : Nat) : Option Nat :=
  let o := a % 65536
  match a / 65536 with
  | 0x0 => s.glbReg o
  | 0x1 => s.cfgReg o
  | 0x2 => s.prsReg o
  | 0x3 => s.lcsReg o
  | 0x4 => s.tmpReg o
  | 0x5 => s.evrReg o
  | 0x6 => s.hltReg o
  | 0x7 => s.pwrReg o
  | 0x8 => s.rngReg o
  | 0x9 => s.vltReg o
  | 0xA => s.schReg o
  | 0xB => s.insReg o
  | 0xC => s.acuReg o
  | 0xD => s.lnkReg o
  | 0xE => s.islReg o
  | k => if 0x10 ≤ k && k < 0x20 then s.cluReg (k - 0x10) o
         else if 0x100 ≤ k && k < 0x400 then s.ringReg 0 (a - 0x1000000)
         else none

/-- The write-one-to-set bits of a register that the host has set and that are not carried out yet (R11). -/
def State.waitingBits (s : State) (a : Nat) : BitVec 32 :=
  s.setAgain.foldl (fun b x => if x.2.1 == a then b ||| x.2.2 else b) 0

/-- A register of the manager window by its aligned offset; none where no register is defined (R18). -/
def State.mgrReg (s : State) (a : Nat) : Option Nat :=
  (s.mgrWord a).map (fun v => if s.setAgain.isEmpty then v else v ||| (s.waitingBits a).toNat)

/-- A register as a host instance reaches it: instance 0 the manager window, the others their own. -/
def State.hostReg (s : State) (n a : Nat) : Option Nat := if n == 0 then s.mgrReg a else s.ringReg n a

/-- The value a read of a register returns: no register, or a guarded one, reads 0 (R9, R18). -/
def State.readReg (s : State) (n a : Nat) : BitVec 32 :=
  if n == 0 && guardedOffset a then 0 else BitVec.ofNat 32 ((s.hostReg n a).getD 0)

/-- What an internal master reads of an allowed access of up to 8 bytes: the registers as they stand; the bytes of any other memory, whose
layout the specification does not give, are a free value (log 86). -/
def State.internalRead (s : State) (start len : Nat) : BitVec 64 :=
  let word (a : Nat) : BitVec 32 := BitVec.ofNat 32 ((s.mgrReg a).getD 0)
  if start < 0x4000000 then
    let a := start - start % 4
    let w : BitVec 96 := word (a + 8) ++ word (a + 4) ++ word a
    (w >>> (8 * (start % 4))).setWidth 64 &&& ((BitVec.allOnes 64) >>> (64 - 8 * min len 8))
  else Config.memoryRead s.draw start

/-- A read of an internal master returns what it read, when it is allowed and of at most 8 bytes, which the reply holds. -/
def State.internalReply (s : State) (u level kind start len : Nat) : State :=
  if kind == 1 || len > 8 || !s.accessAllowed u level kind start len then s
  else { s with reply := some (s.internalRead start len), draw := s.draw + bit (start ≥ 0x4000000) }

/-- ACCESS_VIOLATION: an access of an internal master with what it returns (R433, R435). -/
def State.internalAccess (s : State) (a : Access) : State :=
  let kind := accCode a.kind
  (s.internalReply a.unit.val a.level.val kind a.start.toNat a.len).access a.unit.val a.level.val kind a.start.toNat a.len

/-- DEBUG_ACCESS with what it returns. -/
def State.debugRead (s : State) (k : AccKind) (start len : Nat) : State :=
  if s.pwr.booted then (s.internalReply 20 s.debugLevel (accCode k) start len).debugAccess k start len else s

/-! Pairs (R15) -/

/-- Lower registers of the pairs of the manager window. -/
def pairLow (a : Nat) : Bool :=
  [0x8, 0x10004, 0x20010, 0x30014, 0x50020, 0x90008, 0x90010, 0x90018, 0x90034, 0x90054, 0x9005C, 0xA0010,
   0xA0018].contains a
  || (0x100000 ≤ a && a < 0x200000 && (a % 65536 == 0x8 || a % 65536 == 0x10))

/-- An aligned dword of a space of a function, as its register stands; none where no register is defined. -/
def State.spaceReg (s : State) (n : Nat) (sp : RegSpace) (a : Nat) : Option Nat :=
  match sp with
  | .bar0 => if n == 0 && guardedOffset a then none else s.hostReg n a
  | .bar2 => if n == 0 then s.componentReg a else none
  | .bar4 => if n == 0 then s.msixPfReg a else none
  | .config => s.cfgSpace n a

/-- A register access of a host instance that the address decode forwards inward: one of instance 0 to a register of the manager window.
The other windows, BAR2, BAR4 and configuration space are the host link's own (R429; DEDUCED, log 86). -/
def State.forwards (s : State) (n : Nat) (sp : RegSpace) (a : Nat) : Bool := n == 0 && sp == .bar0 && (s.mgrReg a).isSome

/-- Such an access is refused by unit 3: the state after the refusal (R431, R436). -/
def State.unitStops (s : State) (n : Nat) (sp : RegSpace) (kind a : Nat) : Option State :=
  if s.forwards n sp a then s.hostRefused kind a 4 else none

/-- One 32-bit register read: the lower register of a pair latches the upper, the upper returns and releases a latch (R15). No
register, or a guarded one, reads 0 and is a violation (R9, R18); in configuration space, an Unsupported Request (R46). What unit 3
refuses reads 0 (R433). -/
def State.readWord (s : State) (n : Nat) (sp : RegSpace) (a : Nat) : BitVec 32 × State :=
  match s.unitStops n sp 0 a with
  | some t => (0, t)
  | none => match s.spaceReg n sp a with
  | none => (0, if sp == .config then s.unsupported n a else s.violation n violReg a)
  | some v =>
    let w := BitVec.ofNat 32 v
    if sp != .bar0 || n != 0 then (w, s)
    else if pairLow a then
      (w, s.modInst n (fun i => { i with latches := i.latches.filter (fun p => p.1 != a + 4) ++ [(a + 4, s.readReg n (a + 4))] }))
    else match (s.getInst n).latches.find? (fun p => p.1 == a) with
      | some p => (p.2, s.modInst n (fun i => { i with latches := i.latches.filter (fun p => p.1 != a) }))
      | none => (w, s)

/-- The host can reach a space of a function: a BAR as reachable says, configuration space where the function exists. -/
def State.reaches (s : State) (n : Nat) (sp : RegSpace) : Bool :=
  if sp == .config then s.hostUp && (n == 0 || (s.getInst n).exists_) else s.reachable n

/-- A read of 1, 2, 4 or 8 bytes (R6): a narrow one returns the addressed bytes, an aligned 64-bit one is two words, the lower
address first, and an unaligned one is counted and returns 0. Configuration space has no request beyond a dword. -/
def State.regRead (s : State) (inst : Fin 256) (r : RegRead) : State :=
  let n := inst.val
  let a := r.offset.toNat
  if !s.reaches n r.space then s.unreached n a
  else if a % r.size != 0 then { s.violation n violReg a with reply := some 0 }
  else if r.size == 8 then
    if r.space == .config then s.unsupported n a
    else
      let lo := s.readWord n r.space a
      let hi := lo.2.readWord n r.space (a + 4)
      { hi.2 with reply := some (hi.1 ++ lo.1) }
  else
    let w := s.readWord n r.space (a - a % 4)
    if r.space == .config && (s.spaceReg n r.space (a - a % 4)).isNone then w.2
    else { w.2 with reply := some (((w.1 >>> (8 * (a % 4))) &&& laneMask 0 r.size).setWidth 64) }

/-! Writes of an instance window (R40, R41) -/

/-- One half of an address register written. -/
def setHalf (v : BitVec 64) (high : Bool) (x : BitVec 32) (keep : Nat) : BitVec 64 :=
  if high then BitVec.ofNat 64 (x.toNat * 2 ^ 32 + v.toNat % 2 ^ 32)
  else BitVec.ofNat 64 (v.toNat / 2 ^ 32 * 2 ^ 32 + x.toNat / 2 ^ keep * 2 ^ keep)

def Rings.write (r : Rings) (o : Nat) (v : BitVec 32) : Rings :=
  match o with
  | 0x00 => { r with sqBase := setHalf r.sqBase false v 6 }
  | 0x04 => { r with sqBase := setHalf r.sqBase true v 0 }
  | 0x08 => { r with sqLog2 := v.setWidth 5 }
  | 0x0C => { r with cqBase := setHalf r.cqBase false v 6 }
  | 0x10 => { r with cqBase := setHalf r.cqBase true v 0 }
  | 0x14 => { r with cqLog2 := v.setWidth 5 }
  | _ => r

/-- A write of the MSI-X window of a virtual function: the table takes it, and a vector that was pending is sent when its mask
is cleared; the pending bits are read-only. -/
def State.msixWrite (s : State) (n o : Nat) (v : BitVec 32) : State :=
  let k := (o - 0x3000) / 4
  (s.modInst n (fun i => { i with msix := i.msix.set k (msixStored k v) })).sendPending n

/-- A write of an instance's window. While EN is 1 the base and size registers ignore writes, which count; while the messages
of the last enabling still drain they ignore them too, since the completions go to the ring whose registers stand (R41; DEDUCED,
log 56: that such a write counts no violation). -/
def State.ringWrite (s : State) (n o : Nat) (v : BitVec 32) : State :=
  let at_ := if n == 0 then o + 0x1000000 else o
  let r := (s.getInst n).rings
  if o < 0x18 && o % 4 == 0 then
    if r.en then s.violation n violReg at_ else if r.ringOn then s else s.modRings n (fun r => r.write o v)
  else match o with
    | 0x0018 => if v.getLsbD 0 then s.ringEnable n else s.ringDisable n
    | 0x1000 => s.doorbell n true (v.toNat % 65536)
    | 0x1004 => s.doorbell n false (v.toNat % 65536)
    | 0x2000 => s
    | 0x2004 => s
    | _ => if n != 0 && 0x3000 ≤ o && o < 0x4000 then s.msixWrite n o v else s.violation n violReg at_

/-! Writes of the manager window -/

/-- PRS_USER(i) (R384, R386): a refused write leaves the word. -/
def State.prsUser (s : State) (i : Nat) (v : BitVec 32) : State :=
  s.tryPrf (prfUser i) (fun p => { p with user := p.user.set i v })

/-- LNK_VIOL_CLR. -/
def State.violClear (s : State) (v : BitVec 32) : State :=
  if v.getLsbD 8 then s.mapInst InstRec.clearViol
  else s.modInst (v.toNat % 256) InstRec.clearViol

/-- Address registers of dirty logging. -/
def Dirty.write (d : Dirty) (o : Nat) (v : BitVec 32) : Dirty :=
  match o with
  | 0x14 => { d with mapA := setHalf d.mapA false v 6 }
  | 0x18 => { d with mapA := setHalf d.mapA true v 0 }
  | 0x1C => { d with mapB := setHalf d.mapB false v 6 }
  | 0x20 => { d with mapB := setHalf d.mapB true v 0 }
  | 0x24 => { d with base := setHalf d.base false v 12 }
  | 0x28 => { d with base := setHalf d.base true v 0 }
  | 0x2C => { d with pages := v }
  | _ => d

/-- Bit k of a W1C field after a write: cleared by 1, unless the module sets it in the same cycle (R11). -/
def clearedBy (old : Bool) (v again : BitVec 32) (k : Nat) : Bool := again.getLsbD k || (old && !v.getLsbD k)

/-- INS_DIRTY_CTL: errors cleared by 1, logging switched, the swap last. An error or an overflow of the same cycle prevails over
the clear (R11), and such an error clears EN. -/
def State.dirtyCtl (s : State) (n : Nat) (v again : BitVec 32) : State :=
  let s := s.modInst n (fun i => { i with dirty :=
    { i.dirty with error := clearedBy i.dirty.error v again 4, overflow := clearedBy i.dirty.overflow v again 3 } })
  let s := if v.getLsbD 0 == (s.getInst n).dirty.en then s else s.dirtyEnable n (v.getLsbD 0)
  let s := if again.getLsbD 4 then s.modInst n (fun i => { i with dirty := { i.dirty with en := false } }) else s
  if v.getLsbD 1 then s.dirtySwap n else s

def State.insWrite (s : State) (o : Nat) (v again : BitVec 32) : State :=
  let n := o / 64
  match o % 64 with
  | 0x04 => s.modInst n (fun i => { i with forceDb := v.getLsbD 0 })
  | 0x08 => s.modInst n (fun i => { i with tailHpa := setHalf i.tailHpa false v 6 })
  | 0x0C => s.modInst n (fun i => { i with tailHpa := setHalf i.tailHpa true (v &&& 0xFFFFF) 0 })
  | 0x10 => if n == 0 then s else s.dirtyCtl n v again
  | k =>
    if n == 0 || k < 0x14 || k > 0x2C then s
    else if (s.getInst n).dirty.en then s.violation 0 violReg (0xB0000 + o)
    else s.modInst n (fun i => { i with dirty := i.dirty.write k v })

/-- A staged region written by its words. X is stored for units 0 and 1 alone (R434). -/
def Region.write (r : Region) (u k : Nat) (v : BitVec 32) : Region :=
  match k with
  | 0 => { r with start := BitVec.ofNat 44 (r.start.toNat / 2 ^ 32 * 2 ^ 32 + v.toNat) }
  | 1 => { r with start := BitVec.ofNat 44 (v.toNat % 4096 * 2 ^ 32 + r.start.toNat % 2 ^ 32) }
  | 2 => { r with fin := BitVec.ofNat 44 (r.fin.toNat / 2 ^ 32 * 2 ^ 32 + v.toNat) }
  | 3 => { r with fin := BitVec.ofNat 44 (v.toNat % 4096 * 2 ^ 32 + r.fin.toNat % 2 ^ 32) }
  | 4 => { r with valid := v.getLsbD 31, rights := v.setWidth 12 &&& (if u ≤ 1 then 0xFFF else 0x6DB) }
  | _ => r

/-- ACU registers; the guarded ones only for a master that the guard lets write. Now is a capture of the same cycle (R11). -/
def State.acuWrite (s : State) (m : Master) (o : Nat) (v again : BitVec 32) (now : Option Access) : State :=
  if o == 0xFC04 then
    (List.range 21).foldl (fun t u => t.modAcu u (fun a => { a with fail := clearedBy a.fail v again u })) s
  else
    let u := o / 0xC00
    let k := o % 0xC00
    if u ≥ 21 then s
    else if k < 0x400 then
      s.modAcu u (fun a =>
        let r := (a.staged.toList.getD (k / 32) Region.reset).write u (k % 32 / 4) v
        { a with staged := a.staged.setIfInBounds (k / 32) r })
    else if k == 0x800 then
      let s := if v.getLsbD 1 then s.closeBy u m else s
      if v.getLsbD 0 then s.activateBy u m else s
    else if k == 0x810 && v.getLsbD 31 then s.captureClear u now
    else s

/-- A register of the manager window written. Registers of rows of their own take the same operations; a measurement
that the row would carry is taken as what it last was. Again holds the W1C bits that the module sets in the same cycle, and now the
capture (R11). -/
def State.mgrTake (s : State) (m : Master) (a : Nat) (v again : BitVec 32) (now : Option Access) : State :=
  if 0x20020 ≤ a && a < 0x20040 then s.prsUser ((a - 0x20020) / 4) v
  else if 0xB0000 ≤ a && a < 0xB4000 then s.insWrite (a - 0xB0000) v again
  else if 0xC0000 ≤ a && a < 0xD0000 then s.acuWrite m (a - 0xC0000) v again now
  else if 0x1000000 ≤ a && a < 0x4000000 then s.ringWrite 0 (a - 0x1000000) v
  else match a with
    | 0x1001C => s.cfgCtl v { storeFail := [], selfFail := [] }
    | 0x20008 => { s with prf := { s.prf with sel := v.setWidth 11 } }
    | 0x30020 => if v.getLsbD 0 then s.dbgClose else s
    | 0x40000 => { s with tmp := { s.tmp with seen := (s.tmp.seen &&& ~~~(v.setWidth 5)) ||| again.setWidth 5 } }
    | 0x40014 => s.recommission v
    | 0x6000C => s.setThresh v
    | 0x60010 =>
      let s := if v.getLsbD 0 then s.cellNew else s
      if v.getLsbD 1 then s.recomputeAll else s
    | 0x70034 => if v.getLsbD 0 then s.remeasure none else s
    | 0x80004 => if v.getLsbD 0 then s.retest else s
    | 0x9006C => if v.getLsbD 0 then s.ckptRequest else s
    | 0xA0000 =>
      if s.glb.ctrlRestart then { s with sch := { s.sch with heldWrites := s.sch.heldWrites ++ [(a, v)] } }
      else s.writeSchCtl v
    | 0xD0010 => s.violClear v
    | _ => s

/-- The write-one-to-set bits of a register of the manager window: SWAP, RETEST, CHECKPOINT, DBG_CLOSE, CLOSE and ACTIVATE, RECOMPUTE and
CELL_NEW, MEASURE. -/
def setBits (a : Nat) : BitVec 32 :=
  if 0xB0040 ≤ a && a < 0xB4000 && a % 64 == 0x10 then 2
  else if 0xC0000 ≤ a && a < 0xCFC00 && (a - 0xC0000) % 0xC00 == 0x800 then 3
  else match a with
    | 0x80004 => 1
    | 0x9006C => 1
    | 0x30020 => 1
    | 0x60010 => 3
    | 0x70034 => 1
    | _ => 0

/-- A write of the manager window. A write-one-to-set bit that the module clears in the cycle of the write stays set (R11): it reads 1, and
what it asks for is done anew with the next command. -/
def State.mgrWrite (s : State) (m : Master) (a : Nat) (v again : BitVec 32) (now : Option Access) : State :=
  let kept := v &&& again &&& setBits a
  let t := s.mgrTake m a (v &&& ~~~kept) again now
  if kept == 0 then t else { t with setAgain := t.setAgain ++ [(m, a, kept)] }

/-- The requests that stood before a command are carried out with it. -/
def State.carryOut (s old : State) : State :=
  old.setAgain.foldl (fun t x => if t.setAgain.contains x then { t with setAgain := t.setAgain.erase x }.mgrTake x.1 x.2.1 x.2.2 0 none else t) s

/-- One aligned 32-bit write by a host instance: no register there, or a guarded one, counts a violation; what unit 3 refuses is ignored
(R433). -/
def State.hostWord (s : State) (n : Nat) (sp : RegSpace) (a : Nat) (v again : BitVec 32) (now : Option Access) : State :=
  match s.unitStops n sp 1 a with
  | some t => t
  | none =>
  if (s.spaceReg n sp a).isNone then s.violation n violReg a
  else match sp with
    | .bar0 => if n == 0 then s.mgrWrite (.host 0) a v again now else s.ringWrite n a v
    | .bar2 => s.modPf (fun p => p.componentWrite a v)
    | .bar4 => s.msixPfWrite a v
    | .config => s

/-- One aligned 32-bit write by an internal unit, checked by its access-control unit and the guards (R429 to R435). -/
def State.unitWord (s : State) (u : Fin 21) (l : Fin 4) (a : Nat) (v again : BitVec 32) (now : Option Access) : State :=
  if s.accessAllowed u.val l.val 1 a 4 then s.mgrWrite (.unit u l) a v again now else s.access u.val l.val 1 a 4

/-- One aligned 32-bit write. The hardware of the custody world passes no unit, and every guard (R429, R435). -/
def State.regWord (s : State) (m : Master) (sp : RegSpace) (a : Nat) (v again : BitVec 32) (now : Option Access) : State :=
  match m with
  | .host n => s.hostWord n.val sp a v again now
  | .unit u l => s.unitWord u l a v again now
  | .custody => s.mgrWrite .custody a v again now

/-- A configuration write of 1, 2 or 4 bytes within a dword; anything else, or no register, is an Unsupported Request (R46). -/
def State.cfgWrite (s : State) (n a size : Nat) (v : BitVec 64) : State :=
  if a % size != 0 || size == 8 || (s.cfgSpace n (a - a % 4)).isNone then s.unsupported n a
  else s.cfgSpaceWrite n (a - a % 4) (v.setWidth 32 <<< (8 * (a % 4))) (laneMask a size)

/-- A write of 1, 2, 4 or 8 bytes (R6): narrow and unaligned ones are ignored and counted, an aligned 64-bit one is two
words, the lower address first. An internal unit is no instance, and R6 counts for the issuing instance alone: its narrow or
unaligned write is ignored without a count, without a record, and before its access-control unit checks it (DESIGN CHOICE,
log 57). -/
def State.regWrite (s : State) (w : RegWrite) : State :=
  let a := w.offset.toNat
  let up := match w.master with | .host n => s.reaches n.val w.space | _ => s.pwr.booted
  if !up then match w.master with | .host n => s.unreached n.val a | _ => s
  else match w.master, w.space with
    | .host n, .config => s.cfgWrite n.val a w.size w.value
    | _, _ =>
      if w.size == 4 && a % 4 == 0 then s.regWord w.master w.space a (w.value.setWidth 32) (w.again.setWidth 32) w.capture
      else if w.size == 8 && a % 8 == 0 then
        (s.regWord w.master w.space a (w.value.setWidth 32) (w.again.setWidth 32) w.capture).regWord w.master w.space (a + 4)
          ((w.value >>> 32).setWidth 32) ((w.again >>> 32).setWidth 32) w.capture
      else match w.master with
        | .host n => s.violation n.val violReg a
        | _ => s

end Sys2Proof.Machine
end

