-- ==== Sys2Proof/Machine/Jobs.lean ====
section
/-! DEFINITION. What a data message runs with: its flow or template, its job, the keys and usage bits its opcode needs
(R138, R174, R202, R326), its engine time and the random bytes it draws. -/

namespace Sys2Proof.Machine

/-! The job of a message (R100, R104) -/

/-- The flow a data message names. -/
def State.flowOf (s : State) (r : MsgRec) : Option Flow := r.flow.bind (s.findFlow r.inst)

/-- The open stream of a segment. -/
def State.streamOf (s : State) (r : MsgRec) : Option Stream :=
  if s.inStream r then (s.flowOf r).bind (·.stream) else none

/-- The loaded program in a slot (R163). -/
def State.program (s : State) (slot : Nat) : Option Program :=
  if slot < 36 || slot > 63 then none else s.sch.programs.find? (fun p => p.slot == slot)

/-- What a record adds to its template: TAG_LEN, ALG and PAD (R360). -/
def MsgRec.extra (r : MsgRec) : Bytes :=
  match r.zrm with
  | some b => zrmExtra (fieldD b 0 4) b
  | none => []

/-- The job of a message whose keys, if known, are in its record. An implicit flow has the built-in program, default
padding, ROUTE 0 and zero FPARAM (R104), but for what a record adds. -/
def State.jobOf (s : State) (r : MsgRec) : Job :=
  let f := s.flowOf r
  let st := s.streamOf r
  let x := r.extra
  { op := r.op
    slot := (f.map (·.slot)).getD 0xFF
    pad := (f.map (·.pad)).getD (if x.isEmpty then 0xFF else byteAt x 2)
    route := (f.map (·.route)).getD 0
    fp := (f.map (·.fparam)).getD (fit 16 (x.take 2))
    keyA := r.keyA
    keyB := r.keyB
    p := (st.map (·.params)).getD r.m.pBlock
    seg := r.m.seg
    total := (st.map (·.declared)).getD r.m.inLen
    prog := f.bind (fun f => s.program f.slot) }

/-- Built-in slot of an opcode for a key (Table 6.5); 0xFF for public-key opcodes. -/
def builtinSlot (o : Op) (fp : Bytes) (tdea : Bool) : Nat :=
  if o.family == 2 then cipherSlot o fp tdea
  else if o.family == 3 then digestSlot o
  else if o.family == 7 then txSlot o
  else 0xFF

/-! Keys (R97, R138, R174, R176, R202, R326) -/

/-- KEY_A is needed, KEY_B is needed. A public-key opcode of Table 8.5 may do without KEY_A. -/
def Op.usesA (o : Op) : Bool := o.isData && o.takesA && !Op.keyOptional o
def Op.usesB (o : Op) : Bool := o.takesB || (o.family == 7 && Op.txTakesB o)

/-- The handle fields of a data message with FLOW_ID 0, or of a FLOW_OPEN for the opcode (R67, R97). KEY_B is left to step
8 where a loaded program takes two keys and the opcode does not (R167). -/
def checkHandles (o : Op) (m : Msg) (twoKeys : Bool) : Option Final :=
  (if Op.usesA o then needKey m.keyA 28 else if Op.keyOptional o then none else needNone m.keyA 28)
  <|> (if Op.usesB o then needKey m.keyB 33 else if twoKeys then none else needNone m.keyB 33)

/-- Usage bits that the key of a data opcode of families 0x02 to 0x04 needs (Tables 5.5, 7.3 and 8.5). -/
def usageBits (o : Op) (route : Nat) : List Nat :=
  match o with
  | .ofbCrypt | .ctrCrypt => [0, 1]
  | .ecbDecrypt | .cbcDecrypt | .cfbDecrypt | .xtsDecrypt | .gcmDecrypt | .ccmDecrypt | .rsaDecrypt => [1]
  | .dataWrap => [2]
  | .dataUnwrap => [3]
  | .cmacGenerate | .iso9797Generate => [4]
  | .cmacVerify | .iso9797Verify | .hmacVerify => [5]
  | .hmacGenerate => if route == 1 then [11] else [4]
  | .rsaSign | .ecdsaSign | .ed25519Sign | .mldsaSign => [6]
  | .rsaVerify | .ecdsaVerify | .ed25519Verify | .mldsaVerify => [7]
  | .ecdh | .x25519 => [8]
  | .mlkemEncaps => [9]
  | .mlkemDecaps => [10]
  | _ => [0]

/-- The parts of a TDEA key differ, whatever uses it (R128). -/
def Obj.tdeaOk (x : Obj) : Bool := !isTdea x.alg || tdeaDistinct x.material

/-- The algorithm of a key fits an image program in the place of its opcode's: the program's ALG says which (R163, R167, R168). -/
def progAlgOk (p : Program) (route : Nat) (fp : Bytes) (o : Op) (x : Obj) : Bool :=
  if p.kind == 1 then (isTdea x.alg && p.alg != 0) || (isAesAlg x.alg && p.alg != 1) else digestAlgOk o route fp x.alg x.material

/-- The algorithm of KEY_A fits. -/
def algOkA (o : Op) (route : Nat) (fp : Bytes) (x : Obj) : Bool :=
  if o.family == 2 then cipherAlgOk o fp x.alg x.material
  else if o.family == 3 then digestAlgOk o route fp x.alg x.material
  else if o.family == 4 then pkAlgOk o x.alg x.material
  else txAlgA o x

/-- The algorithm of KEY_B fits; the KBPK of a wrap is no weaker than the key wrapped (R340). -/
def algOkB (o : Op) (fp : Bytes) (a : Option Obj) (x : Obj) : Bool :=
  if o.family == 2 then cipherAlgOk o fp x.alg x.material
  else if o.family == 3 then digestAlgOk o 0 fp x.alg x.material
  else
    txAlgB o x && (o != .keyBlockWrap || ((a.map (fun y =>
      !strongerThan (if (hmacHash y.alg).isSome then 0x48 else if isTdea y.alg then 0x54 else 0x41) y.material.length x.alg
        x.material)).getD true))

/-- The usage of KEY_A and KEY_B fits (R97, R327, R340). -/
def usageOkA (o : Op) (route : Nat) (x : Obj) : Bool :=
  if o == .keyBlockWrap then (headerRow x.alg x.usage.toNat).isSome
  else if o.family == 7 then txUsageA o x.usage
  else (usageBits o route).all (fun i => x.usage.getLsbD i)
def usageOkB (o : Op) (x : Obj) : Bool :=
  if o.family == 7 then txUsageB o x.usage else (usageBits o 0).all (fun i => x.usage.getLsbD i)

/-- The rights of a use by the host world once algorithm and usage fit (R97, R241). -/
def State.hostRights (s : State) (n : Nat) (o : Obj) : Option Final :=
  failIf (!o.insts.getLsbD n) Status.instanceNotPermitted 0
  <|> failIf (o.world &&& 1 == 0) Status.worldNotPermitted 0
  <|> failIf (o.lcmask &&& s.lcBit == 0) Status.keyLifecycle 0
  <|> failIf (s.seconds < o.validFrom || s.seconds ≥ o.validUntil) Status.keyValidity 0

/-- One key of R97 step 8. -/
def State.useKey (s : State) (n h : Nat) (algOk usageOk : Obj → Bool) : Final ⊕ Obj :=
  match s.readObj h with
  | .inl f => .inl f
  | .inr o =>
    match failIf (!algOk o) Status.keyAlgorithm 0 <|> failIf (!usageOk o) Status.usageNotPermitted 0
        <|> s.hostRights n o with
    | some f => .inl f
    | none => .inr o

/-- TDEA encryption, for NO_TDEA_ENCRYPT (Table 12.8). -/
def tdeaEncrypts (o : Op) (alg : BitVec 16) : Bool :=
  isTdea alg && (match o with | .ecbEncrypt | .cbcEncrypt => true | _ => false)

/-- Secrets that ROUTE 0 hands out, for NO_SECRET_OUT (R203). -/
def secretOut (o : Op) (route : Nat) : Bool := route == 0 && Op.pkRoute1 o

/-- POLICY_REFUSED of a flow or template (R97, R128, R184, R203, R205, R340). -/
def State.usePolicy (s : State) (d : Nat) (o : Op) (route : Nat) (fp : Bytes) (a : Option Obj) : Option Final :=
  let p := s.prohibit d
  let world := byteAt fp 1
  let mask := BitVec.ofNat 8 (byteAt fp 2)
  let wide := match a with
    | some x => world &&& x.world != world || mask &&& ~~~x.lcmask != 0
    | none => false
  failIf ((p.getLsbD 0 && tdeaEncrypts o ((a.map (·.alg)).getD 0))
      || (route == 1 && (wide || p.getLsbD 1))
      || (p.getLsbD 2 && secretOut o route)
      || (o == .keyBlockWrap && (p.getLsbD 7 || !((a.map (·.exportable)).getD false))))
    Status.policyRefused 0

/-- KEY_A and KEY_B fit the program they are used with, built in or loaded. -/
def keyFitsA (o : Op) (route : Nat) (fp : Bytes) (prog : Option Program) (x : Obj) : Bool :=
  x.tdeaOk && (match prog with
    | some p => progAlgOk p route fp o x
    | none => algOkA o route fp x)
def keyFitsB (o : Op) (fp : Bytes) (prog : Option Program) (a : Option Obj) (x : Obj) : Bool :=
  x.tdeaOk && (match prog with
    | some p => progAlgOk p 0 fp o x
    | none => algOkB o fp a x)

/-- Step 8 of R97 for an opcode, KEY_A first: a refusal, or the objects. The pair of XTS keys must be of one length and
differ (R144); a loaded program of two keys needs KEY_B (R167). -/
def State.useKeys (s : State) (d n : Nat) (o : Op) (route : Nat) (fp : Bytes) (prog : Option Program) (ha hb : Nat) :
    Final ⊕ (Option Obj × Option Obj) :=
  if (ha != noHandle || hb != noHandle) && !s.mounted then .inl (Final.plain Status.vaultNotMounted)
  else
    let a : Final ⊕ Option Obj :=
      if ha == noHandle then .inr none
      else match s.useKey n ha (keyFitsA o route fp prog) (usageOkA o route) with
        | .inl f => .inl f
        | .inr x => .inr (some x)
    match a with
    | .inl f => .inl f
    | .inr a =>
      let b : Final ⊕ Option Obj :=
        if hb == noHandle then .inr none
        else match s.useKey n hb (keyFitsB o fp prog a) (usageOkB o) with
          | .inl f => .inl f
          | .inr x => .inr (some x)
      match b with
      | .inl f => .inl f
      | .inr b =>
        let ka := (a.map (·.material)).getD []
        let kb := (b.map (·.material)).getD []
        match failIf ((Op.isXts o && (ka.length != kb.length || ka == kb))
              || ((prog.map (·.keys)).getD 1 == 2 && b.isNone)) Status.keyAlgorithm 0
            <|> s.usePolicy d o route fp a with
        | some f => .inl f
        | none => .inr (a, b)

/-- A key's window at the moment (R100). -/
def State.windowOk (s : State) (k : Option KeyRef) : Bool :=
  match k with
  | some k => k.validFrom ≤ s.seconds && s.seconds < k.validUntil
  | none => true

/-! Random bytes and engine time (R132, R137, R192, R207) -/

/-- Generator and number of the random bytes a data message draws before its first lap or operation. -/
def State.msgDraw (s : State) (r : MsgRec) : Nat × Nat :=
  let j := s.jobOf r
  match r.op with
  | .ledgerPost => (r.inst, 0)
  | .keyGenerate => keyGenerateDraw r
  | o =>
    if o.family == 2 then (r.inst, cipherRandom j r.m)
    else if o.family == 4 then (259, pkRandom j)
    else if o.family == 7 then
      (r.inst, txRandom o r.m (r.keyA.getD KeyRef.reset) (r.keyB.getD KeyRef.reset))
    else (r.inst, 0)

/-- Fixed engine time of a public-key operation; the pair of KEY_GENERATE is one. -/
def State.pkTime (s : State) (r : MsgRec) : Nat :=
  match r.op with
  | .keyGenerate => generateCycles (r.attrAlg % 256)
  | o => pkCycles o (s.jobOf r).pset

/-- The context a lap starts from: its stream's, or the message's own. -/
def State.ctxOf (s : State) (r : MsgRec) : Ctx := ((s.streamOf r).map (·.ctx)).getD r.ctx

/-- A lap: the input bytes it takes, whether it ends its message, whether it ends the message's stream (R107, R172). -/
structure Lap where
  n      : Nat
  segEnd : Bool
  last   : Bool
deriving DecidableEq, Repr

def State.nextLap (s : State) (r : MsgRec) : Lap :=
  let j := s.jobOf r
  let rest := r.m.inLen - r.done_
  let final := r.m.seg == 0 || r.m.seg == 3
  let x : Nat × Bool :=
    if r.op.family == 7 || r.op == .ledgerPost then (rest, true)
    else if r.op.kind == some 1 && j.prog.isNone then
      digestTake j (s.ctxOf r).buf.length rest (min rest (j.hashed - (s.ctxOf r).pos)) final
    else (min (s.lapOf r) rest, rest ≤ s.lapOf r)
  { n := x.1, segEnd := x.2, last := x.2 && final }

/-- Engine time of the next lap or operation of a message. -/
def State.workCycles (s : State) (r : MsgRec) : Nat :=
  let j := s.jobOf r
  let l := s.nextLap r
  let c := s.ctxOf r
  match r.kind with
  | some 2 => s.pkTime r
  | _ =>
    match r.op with
    | .ledgerPost => ledgerCycles r.m
    | o =>
      if o.family == 7 then txCycles o r.m (r.keyA.getD KeyRef.reset) (r.keyB.getD KeyRef.reset)
      else match j.prog with
        | some p => seqCycles p j c l.n l.segEnd l.last
        | none =>
          if o.family == 2 then cipherCycles j c.pos l.n l.last
          else digestCycles j c.buf.length (min l.n (j.hashed - c.pos)) l.last

end Sys2Proof.Machine
end

