-- ==== Sys2Proof/Machine/Admit.lean ====
section
/-! DEFINITION. The checks of steps 4 to 9 (R78): module and instance state, flow and stream state, lists and lengths, the
parameters of data messages and of the control path, the key-dependent checks of R488, and admission. -/

namespace Sys2Proof.Machine

/-! Step 4: module and instance state (R94, R95, R389, R395, R402, R418) -/

def State.kickstand (s : State) : Bool := s.cfg.state == 2
def State.lostUnit (s : State) : Bool := s.lcs.lostCause != 0
def State.spent (s : State) : Bool := s.lc == 5

/-- Opcodes that answer in kickstand, in a lost unit and in SPENT. -/
def kickstandOps : List Op := [.nop, .cancel, .imageWrite, .imageAccept, .healthRead]
def lostOps : List Op := [.nop, .cancel, .identityGet, .recorderRead, .healthRead]
def spentOps : List Op := [.nop, .cancel, .healthRead]

def State.check4 (s : State) (o : Op) (n : Nat) : Option Final :=
  failIf (s.kickstand && !(n == 0 && kickstandOps.contains o)) Status.kickstand 0
  <|> failIf (s.lostUnit && (!lostOps.contains o || (s.lcs.lostCause == 4 && o == .recorderRead))) Status.lcState 2
  <|> failIf (!s.lostUnit && s.spent && !spentOps.contains o) Status.lcState 1
  <|> failIf s.lcs.busy Status.lcState 7
  <|> failIf (s.paused && !(n == 0 && pausedOps.contains o)) Status.tamperPaused 0
  <|> failIf ((s.domainOf n).isNone) Status.instanceUnbound 0

/-! Step 5: flow and stream state (R84, R98, R100, R102, R181, R182) -/

/-- A message that begins a stream: a first segment, or SEG 0 on a HOLD flow. -/
def Flow.begins (f : Flow) (m : Msg) : Bool := m.seg == 1 || (f.holds && m.seg == 0)

def State.check5 (s : State) (o : Op) (m : Msg) : Option Final :=
  if m.flowId == 0 then none
  else match s.findFlow m.instN m.flowId with
    | none => some (Final.plain Status.flowUnknown)
    | some f =>
      if f.closing.isSome then some (Final.plain Status.flowUnknown)
      else if m.keyA != noHandle || m.keyB != noHandle then some (Final.plain Status.flowMismatch)
      else if o == .flowClose || o == .cancel then none
      else if o == .digestResult then failIf (!f.holds) Status.flowMismatch 0
      else
        failIf (f.op != o) Status.flowMismatch 0
        <|> (if f.begins m then failIf f.stream.isSome Status.streamOpen 0
             else failIf (m.seg ≥ 2 && f.stream.isNone) Status.streamNotOpen 0)

/-- A message past step 5 that begins a stream opens it (R84). -/
def State.openStream (s : State) (r : MsgRec) : State :=
  match s.flowOf r with
  | some f =>
    if f.begins r.m then
      s.modFlow r.inst f.id (fun f => { f with stream := some { Stream.reset with
        declared := if r.m.seg == 1 then r.m.field 40 8 else r.m.inLen
        params := r.m.pBlock } })
    else s
  | none => s

/-! Step 6: lists and lengths (R82, R85, R96, R102, R119, R183, R229, R354) -/

/-- Opcodes whose output comes back in RESULT alone: FLOW_OPEN takes OUT_CAP 16 to 40 and no output entries (R96). One that carries
OUT_CAP 0 is not refused for capacity within R73 and R82, entries among it (R487). -/
def Op.noOuts (o : Op) : Bool := o == .flowOpen

/-- The message ends a ROUTE 1 computation, whose result is a handle record in RESULT. -/
def State.route1End (s : State) (r : MsgRec) : Bool :=
  ((s.flowOf r).map (·.route)).getD 0 == 1 && (r.m.seg == 0 || r.m.seg == 3) && r.op != .mlkemEncaps

/-- The sum of a stream against STREAM_LEN, at its last segment (R85). -/
def State.checkSum (s : State) (r : MsgRec) : Option Final :=
  if r.m.seg != 3 then none
  else match s.streamOf r with
    | none => none
    | some t =>
      let sum := t.accepted + r.m.inLen
      if sum == t.declared then none
      else
        some { Final.refuse (if sum < t.declared then Status.lengthShort else Status.lengthLong) (min sum 0xFFFFFFFF) with
          info := leBytes 8 sum ++ leBytes 8 t.declared }

/-- Step 6. Output entries on a FLOW_OPEN or at the end of a ROUTE 1 computation, whose output comes back in RESULT, are refused with
OUTPUT_LIST_MISMATCH (DESIGN CHOICE, log 59: R96 names no status for them). -/
def State.check6 (s : State) (r : MsgRec) : Option Final :=
  checkLists r.m
  <|> failIf (!r.m.outs.isEmpty && (Op.noOuts r.op || s.route1End r)) Status.outputListMismatch 0
  <|> failIf (r.op == .zrmRecord && r.m.outs.isEmpty) Status.outputListMismatch 0
  <|> s.checkSum r

/-! Steps 7 and 8 of data messages -/

def Op.isPk (o : Op) : Bool := o.family == 4

/-- The key that sets a public-key message's parameter set. -/
def State.pkHasKey (s : State) (r : MsgRec) : Bool :=
  match s.flowOf r with
  | some f => f.keyA.isSome
  | none => r.m.keyA != noHandle

/-- Table 5.8, R179, Table 8.5 and Table 13.1 on the length of a message, or of a stream at its first segment. -/
def State.dataLength (s : State) (r : MsgRec) : Option Final :=
  let j := s.jobOf r
  let o := r.op
  failIf (r.m.seg ≤ 1 &&
    (if o.family == 2 then cipherLengthBad j
     else if o.family == 3 then digestLengthBad j
     else if Op.isPk o then !j.psetUnknown && pkLengthBad j
     else txLengthBad o r.m)) Status.lengthInvalid 0

/-- OUTPUT_SHORT of a data message. -/
def State.dataCap (s : State) (r : MsgRec) : Option Final :=
  let j := s.jobOf r
  let o := r.op
  if o.family == 2 then checkCap r.m (cipherLargest j r.m (((s.streamOf r).map (·.accepted)).getD 0))
  else if o.family == 3 then checkCap r.m (digestLargest j r.m)
  else if Op.isPk o then
    -- A ROUTE 1 computation returns a handle record whatever its key (R203).
    if j.route == 1 && o != .mlkemEncaps then checkCap r.m 8
    else if j.psetUnknown then none else checkCap r.m (pkLargest j)
  else checkCap r.m (txLargest o r.m)

/-- HMAC_VERIFY against a TAG_LEN of its own, which step 7 can test (R179). -/
def tagShort (j : Job) : Option Final := failIf (j.tagNamed && j.seg ≤ 1 && j.total < byteAt j.fp 0) Status.lengthInvalid 0

/-- The length check waits for the key (R488). -/
def lengthByKey (o : Op) (hasKey : Bool) : Bool :=
  if o.family == 2 then Op.dependsOnB o
  else if Op.isHmac o then true
  else Op.isPk o && hasKey

/-- The largest output depends on the key: on B or on V, on D, or on its parameter set (R488). -/
def capByKey (o : Op) (j : Job) (seg : Nat) (hasKey : Bool) : Bool :=
  match o with
  | .ecbEncrypt | .cbcEncrypt => (j.padding != 0 && (seg == 0 || seg == 3)) || (j.ivGen && seg ≤ 1)
  | .cfbEncrypt | .gcmEncrypt => j.ivGen && seg ≤ 1
  | .ecbDecrypt | .cbcDecrypt => seg == 3 && j.padding != 0
  | .iso9797Generate => byteAt j.fp 0 == 0
  | .hmacGenerate => j.route == 0 && byteAt j.fp 0 == 0
  | _ => Op.isPk o && hasKey && (j.route == 0 || o == .mlkemEncaps)

/-- AREA of a data message (Tables 5.7, 7.5, 8.6 and 13.3 to 13.6). -/
def State.dataArea (s : State) (r : MsgRec) (tdea : Bool) : Option Final :=
  let j := s.jobOf r
  let o := r.op
  if o.family == 2 then cipherArea j r.m tdea
  else if o.family == 3 then digestArea j r.m
  else if Op.isPk o then pkArea o j.route (s.pkHasKey r) r.m
  else txArea o r.m

/-- What a record adds to its function's checks (R360): TAG_LEN, ALG and PAD in range. -/
def checkExtra (o : Op) (j : Job) (x : Bytes) : Option Final :=
  if x.isEmpty then none else cipherFparam o false j.fp <|> failIf (!padAccepted o j.pad) Status.paramRange 43

/-- Step 7 of a data message, in the order of Table 3.9. -/
def State.data7 (s : State) (r : MsgRec) : Option Final :=
  let j := s.jobOf r
  let o := r.op
  let d := some (s.dom' r)
  let key := s.pkHasKey r
  (if r.flow.isSome then none else checkHandles o r.m false)
  <|> checkExtra o j r.extra
  <|> s.dataArea r false
  <|> (if o.family == 7 then txInput o r.m else none)
  <|> checkDomain d r.m.keyA <|> checkDomain d r.m.keyB
  <|> failIf ((r.m.seg == 1 || r.m.seg == 2) && (r.m.inLen == 0 || r.m.inLen % 64 != 0)) Status.segmentAlign 0
  <|> tagShort j
  <|> (if lengthByKey o key then none else s.dataLength r)
  <|> (if capByKey o j r.m.seg key then none else s.dataCap r)
  <|> failIf (Op.isPk o && !key && j.psetUnknown) Status.pkParamUnsupported 0

/-- The key-dependent checks of step 8, in the order step 7 would have made them (R488). -/
def State.data8 (s : State) (r : MsgRec) : Option Final :=
  let j := s.jobOf r
  let o := r.op
  let key := r.keyA.isSome
  (if Op.dependsOnB o || j.prog.isSome then s.dataArea r (isTdea j.alg) else none)
  <|> (match r.zrm with
    | some b => zrmIvShort b (isTdea j.alg)
    | none => none)
  <|> (if lengthByKey o key then s.dataLength r else none)
  <|> (if capByKey o j r.m.seg key then s.dataCap r else none)
  <|> (if o.family == 7 then
        txCheck o r.m (r.keyA.getD KeyRef.reset) (r.keyB.getD KeyRef.reset) ((s.prohibit (s.dom' r)).getLsbD 7)
       else none)

/-! FLOW_OPEN (R96, R97) -/

/-- OP of a FLOW_OPEN, when it names a flow-capable opcode. -/
def flowOp (m : Msg) : Option Op := (opcodeOf (BitVec.ofNat 16 (m.field 40 2))).filter Op.flowCapable
def flowSlot (m : Msg) : Nat := m.field 42 1
def flowPad (m : Msg) : Nat := m.field 43 1
def flowRoute (m : Msg) : Nat := m.field 44 1
def flowFparam (m : Msg) : Bytes := m.area 48 16

/-- SLOT at step 7: the built-in program, by name or by either number it may have, or a loaded program that lists OP; public-key and
transaction opcodes take 0xFF alone (R326). -/
def State.slotOk (s : State) (o : Op) (fp : Bytes) (slot : Nat) : Bool :=
  slot == 0xFF
    || (!Op.isPk o && o.family != 7 && (slot == builtinSlot o fp false || (Op.dependsOnB o && slot == builtinSlot o fp true)))
    || ((o.family == 2 || o.family == 3) && ((s.program slot).map (fun p => p.opcodes.contains o.code.toNat)).getD false)

/-- The loaded program a FLOW_OPEN names has two keys (R163). -/
def State.twoKeys (s : State) (m : Msg) : Bool := ((s.program (flowSlot m)).map (fun p => p.keys == 2)).getD false

def State.flowOpen7 (s : State) (d : Nat) (m : Msg) : Option Final :=
  let fp := flowFparam m
  match flowOp m with
  | none => some (Final.refuse Status.paramRange 40)
  | some o =>
    let route := flowRoute m
    failIf (!s.slotOk o fp (flowSlot m)) Status.paramRange 42
    <|> failIf (if o.family == 2 then !padAccepted o (flowPad m) else flowPad m != 0xFF) Status.paramRange 43
    <|> failIf (route > 1 || (route == 1 && o != .hmacGenerate && !Op.pkRoute1 o)) Status.paramRange 44
    <|> m.mustZero 45 3
    <|> (if o.family == 2 then cipherFparam o (s.program (flowSlot m)).isSome fp
         else if o.family == 3 then digestFparam o route fp
         else if Op.isPk o then pkFparam o route (m.keyA != noHandle) fp
         else txFparam fp)
    <|> checkHandles o m (s.twoKeys m)
    <|> checkDomain (some d) m.keyA <|> checkDomain (some d) m.keyB
    <|> checkNoInput m
    <|> checkCap m 16

/-- SLOT at step 8, when it depends on the key: the built-in program of the key's block size (R167, R488). -/
def slotFits (m : Msg) (o : Op) (a : Option Obj) : Option Final :=
  let slot := flowSlot m
  failIf (slot < 36 && slot != builtinSlot o (flowFparam m) (isTdea ((a.map (·.alg)).getD 0))) Status.paramRange 42

/-! Step 7 of the control path -/

/-- DIGEST_RESULT: the result length of the flow it names. -/
def Flow.resultLen (f : Flow) : Nat :=
  ({ op := f.op, slot := f.slot, pad := f.pad, route := f.route, fp := f.fparam, keyA := f.keyA, keyB := f.keyB
     p := zeros 16, seg := 0, total := 0, prog := none } : Job).resultLen

def State.digestResult7 (s : State) (m : Msg) : Option Final :=
  failIf (m.flowId == 0) Status.paramRange 26 <|> noKeys m <|> m.mustZero 40 24 <|> checkNoInput m
  <|> (match s.findFlow m.instN m.flowId with
    | some f => checkCap m f.resultLen
    | none => none)

def cancel7 (m : Msg) : Option Final :=
  failIf (m.field 44 1 == 1 && m.flowId == 0) Status.paramRange 26
  <|> noKeys m
  <|> failIf (m.field 44 1 > 2) Status.paramRange 44
  <|> m.mustZero 45 19 <|> checkNoInput m

def flowClose7 (m : Msg) : Option Final :=
  failIf (m.flowId == 0) Status.paramRange 26 <|> noKeys m <|> m.mustZero 40 24 <|> checkNoInput m

def randomGenerate7 (m : Msg) : Option Final :=
  noKeys m
  <|> failIf (m.field 40 4 == 0 || m.field 40 4 > 65536) Status.paramRange 40
  <|> failIf (m.field 44 1 > 1) Status.paramRange 44
  <|> m.mustZero 45 19 <|> checkNoInput m <|> checkCap m (m.field 40 4)

def randomReseed7 (m : Msg) : Option Final :=
  noKeys m <|> m.mustZero 40 24 <|> failIf (m.inLen > 256) Status.lengthInvalid 0

/-- Step 7 of every opcode but the data messages. -/
def State.control7 (s : State) (r : MsgRec) : Option Final :=
  let m := r.m
  let d := s.dom' r
  let dom := checkDomain (some d) m.keyA <|> checkDomain (some d) m.keyB
  match r.op with
  | .nop => noKeys m
  | .flowOpen => s.flowOpen7 d m
  | .flowClose => flowClose7 m
  | .cancel => cancel7 m
  | .digestResult => s.digestResult7 m
  | .randomGenerate => randomGenerate7 m
  | .randomReseed => randomReseed7 m
  | .objectInfo => objectInfo7 m <|> dom <|> checkNoInput m <|> checkCap m 104
  | .objectDelete => objectDelete7 m <|> dom <|> checkNoInput m
  | .objectRestrict => objectRestrict7 m <|> dom <|> inlineIs m 64 <|> checkCap m 4
  | .vaultUsage => vaultUsage7 m <|> checkNoInput m <|> checkCap m 32
  | .keyGenerate => keyGenerate7 m <|> inlineIs m 72 <|> checkCap m 8
  | .keyUpdate => keyUpdate7 m <|> failIf (m.inLen < 224 || m.inLen > 16384) Status.lengthInvalid 0 <|> checkCap m 8
  | .receiveKeyGet => receiveKeyGet7 m <|> checkNoInput m <|> checkCap m 6363
  | .keyComponent => keyComponent7 m <|> componentLength m <|> checkCap m 8
  | .keyExport => keyExport7 m <|> dom <|> checkNoInput m <|> checkCap m (exportLargest m)
  | .keyRestore => keyRestore7 m <|> dom <|> checkCap m 8
  | .publicKeyGet => publicKeyGet7 m <|> dom <|> checkNoInput m
  | .identityGet => identityGet7 m <|> checkNoInput m <|> checkCap m 15041
  | .tandemBegin => tandemBegin7 m d
  | .tandemSign => tandemSign7 m
  | .tandemStatus => tandemStatus7 m
  | .domainInfo => domainInfo7 m d
  | .policySet => policySet7 m
  | .rosterSet => rosterSet7 m
  | .domainPurge => domainPurge7 m
  | .domainCreate => domainCreate7 m d
  | .domainDelete => domainDelete7 m d
  | .domainQuota => domainQuota7 m d
  | .ledgerChainOpen => ledgerChainOpen7 m <|> dom <|> ledgerOpenLength m
  | .ledgerPost => ledgerPost7 m <|> ledgerPostLength m <|> checkCap m (ledgerPostCap m)
  | .ledgerCheckpoint => ledgerControl7 m <|> checkNoInput m
  | .ledgerStatus => ledgerControl7 m <|> checkNoInput m <|> checkCap m 96
  | .ledgerCheckpointGet => ledgerControl7 m <|> checkNoInput m
  | .ledgerChainClose => ledgerControl7 m <|> checkNoInput m
  | .instanceBind => instanceBind7 s m
  | .instanceUnbind => instanceUnbind7 s m
  | .instanceQuota => instanceQuota7 s m
  | .imageWrite => imageWrite7 m
  | .imageAccept => imageAccept7 m
  | .recorderRead => recorderRead7 m
  | .recorderFreeze => recorderFreeze7 m
  | .lcTransition => lcTransition7 s m
  | .debugAuthorize => debugAuthorize7 m
  | .healthRead => healthRead7 m
  | .zrmRecord => zrmRecord7 m
  | .labelSet => labelSet7 m <|> dom <|> labelForm m
  | .labelDelete => labelName7 m <|> labelForm m
  | .labelLookup => labelName7 m <|> labelForm m <|> checkCap m 8
  | _ => none

/-- Step 7. -/
def State.check7 (s : State) (r : MsgRec) : Option Final := if r.op.isData then s.data7 r else s.control7 r

/-! Step 8 of the control path -/

def State.control8 (s : State) (r : MsgRec) : Checked :=
  match r.op with
  | .objectInfo => objectInfo8 s r
  | .objectDelete => objectDelete8 s r
  | .objectRestrict => objectRestrict8 s r
  | .vaultUsage => vaultUsage8 s r
  | .keyGenerate => keyGenerate8 s r
  | .keyUpdate => keyUpdate8 s r
  | .receiveKeyGet => receiveKeyGet8 s r
  | .keyComponent => keyComponent8 s r
  | .keyExport => keyExport8 s r
  | .keyRestore => keyRestore8 s r
  | .publicKeyGet => publicKeyGet8 s r
  | .identityGet => identityGet8 s r
  | .tandemBegin => tandemBegin8 s r
  | .tandemSign => tandemSign8 s r
  | .tandemStatus => tandemStatus8 s r
  | .domainInfo => domainInfo8 s r
  | .policySet => policySet8 s r
  | .rosterSet => rosterSet8 s r
  | .domainPurge => domainPurge8 s r
  | .domainCreate => domainCreate8 s r
  | .domainDelete => domainDelete8 s r
  | .domainQuota => domainQuota8 s r
  | .ledgerChainOpen => ledgerChainOpen8 s r
  | .ledgerPost => checked s (ledgerPost8 s r)
  | .ledgerCheckpoint => ledgerCheckpoint8 s r
  | .ledgerStatus => ledgerStatus8 s r
  | .ledgerCheckpointGet => ledgerCheckpointGet8 s r
  | .ledgerChainClose => ledgerChainClose8 s r
  | .instanceBind => instanceBind8 s r
  | .instanceUnbind => instanceUnbind8 s r
  | .imageWrite => imageWrite8 s r
  | .imageAccept => imageAccept8 s r
  | .lcTransition => lcTransition8 s r
  | .debugAuthorize => debugAuthorize8 s r
  | .labelSet => labelSet8 s r
  | .labelDelete => labelDelete8 s r
  | .labelLookup => labelLookup8 s r
  | _ => .ok none

/-! Step 9 (R114 to R118) -/

/-- FLOW_OPENs admitted and not yet complete, which hold an entry (DEDUCED, log 30). -/
def State.opening (s : State) (p : MsgRec → Bool) : Nat :=
  (s.sch.msgs.filter (fun r => r.op == .flowOpen && r.admitted && p r)).length

/-- DETAIL of BUSY_QUOTA (Table 4.6). -/
def busyQuota (kind limit : Nat) : Final := Final.refuse Status.busyQuota (kind * 2 ^ 30 + limit)

/-- Entries of the shared remainder in use (R115). -/
def State.sharedUsed (s : State) : Nat :=
  ((List.range 256).map (fun n => s.admittedOf n - 16)).foldl (· + ·) 0
def State.sharedSize (s : State) : Nat := 262144 - 16 * (s.inst.toList.filter (·.exists_)).length

/-- The engine kind a message needs at admission: its own, its OP's, or that of its key pair. -/
def admitKind (r : MsgRec) : Option Nat :=
  match r.op with
  | .flowOpen => (flowOp r.m).bind Op.kind
  | .keyGenerate => if r.attrAlg / 256 == 4 then some 2 else none
  | o => o.kind

/-- A limit reached, as BUSY_QUOTA of a kind. -/
def quotaFull (full : Bool) (kind limit : Nat) : Option Final := if full then some (busyQuota kind limit) else none

def State.check9 (s : State) (r : MsgRec) : Option Final :=
  let n := r.inst
  let i := s.getInst n
  let d := s.dom' r
  let dl := ((s.domRec d).map (·.flowLimit)).getD 65535
  let opens := r.op == .flowOpen
  if r.op == .cancel || r.m.uart then none
  else
    quotaFull (s.admittedOf n ≥ i.outLimit) 0 i.outLimit
    <|> quotaFull (opens && s.flowsOf n + s.opening (fun x => x.inst == n) ≥ i.flowLimit) 1 i.flowLimit
    <|> quotaFull (opens && s.domainFlows d + s.opening (fun x => x.domain == d) ≥ dl) 2 dl
    <|> failIf (s.admittedOf n ≥ 16 && s.sharedUsed ≥ s.sharedSize) Status.busyDevice 262144
    <|> failIf (opens && s.sch.flows.length + s.opening (fun _ => true) ≥ 65536) Status.busyFlows 0
    <|> failIf ((admitKind r).isSome && s.usableClusters.isEmpty) Status.busyNoEngine 0

end Sys2Proof.Machine
end

