-- ==== Sys2Proof/Machine/Schedule.lean ====
section
/-! DEFINITION. The scheduler (R14, R29, R108 to R113, R194): which admitted work is ready, which of it an engine takes next,
where it is placed, and how a lap or operation starts and ends. -/

namespace Sys2Proof.Machine

/-! Ready work -/

/-- A segment waits for the earlier segments of its stream, a posting for those before it on its chain (R77, R346). -/
def State.inTurn (s : State) (r : MsgRec) : Bool :=
  (r.m.seg == 0 || s.sch.msgs.all (fun x => x.inst != r.inst || x.m.flowId != r.m.flowId || x.m.seg == 0 || x.id ≥ r.id))
  && (r.op != .ledgerPost ||
      (!s.ledgerHeld r &&
        (s.sch.msgs.find? (fun x => x.op == .ledgerPost && x.admitted && s.dom' x == s.dom' r
          && ledgerChain x.m == ledgerChain r.m)).map (·.id) == some r.id))

/-- Waits for a lap or operation: admitted and not started, between laps, or to be replayed. -/
def MsgRec.waitsEngine (r : MsgRec) : Bool :=
  match r.phase with
  | .ready | .between | .replay => true
  | _ => false

/-- A pair is key management: a restart of the control pair holds its start (R23). -/
def State.pairHeld (s : State) (r : MsgRec) : Bool := r.makesPair && s.glb.ctrlRestart && r.phase == .ready

/-- A message's lap or operation is ready. A posting between is one whose lap has ended and whose head update waits (R350). -/
def State.lapReady (s : State) (r : MsgRec) : Bool :=
  r.waitsEngine && r.kind.isSome && !s.pairHeld r && s.inTurn r && !(r.op == .ledgerPost && r.phase == .between)

def State.readyWork (s : State) (k : Nat) : List MsgRec := s.sch.msgs.filter (fun r => r.kind == some k && s.lapReady r)

/-- Work that has become ready takes its place behind the work that was ready before (R110). Of what becomes ready in one command the
order of the messages decides (DESIGN CHOICE, log 31). -/
def State.stampReady (s : State) : State :=
  { s with sch := { s.sch with msgs := (s.sch.msgs.foldl (fun (a : Nat × List MsgRec) r =>
      if r.stamp == 0 && s.lapReady r then (a.1 + 1, { r with stamp := a.1 } :: a.2) else (a.1, r :: a.2))
    (s.nextStamp, [])).2.reverse } }

/-- The work of a list that has been ready longest. -/
def oldestOf (l : List MsgRec) : Option MsgRec :=
  l.foldl (fun a r => match a with
    | some x => if r.stamp < x.stamp then some r else a
    | none => some r) none

/-! Engines held back (R29, R194) -/

/-- The message an engine runs. -/
def State.workOf (s : State) (e : Nat) : Option MsgRec := (s.getEng e).work.bind s.findMsg

/-- The internal-world operation an engine runs. -/
def State.internalOn (s : State) (e : Nat) : Option IntOp := (s.getEng e).work.bind s.findInternal

/-- An engine runs an operation longer than 260 µs. -/
def State.runsLong (s : State) (e : Nat) : Bool :=
  match s.workOf e, s.internalOn e with
  | some r, _ => !pkShort (s.pkTime r)
  | none, some x => !pkShort x.work.cycles
  | none, none => false

/-- Clusters whose public-key engines can be held: those that are not fenced and take work (R29, R113). -/
def State.holdClusters (s : State) : List Nat := s.usableClusters.filter (fun c => !s.cluParked c)

/-- With a long operation on engine e, enough of those clusters keep a public-key engine that runs none (R29). Of the two that R29
wants, as many are held as there are clusters not parked (DEDUCED, log 61). -/
def State.keepsHeld (s : State) (e : Nat) : Bool :=
  (s.holdClusters.filter (fun c => [12 * c + 10, 12 * c + 11].any (fun x => x != e && !s.runsLong x))).length
    ≥ min s.pkHold s.holdClusters.length

/-- Operations above 10 ms that run (R194). -/
def State.longRunning (s : State) : Nat :=
  (s.sch.msgs.filter (fun r => r.phase == .running && r.kind == some 2 && pkLong (s.pkTime r))).length

/-- An engine may start a message's work. Replayed work is exempt from R29. -/
def State.mayStart (s : State) (e : Nat) (r : MsgRec) : Bool :=
  r.kind != some 2 || r.phase == .replay
    || ((pkShort (s.pkTime r) || s.keepsHeld e) && (!pkLong (s.pkTime r) || s.longRunning < 4))

/-! Choice among instances (R110, R112, R113) -/

/-- Engines of a kind that an instance holds. -/
def State.holds (s : State) (n k : Nat) : Nat :=
  ((List.range 192).filter (fun e => engKind e == k && (s.getEng e).work.isSome && (s.getEng e).inst == some n)).length

/-- Effective guarantee (R113). -/
def State.effective (s : State) (n k : Nat) : Nat :=
  let g := (s.getInst n).guarantee k
  let nk := s.engineCount k
  let sk := s.guarSum k
  if sk ≤ nk then g else g * nk / sk

def State.creditOf (s : State) (n k : Nat) : Int := (s.getInst n).credit.getD k 0

def State.addCredit (s : State) (n k : Nat) (d : Int) : State :=
  s.modInst n (fun i => { i with credit := (List.range 3).map (fun j => i.credit.getD j 0 + (if j == k then d else 0)) })

/-- An instance with nothing ready and no engine of a kind keeps no credit and owes none (R112). -/
def State.settleCredit (s : State) (k : Nat) (ready : List Nat) : State :=
  { s with inst := s.inst.mapFinIdx (fun n i _ =>
    if i.credit.getD k 0 != 0 && !ready.contains n && s.holds n k == 0 then
      { i with credit := (List.range 3).map (fun j => if j == k then 0 else i.credit.getD j 0) }
    else i) }

/-- The charge of a lap or operation: its engine time (R112). -/
def State.charge (s : State) (n k cost : Nat) : State := s.addCredit n k (-(cost : Int))

/-- Rounds of credit until an instance is no longer in debt. -/
def State.roundsFor (s : State) (n k : Nat) : Nat :=
  let c := s.creditOf n k
  if c ≥ 0 then 0 else ceilDiv c.natAbs (max 1 (s.getInst n).weight)

/-- Deficit round robin in engine time: ready instances gain credit by weight until one is out of debt, and the one with
the most credit is taken, the lowest number first (DESIGN CHOICE, log 31). -/
def State.roundRobin (s : State) (k : Nat) (l : List MsgRec) : Option (MsgRec × State) :=
  let ns := (l.map MsgRec.inst).eraseDups
  match ns with
  | [] => none
  | n0 :: _ =>
    let rounds := (ns.map (fun n => s.roundsFor n k)).foldl min (s.roundsFor n0 k)
    let t := ns.foldl (fun t n => t.addCredit n k (rounds * (s.getInst n).weight)) s
    let best := ns.foldl (fun b n =>
      if t.creditOf n k > t.creditOf b k || (t.creditOf n k == t.creditOf b k && n < b) then n else b) n0
    (oldestOf (l.filter (fun r => r.inst == best))).map (fun r => (r, t.charge best k (s.workCycles r)))

/-- What engine e of kind k takes next (R110), with the credit it costs. -/
def State.pick (s : State) (e k : Nat) : Option (MsgRec × State) :=
  let l := s.readyWork k
  match oldestOf (l.filter (fun r => r.phase == .replay)) with
  | some r => some (r, s)
  | none =>
    let s := s.settleCredit k (l.map MsgRec.inst)
    let l := l.filter (s.mayStart e)
    match oldestOf (l.filter (fun r => s.holds r.inst k < s.effective r.inst k)) with
    | some r => some (r, s)
    | none =>
      match oldestOf (l.filter (fun r => s.holds r.inst k == 0)) with
      | some r => some (r, s.charge r.inst k (s.workCycles r))
      | none => s.roundRobin k l

/-- An operation of the internal world may start in a pause: one for a message that a pause lets through (R418; DEDUCED, log 48). -/
def State.startsPaused (s : State) (x : IntOp) : Bool :=
  match x.owner with
  | .message id => ((s.findMsg id).map (fun r => pausedOps.contains r.op)).getD false
  | _ => false

/-- Internal-world operations that are ready for an engine: not ended, no vault read awaited, and with what they draw drawn or to be
had (R207). -/
def State.internalWaiting (s : State) : List IntOp :=
  s.sch.internal.filter (fun x => !x.ended && !x.reading && !s.onEngine x.id && (!s.paused || s.startsPaused x)
    && (x.work.need ≤ x.random.length || (s.genSeeded 259 && s.rng.phase != 5)))

/-- The internal-world operation that engine e takes next, ahead of the messages' own: the oldest replayed one when no replayed
message is older, otherwise, with no replayed message, the oldest that a held engine may run (R110). -/
def State.pickInternal (s : State) (e : Nat) : Option IntOp :=
  if engKind e != 2 then none
  else
    let waits := s.internalWaiting
    let replay := if s.paused then [] else (s.readyWork 2).filter (fun r => r.phase == .replay)
    match waits.filter (·.again) with
    | x :: l =>
      let x := l.foldl (fun a y => if y.stamp < a.stamp then y else a) x
      if replay.all (fun r => x.stamp < r.stamp) then some x else none
    | [] => if replay.isEmpty then waits.find? (fun x => pkShort x.work.cycles || s.keepsHeld e) else none

/-! Placement (R14, R109) -/

/-- Input and output bytes of the work a message would run next. -/
def State.workBytes (s : State) (r : MsgRec) : Nat × Nat :=
  if r.kind == some 2 then (r.m.inLen, r.m.inLen)
  else
    let l := s.nextLap r
    let j := s.jobOf r
    if r.op.family == 7 || r.op == .ledgerPost then (l.n, l.n)
    else if r.op.kind == some 1 then (l.n, if l.last then j.resultLen else 0)
    else (l.n, if Op.isCmac r.op || Op.isIso r.op then 0 else l.n)

/-- Mbit/s of n bytes moved in a number of cycles at 1.2 GHz. -/
def mbits (n cycles : Nat) : Nat := 9600 * n / max 1 cycles

/-- The spoke of a cluster has room for a message's lap: 128 Gbit/s in and out (R14). -/
def State.hasRoom (s : State) (c : Nat) (r : MsgRec) : Bool :=
  let rate (x : MsgRec) : Nat × Nat :=
    let b := s.workBytes x
    let t := s.workCycles x
    (mbits b.1 t, mbits b.2 t)
  let l := ((List.range 12).filterMap (fun i => s.workOf (12 * c + i))).map rate ++ [rate r]
  (l.map (·.1)).foldl (· + ·) 0 ≤ 128000 && (l.map (·.2)).foldl (· + ·) 0 ≤ 128000
    || (s.busyEngines c).isEmpty

/-- Clusters that take work: usable, not parked, their hub not resetting (R22, R109). -/
def State.takesWork (s : State) (c : Nat) : Bool := s.cluUsable c && !s.cluParked c && !s.hubBusy (c / 4)

/-- A free engine of a kind in a cluster, the one with the lowest number (DESIGN CHOICE, log 82: R109 does not choose among them). -/
def State.freeEngine (s : State) (c k : Nat) : Option Nat :=
  ((List.range 12).map (12 * c + ·)).find? (fun e => engKind e == k && (s.getEng e).work.isNone)

/-- Clusters in the order of R109. Of clusters with equally few running engines, and with PACK of those with none, the lowest-numbered
is first (DESIGN CHOICE, log 82: R109 says nothing of a tie). -/
def State.clusterOrder (s : State) : List Nat :=
  let l := (List.range 16).filter s.takesWork
  if s.sch.pack then l.filter (fun c => s.cluBusy c) ++ l.filter (fun c => !s.cluBusy c)
  else sortKey (fun c => (s.busyEngines c).length) l

/-- Free engines of a kind, one in each cluster, in that order. -/
def State.freeEngines (s : State) (k : Nat) : List Nat := s.clusterOrder.filterMap (fun c => s.freeEngine c k)

/-! Starting and ending work -/

/-- What tells the contents of a key register (R130). -/
def KeyRef.tag (k : KeyRef) : Nat × Nat := (k.handle, k.version)

/-- The engine's registers hold a message's keys: same instance, same objects, same versions (R130). -/
def Engine.holds (x : Engine) (r : MsgRec) : Bool :=
  x.inst == some r.inst && x.keyA == r.keyA.map KeyRef.tag && x.keyB == r.keyB.map KeyRef.tag

/-- The keys of a message whose lines are not in the key cache. -/
def State.keysMissing (s : State) (r : MsgRec) : List Nat :=
  (([r.keyA, r.keyB].filterMap (fun k => k)).filterMap (fun k =>
    match s.findObj k.handle with
    | some o => if o.version == k.version && !s.kcHas o then some o.handle else none
    | none => none)).eraseDups

/-- A message waits for the vault reads of its keys, issued together, and then goes on as it was (R106, R129). -/
def State.readKeys (s : State) (r : MsgRec) (l : List Nat) : State :=
  s.modMsg r.id (fun x => { x with phase := .vaultRead l, back := r.phase })

/-- The first lap of a message takes its generated IV and fill from what was drawn (R137). -/
def State.seedCtx (s : State) (r : MsgRec) (c : Ctx) : Ctx :=
  if r.done_ != 0 || r.op.family != 2 then c
  else
    let v := (s.jobOf r).ivLen
    let iv := if r.m.seg ≤ 1 then r.random.take v else c.iv
    { c with iv := iv, fill := if r.m.seg ≤ 1 then r.random.drop v else r.random }

/-- Keep a context: in the stream, or in the message. -/
def State.putCtx (s : State) (r : MsgRec) (c : Ctx) : State :=
  if s.inStream r then
    s.modFlow r.inst r.m.flowId (fun f => { f with stream := f.stream.map (fun t => { t with ctx := c }) })
  else s.modMsg r.id (fun x => { x with ctx := c })

/-- The registers and the operand memory of an engine when work starts on it: key registers kept under R130, otherwise cleared and
loaded; sequencer registers, padding unit and operand memory of this work (R129, R153, R196, R197). -/
def Engine.start (x : Engine) (k : Nat) (j : Job) (c : Ctx) (r : MsgRec) : Engine :=
  let same := x.holds r
  { work := some r.id, inst := some r.inst, domain := some r.domain
    keyA := r.keyA.map KeyRef.tag, keyB := r.keyB.map KeyRef.tag
    key := if k == 2 then KeyRegs.reset else if same then x.key else j.load
    regs := j.startRegs c, padBuf := c.held ++ c.fill
    pass := if same then x.pass else []
    mem := if k == 2 then j.operands (same && x.domain == some r.domain) x.mem r.m.input r.random (Config.intermediates r.id) else OpMem.reset }

/-- A lap or operation starts on an engine: its registers are loaded, and a freewheeling cluster wakes (R124, R130). -/
def State.startOn (s : State) (e : Nat) (r : MsgRec) : State :=
  let c := s.seedCtx r (s.ctxOf r)
  let s := s.modEng e (fun x => x.start (engKind e) (s.jobOf r) c r)
  let s := s.putCtx r c
  let s := s.modClu (engCluster e) Cluster.wake
  s.modMsg r.id (fun x => { x with phase := .running, engine := e, random := r.random, stamp := 0 })

def State.modInternal (s : State) (id : Nat) (f : IntOp → IntOp) : State :=
  { s with sch := { s.sch with internal := s.sch.internal.map (fun x => if x.id == id then f x else x) } }

/-- The key that an operation loads is not in the key cache. One that has changed since is loaded as it was (R101, R209). -/
def State.opKeyMissing (s : State) (x : IntOp) : Bool :=
  match x.work.key with
  | some k => (s.findObj k.handle).any (fun o => o.version == k.version && !s.kcHas o)
  | none => false

/-- The random values that an operation for a message takes are those drawn for the message. -/
def State.ownerRandom (s : State) (x : IntOp) : Bytes :=
  match x.owner with
  | .message id => ((s.findMsg id).map (·.random)).getD []
  | _ => x.random

/-- An internal-world operation starts on an engine, or first waits for the vault read of its key (R197). Its random values are drawn
now (R207); all 8 KiB are cleared before its key load, and it is charged to no instance (R110, R198). -/
def State.startInternal (s : State) (e : Nat) (x : IntOp) : State :=
  if s.opKeyMissing x then s.modInternal x.id (fun y => { y with reading := true })
  else
    let w := if x.work.need ≤ x.random.length then (x.random, s) else s.drawBytes 259 x.work.need
    let x := { x with random := w.1 }
    let mem := x.work.operands (w.2.ownerRandom x) (Config.intermediates x.id)
    ((w.2.modInternal x.id (fun _ => x)).modEng e (fun y => { y.clear with work := some x.id, mem := mem })).modClu (engCluster e)
      Cluster.wake

/-- A message ends with a status of the random source (R208, R223, R225). -/
def State.randomFails (s : State) (r : MsgRec) (st : BitVec 16) : State :=
  let s := if r.op == .lcTransition then s.lcFail s.lc (lcTarget r.m) st else s
  (s.modMsg r.id (fun x => { x with engine := 0xFF })).endOrHold { r with engine := 0xFF } (.failed (Final.plain st))

/-- Random bytes asked for: those in the queue are kept with the message, otherwise it waits. -/
def State.drawFor (s : State) (r : MsgRec) (g n : Nat) : State :=
  match s.request g n with
  | .bytes b t => t.modMsg r.id (fun x => { x with random := x.random ++ b })
  | .call => s.modMsg r.id (fun x => { x with phase := .genCall, gen := g, want := n })
  | .hold => s.modMsg r.id (fun x => { x with phase := .rngWait, gen := g, want := n })
  | .fault => s.randomFails r Status.rngFault

/-- A message picked for an engine starts, unless a key must first be read from the vault or its random bytes drawn (R129, R137,
R197, R207). A key whose line left the key cache since admission is read again (DEDUCED, log 64). Credit is charged for work that
starts: s is the state before the charge, t after it. -/
def State.startOrDraw (s t : State) (e : Nat) (r : MsgRec) : State :=
  let d := s.msgDraw r
  let missing := if (s.getEng e).holds r then [] else s.keysMissing r
  if !missing.isEmpty then s.readKeys r missing
  else if r.done_ != 0 || r.random.length ≥ d.2 then t.startOn e r
  else if r.makesPair && s.keyGenFault d.1 then s.randomFails r Status.rngFault
  else match t.request d.1 d.2 with
    | .bytes b u => u.startOn e { r with random := b }
    | _ => s.drawFor r d.1 d.2

/-- One engine takes work, if there is any for it; none when nothing changes. -/
def State.dispatchOn (s : State) (e : Nat) : Option State :=
  let s := s.stampReady
  let k := engKind e
  let c := engCluster e
  if !s.takesWork c || (s.getEng e).work.isSome then none
  else match s.pickInternal e with
    | some x => some (s.startInternal e x)
    | none =>
      if s.paused then none
      else match s.pick e k with
        | some (r, t) => if s.hasRoom c r then some (s.startOrDraw t e r) else none
        | none => none

/-- The first free engine of a kind that can take work does (R121). -/
def State.dispatchKind (s : State) (k : Nat) : Option State :=
  if (s.paused || (s.readyWork k).isEmpty) && !(k == 2 && !s.internalWaiting.isEmpty) then none
  else (s.freeEngines k).findSome? s.dispatchOn

/-- One start of any kind. -/
def State.dispatchOne (s : State) : Option State :=
  s.dispatchKind 0 <|> s.dispatchKind 1 <|> s.dispatchKind 2

end Sys2Proof.Machine
end

