-- ==== Sys2Proof/Machine/Pipeline.lean ====
section
/-! DEFINITION. The path of a message from its fetch to its end: steps 5 to 9, templates, flows, CANCEL, random requests and
the acts of the control path (R64 to R106, R181, R182, R220 to R229, R354 to R364). -/

namespace Sys2Proof.Machine

/-- Keep a message's record. -/
def State.setMsg (s : State) (r : MsgRec) : State := s.modMsg r.id (fun _ => r)

/-! Refusals (R79, R84 to R86) -/

/-- A message of an open stream. -/
def State.streamIsOpen (s : State) (n fid : Nat) : Bool := ((s.findFlow n fid).bind (·.stream)).isSome

/-- A refusal at step 4: a middle or last segment fails its flow's open stream. -/
def State.refuse4 (s : State) (r : MsgRec) (f : Final) : State :=
  let n := r.inst
  let fid := r.m.flowId
  if r.m.seg ≥ 2 && s.streamIsOpen n fid then
    (s.refuse r { f with closed := true, discard := s.streamWrote n fid }).failStream n fid
  else s.refuse r f

/-- A refusal at steps 6 to 8: a segment fails its stream. -/
def State.refuseSeg (s : State) (r : MsgRec) (f : Final) : State :=
  let s := s.releaseHeld r
  if s.inStream r then (s.refuse r (s.failFlags r f)).failStream r.inst r.m.flowId else s.refuse r f

/-! The ends of work -/

/-- A message ends well: the last segment of a stream closes it (R71, R84). -/
def State.finishMsg (s : State) (r : MsgRec) (out : Bytes) : State :=
  let last := s.inStream r && (r.m.seg == 0 || r.m.seg == 3)
  let s : State := if last then s.closeStream r.inst r.m.flowId
    else if s.inStream r && !out.isEmpty then
      s.modFlow r.inst r.m.flowId (fun f => { f with stream := f.stream.map (fun t => { t with wrote := true }) })
    else s
  (s.releaseHeld r).complete r { Final.good out with closed := last } false

/-- The object a ROUTE 1 computation creates (R183 to R185, R203, R205). -/
def State.derived (s : State) (r : MsgRec) (secret : Bytes) : Obj :=
  let j := s.jobOf r
  let hash := hmacHash j.alg
  let hmacOp := Op.isHmac r.op
  let n := if hmacOp then dtypeLen (byteAt j.fp 0) ((hash.map Hash.size).getD 0) else secret.length
  let h := (r.reserved <|> (s.streamOf r).bind (·.reserved)).getD 0
  { Obj.reset with
    handle := h
    alg := if hmacOp then dtypeAlg (byteAt j.fp 0) j.alg else route1Alg j
    usage := BitVec.ofNat 32 (leAt j.fp 4 4)
    world := byteAt j.fp 1
    lcmask := BitVec.ofNat 8 (byteAt j.fp 2)
    origin := 3
    version := 1
    validFrom := (r.keyA.map (·.validFrom)).getD 0
    validUntil := (r.keyA.map (·.validUntil)).getD (2 ^ 64 - 1)
    insts := if byteAt j.fp 3 == 1 then (1 : BitVec 256) <<< r.inst else (r.keyA.map (·.insts)).getD 0
    created := s.seconds
    material := secret.take n }

/-- The last output of a data message: to the host, to the result slot of a HOLD flow, or into the vault. -/
def State.deliver (s : State) (r : MsgRec) (out : Bytes) : State :=
  match s.flowOf r with
  | some f =>
    if f.route == 1 && Op.isHmac r.op then s.accept (some r.id) [.create (s.derived r out)] (Final.good [])
    else if f.holds then
      (s.modFlow r.inst f.id (fun f => { f with result := some out })).finishMsg r []
    else s.finishMsg r out
  | none => s.finishMsg r out

/-! Flows (R98, R99, R101) -/

/-- The check value of a flow's key in RESULT. Of a key that has changed between step 8 and the installation it is the present
object's, and 0 when the object is gone (DESIGN CHOICE, log 60: R98 does not say). -/
def State.keyCheckValue (s : State) (k : Option KeyRef) : Bytes :=
  (k.map (fun k => fit 3 (((s.findObj k.handle).map (·.kcv)).getD []))).getD (zeros 3)

/-- Lap length of a flow (R98, R107). -/
def State.flowLap (s : State) (o : Op) (slot : Nat) (tdea : Bool) : Nat :=
  if Op.isPk o then 0
  else match s.program slot with
    | some p => if tdea && p.kind == 1 then p.lapT else p.lapA
    | none => 65536

/-- A FLOW_OPEN past step 4 when its instance was unbound (R95, R305). -/
def MsgRec.unbound (r : MsgRec) : Bool := r.stale == some Status.instanceUnbound

/-- Installation and completion of a FLOW_OPEN (Table 4.2). One past step 4 when its instance is unbound completes normally (R95), and
its flow has ended with the unbinding (R305): it leaves no entry. -/
def State.installFlow (s : State) (r : MsgRec) : State :=
  match flowOp r.m with
  | none => s
  | some o =>
    let used := (s.sch.flows.filter (fun f => f.inst == r.inst)).map (·.id)
    let id := lowestFree used used.length 1
    let alg := (r.keyA.map (·.alg)).getD 0
    let slot := if flowSlot r.m == 0xFF then builtinSlot o (flowFparam r.m) (isTdea alg) else flowSlot r.m
    let lap := s.flowLap o slot (isTdea alg)
    let keys := [r.keyA, r.keyB].filterMap (fun k => k.map (·.handle))
    let pin := !r.unbound && !keys.isEmpty && s.kcPinned < kcPinLimit
    let f : Flow := { Flow.reset with
      inst := r.inst, id := id, op := o, kind := o.kind.getD 0, slot := slot, pad := flowPad r.m, route := flowRoute r.m
      fparam := flowFparam r.m, lap := lap, keyA := r.keyA, keyB := r.keyB
      stale := r.stale, pinned := pin }
    let out := leBytes 2 id ++ leBytes 1 (o.kind.getD 0) ++ leBytes 1 slot ++ leBytes 4 lap ++ s.keyCheckValue r.keyA
      ++ s.keyCheckValue r.keyB ++ zeros 2
    let s : State := if pin then keys.foldl State.kcPin s else s
    { s with sch := { s.sch with flows := if r.unbound then s.sch.flows else s.sch.flows ++ [f] } }.complete r (Final.good out) false

/-! The key cache (R106, R129, R249) -/

/-- A message goes on once its keys are in the cache. -/
def State.keysReady (s : State) (r : MsgRec) : State :=
  match s.keysMissing r with
  | [] => s.modMsg r.id (fun x => { x with phase := .ready })
  | l => s.readKeys { r with phase := .ready } l

/-! FLOW_CLOSE, CANCEL, DIGEST_RESULT (R87 to R89, R102, R182) -/

/-- A FLOW_CLOSE past step 9 whose flow a pause still keeps from being ended (R102, R121). -/
def State.closePending (s : State) (r : MsgRec) : Bool :=
  r.op == .flowClose && ((s.findFlow r.inst r.m.flowId).map (fun f => f.closing == some r.id)).getD false

/-- An admitted message has begun: it has been served random bytes or waits for some, has work of the internal world, has taken its
flow away, or is past what a pause, a restart or a full tandem table holds before its act (R88, R121). -/
def State.underWay (s : State) (r : MsgRec) : Bool :=
  r.admitted && (r.phase != .ready || !r.random.isEmpty || s.serving (.message r.id) || s.served (.message r.id)
    || (r.op == .flowClose && !s.closePending r))

/-- Not cancellable once under way (Table 3.10a): a vault commit, a key replacement, a ledger posting, a tandem or administration
message, a FLOW_OPEN or FLOW_CLOSE. One admitted and not started is removed. -/
def State.notCancellable (s : State) (r : MsgRec) : Bool :=
  r.phase == .commit || r.phase == .custody
    || (s.underWay r && (r.op == .keyUpdate || r.op == .keyRestore || r.op.family == 8 || r.op.isAdmin
          || r.op == .flowOpen || r.op == .flowClose))
    || (r.op == .ledgerPost && r.isRunning)

/-- The messages a CANCEL targets. -/
def State.cancelTargets (s : State) (r : MsgRec) : List MsgRec :=
  s.sch.msgs.filter (fun x => x.inst == r.inst && x.id != r.id && x.op != .cancel && !x.m.uart &&
    (match r.m.field 44 1 with
     | 0 => x.m.cell.tag.toNat == r.m.field 40 4
     | 1 => x.m.flowId == r.m.flowId
     | _ => true))

/-- End the cancellable messages of a list. -/
def State.cancelAll (s : State) (l : List MsgRec) : State :=
  let ids := (l.filter (fun x => !s.notCancellable x)).map (·.id)
  s.abortAll (fun x => ids.contains x.id)

def State.applyCancel (s : State) (r : MsgRec) : State :=
  let l := s.cancelTargets r
  if l.isEmpty then s.refuse r (Final.plain Status.tagNotFound)
  else
    let kept := (l.filter s.notCancellable).length
    (s.cancelAll l).complete r (Final.told (leBytes 4 (l.length - kept) ++ leBytes 4 kept)) false

/-- Step 1 of Table 4.4: a FLOW_CLOSE past step 9 closes its flow to later messages, in a pause too. -/
def State.beginClose (s : State) (r : MsgRec) : State := s.modFlow r.inst r.m.flowId (fun f => { f with closing := some r.id })

/-- The other messages that name the flow of a FLOW_CLOSE: those fetched before it, since a later one meets step 5 after it. -/
def MsgRec.ofClosing (r x : MsgRec) : Bool := x.inst == r.inst && x.id < r.id && x.m.flowId == r.m.flowId && x.op != .cancel

/-- Steps 2 to 4 of Table 4.4: the flow's messages are cancelled, its stream fails, its keys are unpinned and its entry returned. A
message that is not cancellable goes on without the flow. -/
def State.closeFlow (s : State) (r : MsgRec) : State :=
  let fid := r.m.flowId
  let s := (s.cancelAll (s.sch.msgs.filter r.ofClosing)).failStream r.inst fid
  s.dropFlows (fun f => f.inst == r.inst && f.id == fid)

/-- Step 5 of Table 4.4: a FLOW_CLOSE whose flow is gone completes with the last message of that flow. -/
def State.closeDone (s : State) (r : MsgRec) : Bool :=
  r.op == .flowClose && r.phase == .ready && !s.closePending r && !s.sch.msgs.any r.ofClosing

def State.giveResult (s : State) (r : MsgRec) : State :=
  match s.findFlow r.inst r.m.flowId with
  | none => s.abortMsg r
  | some f =>
    match f.result with
    | some b => s.complete r (Final.good b) false
    | none => s.complete r { Final.plain Status.digestNotReady with output := zeros f.resultLen } false

/-! Random requests (R220 to R229) -/

/-- RANDOM_GENERATE and RANDOM_RESEED reach execution. -/
def State.runRandom (s : State) (r : MsgRec) : State :=
  if s.rng.phase == 5 then s.randomFails r Status.rngFault
  else if r.op == .randomGenerate && r.random.length == r.m.field 40 4 then s.complete r (Final.good r.random) false
  else if r.wantsBlock then
    s.modMsg r.id (fun x => { x with phase := .rngWait, gen := r.inst, want := r.m.field 40 4 })
  else match s.request r.inst (r.m.field 40 4) with
    | .bytes b t => t.complete r (Final.good b) false
    | _ => s.drawFor r r.inst (r.m.field 40 4)

/-! The acts of the control path -/

/-- Generators and bytes that a control-path opcode draws before it acts, in order. -/
def State.controlDraws (s : State) (r : MsgRec) : List (Nat × Nat) :=
  match r.op with
  | .keyGenerate => [keyGenerateDraw r]
  | .receiveKeyGet => [(259, 56)]
  | .keyExport => [(257, 12), (259, 32), (259, 56)]
  | .tandemBegin => [(257, 32)]
  | .ledgerChainOpen => ledgerOpenDraws s r
  | .ledgerCheckpoint => ledgerDraws s r
  | .ledgerCheckpointGet => [(259, 56)]
  | .ledgerChainClose => ledgerDraws s r
  | .recorderRead => recorderDraws r.m
  | .lcTransition => lcDraws s r.m
  | .debugAuthorize => debugDraws r.m
  | _ => []

/-- The first draw not yet served. -/
def nextDraw : List (Nat × Nat) → Nat → Option (Nat × Nat)
  | [], _ => none
  | d :: r, got => if got < d.2 then some d else nextDraw r (got - d.2)

def State.controlAct (s : State) (r : MsgRec) : Acted :=
  match r.op with
  | .objectInfo => objectInfoAct s r
  | .objectDelete => objectDeleteAct s r
  | .objectRestrict => objectRestrictAct s r
  | .vaultUsage => vaultUsageAct s r
  | .keyGenerate => keyGenerateAct s r
  | .keyUpdate => keyUpdateAct s r
  | .receiveKeyGet => receiveKeyGetAct s r
  | .keyComponent => keyComponentAct s r
  | .keyExport => keyExportAct s r
  | .keyRestore => keyRestoreAct s r
  | .publicKeyGet => publicKeyGetAct s r
  | .identityGet => identityGetAct s r
  | .tandemBegin => tandemBeginAct s r
  | .tandemSign => tandemSignAct s r
  | .tandemStatus => tandemStatusAct s r
  | .domainInfo => domainInfoAct s r
  | .policySet => policySetAct s r
  | .rosterSet => rosterSetAct s r
  | .domainPurge => domainPurgeAct s r
  | .domainCreate => domainCreateAct s r
  | .domainDelete => domainDeleteAct s r
  | .domainQuota => domainQuotaAct s r
  | .ledgerChainOpen => ledgerChainOpenAct s r
  | .ledgerCheckpoint => ledgerCheckpointAct s r
  | .ledgerStatus => ledgerStatusAct s r
  | .ledgerCheckpointGet => ledgerCheckpointGetAct s r
  | .ledgerChainClose => ledgerChainCloseAct s r
  | .instanceBind => instanceBindAct s r
  | .instanceUnbind => instanceUnbindAct s r
  | .instanceQuota => instanceQuotaAct s r
  | .imageWrite => imageWriteAct s r
  | .imageAccept => imageAcceptAct s r
  | .recorderRead => recorderReadAct s r
  | .recorderFreeze => recorderFreezeAct s r
  | .lcTransition => lcTransitionAct s r
  | .debugAuthorize => debugAuthorizeAct s r
  | .healthRead => healthReadAct s r
  | .labelSet => labelSetAct s r
  | .labelDelete => labelDeleteAct s r
  | .labelLookup => labelLookupAct s r
  | _ => .ends (Final.good []) s

/-- The end of an act: POLICY_REFUSED is a refusal (R384); a number reserved and not used is released. -/
def State.endAct (s : State) (r : MsgRec) (f : Final) : State :=
  let r := (s.findMsg r.id).getD r
  let s := s.releaseHeld r
  if f.status == Status.policyRefused then s.refuse r f else s.complete r f false

/-- What an act answers is carried out. -/
def acted (r : MsgRec) : Acted → State
  | .ends f t => t.endAct r f
  | .commit l f t => t.accept (some r.id) l f
  | .engine t => t
  | .custody t => t

/-- The act of an admitted control-path message. A transition runs on the custody pair (R394). -/
def State.actNow (s : State) (r : MsgRec) : State :=
  if r.op == .lcTransition then
    let s := s.modMsg r.id (fun x => { x with phase := .custody })
    acted r (s.controlAct { r with phase := .custody })
  else acted r (s.controlAct r)

/-- Public-key operations that the internal world makes for an act: identity signatures, the seal of a checkpoint, a domain's
receive key (R110, R279, R283, R347). -/
def State.internalWork (s : State) (r : MsgRec) : List IntWork :=
  let sign := if s.ident.present then s.idSignWork r.m.input else []
  match r.op with
  | .receiveKeyGet => s.drkWork (s.dom' r) ++ sign
  | .keyExport => sign
  | .ledgerChainOpen => ((s.readObj r.m.keyA).elim (fun _ => []) sealWork) ++ sign
  | .ledgerCheckpoint | .ledgerChainClose => s.chainSealWork (s.dom' r) (ledgerChain r.m) ++ sign
  | .ledgerCheckpointGet => sign
  | .recorderRead => if recorderSigned r.m then sign else []
  | _ => []

/-- A message waits for operations of the internal world; with no engine to run them it ends as work of that kind does (R117,
R120; DEDUCED, log 48). -/
def State.askInternal (s : State) (r : MsgRec) (l : List IntWork) : State :=
  if s.usableClusters.isEmpty then
    if r.admitted then s.failMsg r (Final.plain Status.busyNoEngine) else s.refuse r (Final.refuse Status.busyNoEngine 0)
  else s.submit (.message r.id) l

/-- Serve the draws of a control-path message and the work of the internal world for it, then let it act. Key generation needs a healthy source (R226). Fuel bounds
the draws. -/
def State.runControlF : Nat → State → Nat → State
  | 0, s, _ => s
  | f + 1, s, id =>
    match s.findMsg id with
    | none => s
    | some r =>
      if r.phase != .ready then s
      else match nextDraw (s.controlDraws r) r.random.length with
        | some d =>
          if r.op == .keyGenerate && s.keyGenFault d.1 then s.randomFails r Status.rngFault
          else (s.drawFor r d.1 d.2).runControlF f id
        | none =>
          let l := s.internalWork r
          if l.isEmpty || s.served (.message r.id) then (s.useServed (.message r.id)).actNow r else s.askInternal r l

def State.runControl (s : State) (r : MsgRec) : State := (s.beginRead r).runControlF 8 r.id

/-- A message that the control path runs when it is ready: none of the data path's, and no pair waiting for an engine. -/
def MsgRec.onControl (r : MsgRec) : Bool :=
  !(r.op.isData || r.op.isHub || r.op.family == 5 || r.op == .flowOpen || r.makesPair)

/-! Admission and execution -/

/-- A FLOW_OPEN whose keys are in the cache may be installed: not during a hub reset or a control-pair restart (R22, R23). -/
def State.installable (s : State) (r : MsgRec) : Bool :=
  r.op == .flowOpen && r.phase == .ready && s.glb.hubReset == 0 && !s.glb.ctrlRestart && !s.holdsBack r

/-- A message that the control pair can act on now. A restart of the pair does not hold a transition past step 9 (R94). -/
def State.runnable (s : State) (r : MsgRec) : Bool :=
  r.phase == .ready && r.onControl && !s.serving (.message r.id) && (!s.glb.ctrlRestart || r.op == .lcTransition) && !s.holdsBack r
    && !(r.op == .tandemBegin && s.tandemsFull (s.dom' r))

/-- A message that a pause held before its hardware act. -/
def State.resumes (s : State) (r : MsgRec) : Bool :=
  r.phase == .ready && !s.holdsBack r && (match r.op with
    | .digestResult | .randomGenerate | .randomReseed => true
    | .flowClose => s.closePending r
    | _ => false)

/-- A FLOW_CLOSE completes, or an IMAGE_WRITE whose chunk is programmed. -/
def State.endClose (s : State) (r : MsgRec) : State := s.complete r (Final.good []) false

/-- The keys of a data message or FLOW_OPEN, counted and read if they are missing. -/
def State.loadKeys (s : State) (r : MsgRec) : State := ((s.useLine r.keyA).useLine r.keyB).keysReady r

/-- The message goes on to an act, if it is still there and the act can be made now. -/
def State.thenIf (s : State) (id : Nat) (p : State → MsgRec → Bool) (f : State → MsgRec → State) : State :=
  match s.findMsg id with
  | some r => if p s r then f s r else s
  | none => s

/-- The act of a message that the data path makes by hardware. -/
def State.hardwareAct (s : State) (r : MsgRec) : State :=
  match r.op with
  | .flowClose => (s.closeFlow r).thenIf r.id State.closeDone State.endClose
  | .digestResult => s.giveResult r
  | .randomGenerate | .randomReseed => s.runRandom r
  | _ => s

/-- Execution begins (step 10). A pause holds it (R121). -/
def State.execute (s : State) (r : MsgRec) : State :=
  match r.op with
  | .nop => s.complete r (Final.good []) false
  | .cancel => s.applyCancel r
  | .flowClose => let s := s.beginClose r; if s.holdsBack r then s else s.hardwareAct r
  | .digestResult | .randomGenerate | .randomReseed => if s.holdsBack r then s else s.hardwareAct r
  | .ledgerPost => s
  | .flowOpen => (s.loadKeys r).thenIf r.id State.installable State.installFlow
  | .lcTransition => (s.lcBegin (lcTarget r.m)).thenIf r.id State.runnable State.runControl
  | o =>
    if o.isData then s.loadKeys r
    -- R226: a generation that reaches execution while the source is unhealthy ends at once.
    else if r.makesPair && s.keyGenFault 259 && !s.holdsBack r then s.randomFails r Status.rngFault
    else if s.runnable r then s.runControl r
    else s

/-- The record of a message that passes step 9. -/
def MsgRec.entered (r : MsgRec) : MsgRec := { r with phase := .ready, tandem := none }

/-- A message passes step 9 (R84, R114, R181, R314): its segment is accepted, its tandem consumed, and it is the last of the
admitted messages. -/
def State.enter (s : State) (r : MsgRec) : State :=
  let begins := ((s.flowOf r).map (fun f => f.begins r.m)).getD false
  let s : State := if s.inStream r then
      s.modFlow r.inst r.m.flowId (fun f => { f with
        stream := f.stream.map (fun t => { t with accepted := t.accepted + r.m.inLen })
        result := if begins then none else f.result })
    else s
  let s : State := match r.tandem with
    | some t => { s with dom := { s.dom with tandems := s.dom.tandems.filter (fun x => x.tid != t) } }
    | none => s
  let s := s.dropMsg r.id
  { s with sch := { s.sch with msgs := s.sch.msgs ++ [r.entered] } }

/-- Admission, and the beginning of execution. -/
def State.admitMsg (s : State) (r : MsgRec) : State := (s.enter r).execute r.entered

/-- Step 9. A first segment refused here closes its stream without failing it (R84). -/
def State.step9 (s : State) (r : MsgRec) : State :=
  match s.check9 r with
  | none => s.admitMsg r
  | some f =>
    let begins := ((s.flowOf r).map (fun f => f.begins r.m)).getD false
    let s := (s.releaseHeld r).refuse r f
    if begins then s.closeStream r.inst r.m.flowId else s

/-! Step 8 -/

/-- What step 8 answers: refused, waiting for a template, waiting for another message, or passed. -/
inductive Step8 where
  | no (f : Final) (s : State)
  | build (s : State)
  | hold
  /-- Waits for public-key operations of the internal world. -/
  | work (l : List IntWork)
  | ok (s : State) (r : MsgRec)

/-- OBJECT of a ROUTE 1 message (R178, Table 8.6). -/
def route1Object (r : MsgRec) : Nat := if Op.isPk r.op then r.m.field 48 4 else leAt r.m.pBlock 0 4

/-- The end of step 8 of a data message: key-dependent checks, then the number of a ROUTE 1 object (R185). -/
def State.dataEnd8 (s : State) (r : MsgRec) : Step8 :=
  match s.data8 r with
  | some f => .no f s
  | none =>
    if ((s.flowOf r).map (·.route)).getD 0 != 1 || r.m.seg > 1 then .ok s r
    else
      let d := s.dom' r
      match s.needWrites <|> s.checkNew d (route1Object r) with
      | some f => .no f s
      | none =>
        let h := s.reserve d (route1Object r)
        if r.m.seg == 1 then
          .ok (h.2.modFlow r.inst r.m.flowId (fun f => { f with stream := f.stream.map (fun t =>
            { t with reserved := some h.1 }) })) r
        else .ok h.2 { r with reserved := some h.1 }

/-- Step 8 on a flow (R100, R101). -/
def State.flow8 (s : State) (r : MsgRec) (f : Flow) : Step8 :=
  match f.stale with
  | some st => .no (Final.plain st) s
  | none =>
    if !(s.windowOk f.keyA && s.windowOk f.keyB) then .no (Final.plain Status.keyValidity) s
    else s.dataEnd8 { r with keyA := f.keyA, keyB := f.keyB }

/-! Templates (R104 to R106) -/

def Template.is (t : Template) (r : MsgRec) : Bool :=
  t.inst == r.inst && t.op == r.op && t.keyA == r.m.keyA && t.keyB == r.m.keyB && t.extra == r.extra

/-- A template that stands: being built, positive, or negative and not expired. -/
def State.stands (s : State) (t : Template) : Bool := t.building || t.status == Status.ok || s.opTime < t.expires

/-- A new template, the least recently used one replaced when 16,384 are held. -/
def State.putTemplate (s : State) (t : Template) : State :=
  let rest := s.sch.templates.filter (fun x => !(x.inst == t.inst && x.op == t.op && x.keyA == t.keyA && x.keyB == t.keyB
    && x.extra == t.extra))
  let rest := if s.templatesHeld.length ≥ 16384 && !t.building then
      match rest.find? (fun x => !x.building) with
      | some y => rest.erase y
      | none => rest
    else rest
  { s with sch := { s.sch with templates := rest ++ [t] } }

/-- Step 8 on an implicit flow. -/
def State.template8 (s : State) (r : MsgRec) : Step8 :=
  let miss : State := { s with sch := { s.sch with tplMiss := satAdd 64 s.sch.tplMiss 1 } }
  match s.sch.templates.find? (fun t => t.is r && s.stands t) with
  | some t =>
    if t.building then .build miss
    else
      let s := { s with sch := { s.sch with
        tplHit := satAdd 64 s.sch.tplHit 1, templates := s.sch.templates.erase t ++ [t] } }
      if t.status != Status.ok then .no (Final.refuse t.status t.detail.toNat) s
      else if !(s.windowOk t.refA && s.windowOk t.refB) then .no (Final.plain Status.keyValidity) s
      else s.dataEnd8 { r with keyA := t.refA, keyB := t.refB }
  | none =>
    if (r.m.keyA != noHandle || r.m.keyB != noHandle) && !s.mounted then .no (Final.plain Status.vaultNotMounted) s
    else
      .build (miss.putTemplate { Template.reset with
        inst := r.inst, op := r.op, keyA := r.m.keyA, keyB := r.m.keyB, extra := r.extra, building := true })

/-- Step 8 of a FLOW_OPEN. -/
def State.flowOpen8 (s : State) (r : MsgRec) : Step8 :=
  match flowOp r.m with
  | none => .no (Final.refuse Status.paramRange 40) s
  | some o =>
    match s.useKeys (s.dom' r) r.inst o (flowRoute r.m) (flowFparam r.m) (s.program (flowSlot r.m)) r.m.keyA r.m.keyB with
    | .inl f => .no f s
    | .inr (a, b) =>
      match slotFits r.m o a with
      | some f => .no f s
      | none => .ok s { r with keyA := a.map Obj.ref, keyB := b.map Obj.ref }

/-- A control-path message that passes step 8 holds its tandem and, where it creates an object, its number (R185, R314); a transition has
had the bank measured (R470). -/
def State.controlOk (s : State) (r : MsgRec) (t : Option Nat) : Step8 :=
  let s : State := match t with
    | some tid => s.modTandem tid (fun x => { x with reserved := some r.id })
    | none => s
  let r := { r with tandem := t }
  if r.op == .lcTransition then .ok (s.noteGate r.m.bank) r
  else if r.op == .keyGenerate || (r.op == .keyComponent && componentFinal r.m) then
    let h := s.reserve (s.dom' r) (r.m.field 40 4)
    .ok h.2 { r with reserved := some h.1 }
  else .ok s r

def State.step8 (s : State) (r : MsgRec) : Step8 :=
  match r.op with
  | .flowOpen => s.flowOpen8 r
  | o =>
    if o.isData then
      match s.flowOf r with
      | some f => s.flow8 r f
      | none => s.template8 r
    else match s.control8 r with
      | .no f t => .no f t
      | .hold => .hold
      | .work l => .work l
      | .ok t => s.controlOk r t

/-- A message waits at step 8, in the order in which messages reach it. -/
def State.waitAt8 (s : State) (r : MsgRec) : MsgRec :=
  { r with phase := .wait, step := 8
           reached := if r.reached == 0 then (s.sch.msgs.map (·.reached)).foldl max 0 + 1 else r.reached }

/-- What follows step 8. -/
def State.afterStep8 (s : State) (r : MsgRec) : Step8 → State
  | .work l => (s.setMsg (s.waitAt8 r)).askInternal (s.waitAt8 r) l
  | .no f t => t.refuseSeg r f
  | .build t => t.setMsg { r with phase := .building, step := 8 }
  | .hold => s.setMsg (s.waitAt8 r)
  | .ok t x => t.step9 x

/-! Record mode (R354, R355, R360, R361) -/

/-- The message of a record in the place of the encapsulating one: a refusal with the record it is a refusal of, or the
message at its step 8. -/
def State.zrmConvert (s : State) (r : MsgRec) : (MsgRec × Final) ⊕ MsgRec :=
  let page := r.m.field 40 1
  let b := zrmAscii page r.m.input
  let d := s.dom' r
  let asRecord := { r with zrm := some b, zrmPage := page }
  if zrmNames b && !s.mounted then .inl (asRecord, Final.plain Status.vaultNotMounted)
  else match s.resolveLabel d b 12 with
    | .inl f => .inl (r, f)
    | .inr a => match s.resolveLabel d b 20 with
      | .inl f => .inl (r, f)
      | .inr k =>
        let o := (zrmOp (fieldD b 0 4)).getD .nop
        let x := { asRecord with op := o, m := zrmInner r.m b o a k ((s.findObj a).any (fun y => isTdea y.alg)) }
        match s.check7 x with
        | some f => .inl (x, f)
        | none => .inr x

/-! What holds a message (R23, R77, R94, R293, R316, R344, R368) -/

def MsgRec.undecided (r : MsgRec) : Bool := r.phase == .wait || r.phase == .building

/-- Messages that name one flow pass steps 5 to 9 one after another; a CANCEL that names it waits for an undecided FLOW_CLOSE
alone (R77, R84, R102; DEDUCED, log 58). -/
def State.blocked5 (s : State) (r : MsgRec) : Bool :=
  r.m.flowId != 0 && s.sch.msgs.any (fun x =>
    x.id < r.id && x.inst == r.inst && x.m.flowId == r.m.flowId && x.op != .cancel && x.undecided
      && (r.op != .cancel || x.op == .flowClose))

/-- Needs the vault: a key named in the message, an opcode of a family that reads it, or a record that names a label. -/
def MsgRec.usesVault (r : MsgRec) : Bool :=
  r.m.keyA != noHandle || r.m.keyB != noHandle || r.op.family == 6 || r.op.family == 8 || r.op.family == 9
    || r.op == .labelSet || r.op == .labelDelete || r.op == .labelLookup
    || (r.op == .zrmRecord && zrmNames (zrmAscii (r.m.field 40 1) r.m.input))

/-- Opcodes of which one runs at a time in a domain. -/
def sameTurn (a b : Op) : Bool :=
  (a.family == 8 && b.family == 8)
    || (a == .keyUpdate && (b == .keyUpdate || b == .domainPurge || b == .domainDelete))
    || ((a == .labelSet || a == .labelDelete) && (b == .labelSet || b == .labelDelete))

/-- A ledger opcode that runs on the control pair. -/
def Op.isLedgerControl (o : Op) : Bool := o.family == 9 && o != .ledgerPost

/-- Domains that a message acts on: its instance's, and the one that DOMAIN_CREATE, DOMAIN_DELETE or DOMAIN_QUOTA names. -/
def State.actsOn (s : State) (r : MsgRec) : List Nat :=
  s.dom' r :: (if r.op == .domainCreate || r.op == .domainDelete || r.op == .domainQuota then [r.m.field 40 2] else [])

/-- A message has reached step 8 before another, or passed it (R293, R316). -/
def MsgRec.before8 (x r : MsgRec) : Bool := x.admitted || (x.reached != 0 && (r.reached == 0 || x.reached < r.reached))

def State.blocked8 (s : State) (r : MsgRec) : Bool :=
  let d := s.dom' r
  s.serving (.message r.id)
  || (r.m.fence && s.sch.msgs.any (fun x => x.inst == r.inst && x.id < r.id))
  || (s.glb.ctrlRestart && r.op.needsControl && r.op != .zrmRecord)
  || (s.glb.phase == 1 && r.op != .cancel)
  || ((s.vlt.state == 1 || s.vlt.mountDue) && r.usesVault)
  || (r.op.isAdmin && s.sch.msgs.any (fun x => x.op.isAdmin && x.id < r.id))
  || s.sch.msgs.any (fun x => x.id != r.id && x.before8 r && sameTurn r.op x.op && (s.actsOn x).any (s.actsOn r).contains)
  || s.sch.msgs.any (fun x => x.id != r.id && x.admitted && s.dom' x == d
      && (Op.isLedgerControl r.op && Op.isLedgerControl x.op && ledgerChain x.m == ledgerChain r.m))
  || (Op.isLedgerControl r.op && s.chainInFlight d (ledgerChain r.m))
  || ((r.op == .ledgerCheckpoint || r.op == .ledgerChainClose) && s.checkpointOwed d (ledgerChain r.m))
  || (r.op == .flowOpen && s.glb.hubReset != 0)

/-! Steps 5 to 9 -/

def State.proceed8 (s : State) (r : MsgRec) : State :=
  let wait (r : MsgRec) : State := s.setMsg (s.waitAt8 r)
  if s.blocked8 r then wait r
  else if r.op == .zrmRecord then
    match s.zrmConvert r with
    | .inl (x, f) => s.refuse x f
    | .inr x => if s.blocked8 x then wait x else s.afterStep8 x (s.step8 x)
  else s.afterStep8 r (s.step8 r)

/-- The input as step 6 found it: IN_LEN bytes. -/
def Msg.whole (m : Msg) : Msg := if m.input.length == m.inLen then m else { m with input := fit m.inLen m.input }

def State.proceed5 (s : State) (r : MsgRec) : State :=
  match s.check5 r.op r.m with
  | some f => s.refuse r f
  | none =>
    let r := { r with flow := if r.op.isData && r.m.flowId != 0 then some r.m.flowId else none }
    let s := (s.openStream r).setMsg r
    match s.check6 r with
    | some f => s.refuseSeg r f
    | none =>
      let r := { r with m := Msg.whole r.m }
      match s.check7 r with
      | some f => s.refuseSeg r f
      | none => s.proceed8 r

/-- A waiting message goes on, if nothing holds it any more. -/
def State.tryWait (s : State) (r : MsgRec) : Option State :=
  if r.phase != .wait then none
  else if r.step == 5 then (if s.blocked5 r then none else some (s.proceed5 r))
  else if s.blocked8 r then none
  else if r.op == .zrmRecord then some (s.proceed8 r)
  else match s.step8 r with
    | .hold => none
    | x => some (s.afterStep8 r x)

/-! The fetch (R41, R47, R61 to R66, R80) -/

/-- Cells a message takes: the header alone when it is refused at step 1 or 2. -/
def cellsOf (m : Msg) : Nat := if (checkHeader m).isSome then 1 else 1 + m.cells

/-- The ring that a message comes from can be fetched, and holds it whole. -/
def State.fetchable (s : State) (m : Msg) : Bool :=
  let n := m.instN
  let i := s.getInst n
  let g := i.rings
  let size := 2 ^ g.sqLog2.toNat
  !m.uart && s.reachable n && g.en && !i.d3hot && s.ideServes n && s.vlt.state != 4 && !s.pwr.holdup
    && (n == 0 || !(s.kickstand || s.lostUnit || s.spent))
    && cellsOf m ≤ (g.tail + size - g.head) % size
    && s.reservedCells n < 2 ^ g.cqLog2.toNat - 1

/-- The cells are consumed and the ring-state line rewritten. -/
def State.fetch (s : State) (m : Msg) : State :=
  (s.modRings m.instN (fun g =>
    { g with head := (g.head + cellsOf m) % 2 ^ g.sqLog2.toNat, fetched := g.fetched + 1 })).writeLine m.instN

/-- Step 3 for a row of the table: the opcode is the row's, and permitted on the ring (R90, R92). -/
def checkOp (o : Op) (m : Msg) : Option Final :=
  failIf (m.cell.opcode != o.code) Status.opcodeUnknown 0
  <|> failIf (o.isAdmin && m.instN != 0) Status.adminOnly 0

/-- The record of a message at its fetch: it waits at step 5, and its entry carries the address of its first cell. -/
def State.newRec (s : State) (o : Op) (m : Msg) : MsgRec :=
  let i := s.getInst m.instN
  { MsgRec.reset with
    id := s.sch.nextId, op := o, domain := (s.domainOf m.instN).getD 0, m := m, phase := .wait, step := 5, engine := 0xFF
    addr := (i.rings.sqBase + BitVec.ofNat 64 (64 * i.rings.head)).toNat
    deadline := s.opTime + i.rngWait }

/-- The message is the last of those fetched. -/
def State.take (s : State) (o : Op) (m : Msg) : State :=
  let t := s.fetch m
  { t with sch := { t.sch with nextId := t.sch.nextId + 1, msgs := t.sch.msgs ++ [s.newRec o m] } }

/-- A fetched message runs through the checks as far as it can. Vector 1 is raised at each refusal with INSTANCE_UNBOUND, as well as at
the unbinding, for an instance never bound too (DESIGN CHOICE, log 70: R95 and Table 3.8 do not say how often). -/
def State.intake (s : State) (o : Op) (m : Msg) : State :=
  let r := s.newRec o m
  let s := s.take o m
  match checkHeader m <|> checkOp o m with
  | some f => s.refuse r f
  | none => match s.check4 o m.instN with
    | some f =>
      let s : State := if f.status == Status.instanceUnbound then s.raise m.instN 1 else s
      s.refuse4 r f
    | none => if s.blocked5 r then s else s.proceed5 r

/-- CHAL and RESP on the UART of the service port (R405): DEBUG_AUTHORIZE without a ring, in SPENT too. RESP is refused in IMAGO, and both
while a transition runs (DESIGN CHOICE, log 97). -/
def State.uartCommand (s : State) (m : Msg) : State :=
  if !s.pwr.booted || s.pwr.holdup then s
  else
    let r := s.newRec .debugAuthorize { m with cell := { m.cell with outCap := 128 } }
    let s := { s with sch := { s.sch with nextId := s.sch.nextId + 1, msgs := s.sch.msgs ++ [r] } }
    match failIf s.lcs.busy Status.lcState 7 <|> failIf (debugMode m == 1 && s.lc == 3) Status.lcState 1 <|> s.check7 r with
    | some f => s.refuse r f
    | none => s.proceed8 r

/-- A message command: fetched if its ring holds it. -/
def State.message (s : State) (o : Op) (m : Msg) : State :=
  if s.fetchable m then s.intake o m else if m.uart && o == .debugAuthorize then s.uartCommand m else s

end Sys2Proof.Machine
end

