-- ==== Sys2Proof/Machine/Complete.lean ====
section
/-! DEFINITION. The events that end waiting and running work: laps and public-key operations (R25, R108, R149, R192, R199),
template builds (R104, R105), vault reads (R249, R250), generate calls, conditioned blocks and wait limits (R217 to R229), and
the ends of tandems and component sessions (R296, R313). -/

namespace Sys2Proof.Machine

/-! Laps (R25, R107, R108, R131) -/

/-- The end of a lap clears the sequencer registers and the padding unit's buffers; the key registers stay loaded (R130, R131). -/
def Engine.endLap (x : Engine) : Engine := { x with work := none, regs := [], padBuf := [] }

/-- The end of a public-key operation clears the private key image, the random values and the intermediates; a public image stays under
R130 (R197, R198; DEDUCED, log 65). -/
def Engine.endOperation (x : Engine) (priv : Bool) : Engine :=
  if priv then { x with work := none, keyA := none, mem := { x.mem with image := [], consts := [], random := [], inter := [] } }
  else { x with work := none, mem := { x.mem with random := [], inter := [] } }

/-- A message's key image is private. -/
def MsgRec.privateImage (r : MsgRec) : Bool := (r.keyA.map (fun k => isPair k.alg k.material)).getD false

/-- Output of a lap that does not end its message: released, and its stream has written. -/
def State.releaseLap (s : State) (r : MsgRec) (out : Bytes) : State :=
  let w := s.release r out
  let t := w.1.setMsg w.2
  if s.inStream r && !out.isEmpty then
    t.modFlow r.inst r.m.flowId (fun f => { f with stream := f.stream.map (fun x => { x with wrote := true }) })
  else t

/-- One lap of a cipher or digest message under the registers of an engine: its context and output. The expected MAC is P of the
message that ends the stream (R148). -/
def State.runLap (s : State) (x : Engine) (r : MsgRec) (l : Lap) : Ctx × Bytes :=
  let j := s.jobOf r
  let c := s.ctxOf r
  let rest := r.m.input.drop r.done_
  match j.prog with
  | some p => seqLap x.key x.regs p j c rest l.n l.segEnd l.last r.m.pBlock
  | none =>
    if r.op.kind == some 1 then digestLap x.key j c (rest.take l.n) l.last
    else cipherLap x.key j c (rest.take l.n) l.segEnd l.last r.m.pBlock

/-- A lap of a cipher or digest message ends, on an engine whose registers were those of x: the last of a message or stream
delivers its result, the last of another segment ends that segment (R181, R183, R185). -/
def State.dataLapEnd (s : State) (x : Engine) (r : MsgRec) : State :=
  let l := s.nextLap r
  let y := s.runLap x r l
  if y.1.fail then s.failMsg r (Final.plain (failStatus r.op))
  else
    let s := s.putCtx r y.1
    let r := { (s.findMsg r.id).getD r with done_ := r.done_ + l.n, phase := .between }
    let s := s.setMsg r
    if l.last then s.deliver r y.2 else if l.segEnd then s.finishMsg r y.2 else s.releaseLap r y.2

/-- The pass buffer after a lap: the last lap of a built-in HMAC leaves its inner digest there (R175). -/
def State.passAfter (s : State) (x : Engine) (r : MsgRec) : Bytes :=
  let j := s.jobOf r
  let l := s.nextLap r
  if Op.isHmac r.op && j.prog.isNone && l.last then digestInner j (s.runLap x r l).1 else x.pass

/-- A transaction function ends (R326, R327). -/
def State.txLapEnd (s : State) (e : Engine) (r : MsgRec) : State :=
  let key (k : Option KeyRef) (b : Bytes) : KeyRef := (k.map (fun x => { x with material := b })).getD KeyRef.reset
  let x := txRun r.op r.m (key r.keyA e.key.a) (key r.keyB e.key.b) r.random
  if x.1 == Status.ok then s.deliver r x.2 else s.failMsg r (Final.plain x.1)

/-- A posting ends: its head update made, or refused by the counter it expects (R346). -/
def State.ledgerEnd (s : State) (r : MsgRec) : State :=
  let x := ledgerApply s r
  if x.1 then x.2.2.refuse r x.2.1
  else if x.2.1.status == Status.ok then x.2.2.complete r x.2.1 false
  else x.2.2.failMsg r x.2.1

/-- The lap of a posting ends. A resumption checkpoint owed since it started comes before the posting is applied (R350). -/
def State.ledgerLapEnd (s : State) (r : MsgRec) : State :=
  if s.ledgerHeld r then s.setMsg { r with phase := .between } else s.ledgerEnd r

/-- A posting whose head update can be made now. -/
def State.postingWaits (s : State) (r : MsgRec) : Bool := r.op == .ledgerPost && r.phase == .between && !s.ledgerHeld r

/-- A lap boundary: the engine itself is offered first, so a message that wins its own boundary stays on it (R108). -/
def State.boundary (s : State) (e : Nat) : State := (s.dispatchOn e).getD s

/-- LAP_COMPLETE on an engine that runs a lap. -/
def State.lapComplete (s : State) (e : Nat) : State :=
  if engKind e == 2 then s
  else match s.workOf e with
    | none => s
    | some r =>
      let x := s.getEng e
      let s := (s.modEng e (fun y => { y.endLap with pass := s.passAfter x r })).modClu (engCluster e)
        (fun y => { y with laps := satAdd 64 y.laps 1 })
      (if r.op == .ledgerPost then s.ledgerLapEnd r
       else if r.op.family == 7 then s.txLapEnd x r
       else s.dataLapEnd x r).boundary e

/-! Public-key operations (R192, R199 to R207) -/

/-- A public-key operation of a data message ends, on an engine whose operand memory was that of e. -/
def State.pkEnd (s : State) (e : Engine) (r : MsgRec) : State :=
  let j := s.jobOf r
  let x := pkRun (j.withImage e.mem.image) e.mem.input e.mem.random
  if x.status != Status.ok then s.failMsg r { Final.plain x.status with output := x.output }
  else if j.route == 1 then s.accept (some r.id) [.create (s.derived r x.secret)] (Final.good x.output)
  else s.finishMsg r x.output

/-- The control pair commits a generated pair. -/
def State.pairMade (s : State) (r : MsgRec) : State := acted r (keyPairMade s r)

/-- A pair whose operation ended during a control-pair restart (R23). -/
def State.pairWaits (s : State) (r : MsgRec) : Bool := r.op == .keyGenerate && r.phase == .between && !s.glb.ctrlRestart

/-- An owner still waits for its internal-world work. -/
def State.ownerWaits (s : State) (o : IntOwner) : Bool :=
  match o with
  | .message id => (s.findMsg id).isSome
  | .chain d c => (s.findChain d c).isSome
  | .spdm => s.lnk.spdm.waiting.isSome

/-- An internal-world operation ends; a receive key that it made is there from now on (R283), and with the last of its owner's the owner
goes on. -/
def State.endInternal (s : State) (x : IntOp) : State :=
  let s := s.modInternal x.id (fun y => { y with ended := true })
  let s : State := match x.work.drk with
    | some d => (match s.domRec d with | some q => s.setDomRec d { q with drk := true } | none => s)
    | none => s
  if s.serving x.owner then s
  else if s.ownerWaits x.owner then { s with sch := { s.sch with served := s.sch.served ++ [x.owner] } }
  else s.useServed x.owner

/-- PK_OPERATION_COMPLETE on an engine that runs an operation. -/
def State.pkComplete (s : State) (e : Nat) : State :=
  if engKind e != 2 then s
  else match s.workOf e with
    | none => match s.internalOn e with
      | none => s
      | some x =>
        let s := (s.modEng e (fun y => y.endOperation true)).modClu (engCluster e) (fun y => { y with pkops := satAdd 64 y.pkops 1 })
        (s.endInternal x).boundary e
    | some r =>
      let x := s.getEng e
      let s := (s.modEng e (fun y => y.endOperation r.privateImage)).modClu (engCluster e)
        (fun y => { y with pkops := satAdd 64 y.pkops 1 })
      (if r.op == .keyGenerate then
        let r := { r with phase := .between }
        let s := s.setMsg r
        if s.glb.ctrlRestart then s else s.pairMade r
       else s.pkEnd x r).boundary e

/-! Templates (R104, R105) -/

/-- The messages that wait for a build. -/
def State.waitersOf (s : State) (t : Template) : List MsgRec :=
  s.sch.msgs.filter (fun r => r.phase == .building && t.is r)

/-- Each waiting message that is still there goes on. -/
def State.eachWaiter (s : State) (l : List MsgRec) (f : State → MsgRec → State) : State :=
  l.foldl (fun t r => match t.findMsg r.id with
    | some r => if r.phase == .building then f t r else t
    | none => t) s

/-- One build ends: a positive or a negative template, and the messages that waited for it go on to the reads of their keys (R106, R249).
A key whose vault image is unreadable leaves no template (R250). -/
def State.buildOne (s : State) (t : Template) : State :=
  let l := s.waitersOf t
  let d := ((l.head?).map (·.domain)).getD ((s.domainOf t.inst).getD 0)
  -- A template is kept for an instance that is still bound to the domain it was built in (R95).
  let keep (x : Template) : State :=
    if s.domainOf t.inst == some d then s.putTemplate x else s.dropTemplates (· == t)
  match s.useKeys d t.inst t.op 0 (fit 16 (t.extra.take 2)) none t.keyA t.keyB with
  | .inl f =>
    if f.status == Status.vaultIntegrity then
      (s.dropTemplates (· == t)).eachWaiter l (fun u r => u.failMsg r f)
    else
      (keep { t with building := false, status := f.status, detail := f.detail
                     expires := s.opTime + 1000 }).eachWaiter l (fun u r => u.refuseSeg r f)
  | .inr (a, b) =>
    let t' := { t with building := false, refA := a.map Obj.ref, refB := b.map Obj.ref }
    (keep t').eachWaiter l (fun u r => u.afterStep8 r (u.dataEnd8 { r with keyA := t'.refA, keyB := t'.refB }))

/-- TEMPLATE_BUILD_COMPLETE: the builds of an instance, opcode and pair of keys. The control pair builds none while it
restarts (R23). -/
def State.buildTemplate (s : State) (n : Nat) (o : Op) (ka kb : Nat) : State :=
  if s.glb.ctrlRestart then s
  else (s.sch.templates.filter (fun t => t.building && t.inst == n && t.op == o && t.keyA == ka && t.keyB == kb)).foldl
    State.buildOne s

/-- NEGATIVE_TEMPLATE_EXPIRY: the second passes. -/
def State.expireTemplate (s : State) (n : Nat) (o : Op) (ka kb : Nat) : State :=
  let p (t : Template) : Bool := !t.building && t.status != Status.ok && t.inst == n && t.op == o && t.keyA == ka && t.keyB == kb
  let s := (s.sch.templates.filter p).foldl (fun u t => u.advance t.expires) s
  s.dropTemplates p

/-! Vault reads (R106, R249, R250) -/

/-- A message waits for an object that is being read. -/
def MsgRec.awaits (r : MsgRec) (h : Nat) : Bool :=
  match r.phase with
  | .vaultRead l => l.contains h
  | _ => false

/-- An object that a message waits for has been read; with the last of them the message goes on. -/
def MsgRec.keyRead (r : MsgRec) (h : Nat) : MsgRec :=
  match r.phase with
  | .vaultRead l => if (l.filter (· != h)).isEmpty then { r with phase := r.back } else { r with phase := .vaultRead (l.filter (· != h)) }
  | _ => r

/-- An operation of the internal world waits for an object that is being read. -/
def IntOp.awaits (x : IntOp) (h : Nat) : Bool := x.reading && (x.work.key.map (·.handle)) == some h

/-- The key of an operation of the internal world cannot be read: its message ends, its chain's checkpoints are blocked (R250, R349). -/
def State.opUnread (s : State) (x : IntOp) : State :=
  match x.owner with
  | .message id => match s.findMsg id with
    | some r => if s.endIsHeld r then s else (s.stopOwner x.owner).endOrHold r (.failed (Final.plain Status.vaultIntegrity))
    | none => s
  | .chain d c => (s.stopOwner x.owner).modChain d c (fun y => { y with blocked := some Status.vaultIntegrity, due := [] })
  | .spdm => s

/-- The handle's other candidate page, read beside the object's own: its nodes are cached, or its failure is recorded. The object is in
hand, so that no message ends for it (R249, R250; DEDUCED, log 92). -/
def State.otherRead (s : State) (o : Obj) (x : VaultRead) : State :=
  let p := s.otherPage o
  if s.pageSound p x.other || s.pageSound p x.otherRetry then s.cacheNodes p
  else s.integrityFailure p o.handle (s.pagesLost p x.otherRetry)

/-- VAULT_READ_COMPLETE of an object that messages wait for: with a read or its retry that passes the checks of R244 its lines
are filled, otherwise those messages end (R250). -/
def State.vaultReadDone (s : State) (h : Nat) (x : VaultRead) : State :=
  let l := s.sch.msgs.filter (fun r => r.awaits h && !s.endIsHeld r)
  let ops := s.sch.internal.filter (fun y => y.awaits h)
  if (l.isEmpty && ops.isEmpty) || !s.mounted then s
  else
    let bad (t : State) (page : Nat) (lost : List Nat) : State := l.foldl (fun t r => match t.findMsg r.id with
      | some r => t.endOrHold r (.failed (Final.plain Status.vaultIntegrity))
      | none => t) (ops.foldl State.opUnread (t.integrityFailure page h lost))
    let goOn (s : State) : State := { s with sch := { s.sch with
      msgs := s.sch.msgs.map (fun r => r.keyRead h)
      internal := s.sch.internal.map (fun y => if y.awaits h then { y with reading := false } else y) } }
    match s.findObj h with
    | none => goOn s
    | some o =>
      if s.vlt.badHandles.contains h then bad s o.page []
      else
        let t := s.otherRead o x
        match s.readPage o x.first <|> s.readPage o x.retry with
        | some _ => goOn ((t.cacheNodes o.page).kcTouch o)
        | none => bad t o.page (s.pagesLost o.page x.retry)

/-! The random source (R217 to R223, R228, R229) -/

/-- Bytes served to a held or called request. -/
def State.gotRandom (s : State) (id : Nat) (b : Bytes) : State :=
  match s.findMsg id with
  | none => s
  | some r =>
    let r := { r with random := r.random ++ b, phase := .ready, want := 0 }
    let s := s.setMsg r
    if r.op == .randomGenerate && !s.holdsBack r then s.complete r (Final.good r.random) false else s

/-- GENERATE_CALL_COMPLETE of a request whose call is under way. -/
def State.callComplete (s : State) (id : Nat) : State :=
  match s.findMsg id with
  | some r =>
    if r.phase == .genCall then
      let w := s.genBytes r.gen r.want
      w.2.gotRandom id w.1
    else s
  | none => s

/-- A held request whose generator holds a seed is served (R223). -/
def State.serveHeld (s : State) (r : MsgRec) : State :=
  match s.request r.gen r.want with
  | .bytes b t => t.gotRandom r.id b
  | .call => s.modMsg r.id (fun x => { x with phase := .genCall })
  | .hold => s
  | .fault => s.randomFails r Status.rngFault

/-- RNG_WAIT_EXPIRY of a held request: its time passes. -/
def State.waitExpires (s : State) (id : Nat) : State :=
  match s.findMsg id with
  | some r => if s.heldRequest r && !s.endIsHeld r then (s.advance r.deadline).randomFails r (s.waitStatus r.gen) else s
  | none => s

/-- CONDITIONED_BLOCK: 1,024 raw bits of a source that is producing. Nothing is seeded while a response of class SHED or
higher holds. -/
def State.conditioned (s : State) (raw : Bytes) : State :=
  if !s.mayseed || s.rng.stopped || !(s.rng.phase == 2 || s.rng.phase == 3) then s
  else match s.takeBlock raw with
    | (t, .none) => t
    | (t, .reseeded id) => match t.findMsg id with
      | some r => t.complete r (Final.good []) false
      | none => t

/-! Tandems and component sessions (R296, R313) -/

/-- The tandems whose time has passed are discarded. -/
def State.dropExpired (s : State) : State := s.discardTandems (fun t => t.expires ≤ s.opTime)

/-- TANDEM_EXPIRY: the tandem's time passes. -/
def State.tandemExpires (s : State) (tid : Nat) : State :=
  match s.dom.tandems.find? (fun t => t.tid == tid) with
  | some t => (s.advance t.expires).dropExpired
  | none => s

/-- COMPONENT_SESSION_EXPIRY: the session's time passes. -/
def State.sessionExpires (s : State) (n : Nat) : State :=
  match (s.getInst n).compSession with
  | some c => (s.advance c.until_).endSession n
  | none => s

end Sys2Proof.Machine
end

