-- ==== Sys2Proof/Machine/Pump.lean ====
section
/-! DEFINITION. What follows a command of itself: every act of the module that waits for nothing more is carried out, one after
another, until none is left (log 32). -/

namespace Sys2Proof.Machine

/-- A message in a phase. -/
def State.msgIn (s : State) (p : MsgRec → Bool) : Option MsgRec := s.sch.msgs.find? p

/-! The random source (R223, R225, R226, R254, R255, R275) -/

/-- A held request that the failed source ends, and a held key generation that a health-test failure ends. -/
def State.endsHeld (s : State) (r : MsgRec) : Bool :=
  r.phase == .rngWait && !s.endIsHeld r && (s.rng.phase == 5 || (r.op == .keyGenerate && s.keyGenFault r.gen))

/-- A held request that its generator can serve. -/
def State.canServe (s : State) (r : MsgRec) : Bool :=
  r.phase == .rngWait && !s.endIsHeld r && !r.wantsBlock && s.rng.phase != 5 && s.genSeeded r.gen && !s.holdsBack r

/-- The memory key is drawn once generator 257 is seeded and the scrub is over. -/
def State.wantsMemKey (s : State) : Bool :=
  s.vlt.memKey.isNone && !s.vlt.scrubbing && s.genSeeded 257 && s.tmp.state != 2 && s.vlt.state != 4

def State.drawMemKey (s : State) : State :=
  let d := s.drawBytes 257 32
  { d.2 with vlt := { d.2.vlt with memKey := some d.1 } }

/-- The root generation that is due can be made or is given up. -/
def State.rootStepDue (s : State) : Bool :=
  s.lcs.rootGenDue && s.lc == 1 && (s.rng.phase ≥ 4 || (s.rng.phase == 3 && s.genSeeded 257 && (s.gate none).1.isNone))

def State.pumpRandom (s : State) : Option State :=
  match s.msgIn s.endsHeld with
  | some r => some (s.randomFails r Status.rngFault)
  | none =>
    if s.rootStepDue then some s.rootStep
    else if s.wantsMemKey then some s.drawMemKey
    else (s.msgIn s.canServe).map s.serveHeld

/-! The vault, tandems and recovery (R257, R313, R423, R427) -/

def State.mountReady (s : State) : Bool :=
  s.vlt.mountDue && s.vlt.memKey.isSome && !s.vlt.scrubbing && s.vlt.state != 4 && !s.kickstand && !s.lostUnit

/-- Recovery has a step to make. -/
def State.recoverDue (s : State) : Bool :=
  s.tmp.state == 3 && !s.vlt.scrubbing
    && ((s.rootValid && !s.ident.present) || (s.vlt.memKey.isSome && s.rng.gens.toList.all Gen.seeded))

def State.pumpVault (s : State) : Option State :=
  if s.dom.tandems.any (fun t => t.expires ≤ s.opTime) then some s.dropExpired
  else if s.mountReady then some s.startMount
  else if s.recoverDue then some s.recover
  else if s.recomReady then some s.recomFormat
  else if s.ckptDue then some s.checkpoint
  else if s.copiesHeld then some s.clearCopied
  else if s.tmp.recomState == 1 && s.bbramValid && s.vlt.state != 1 then some s.recomSettle
  else if (List.range 16).any (fun c => s.pwr.parking.getLsbD c && !s.cluBusy c) then some s.gateParked
  else none

/-! Messages -/

/-- A transition ends (R393, step 7). -/
def State.endMove (s : State) (a b : Nat) : State :=
  let s := s.lcEnd a b Status.ok
  match s.msgIn (fun r => r.phase == .custody) with
  | some r => s.complete { r with output := [] } (Final.good r.output) false
  | none => s

def State.pumpMessages (s : State) : Option State :=
  match s.lcs.moving, s.moveSettled with
  | some m, true => some (s.endMove m.1 m.2)
  | _, _ =>
   if s.moveLost then some (s.lcFail s.lc s.lcs.towards Status.aborted) else
    match s.msgIn (fun r => s.closeDone r || s.flashDone r) with
    | some r => some ((if r.flashing then s.flashed r else s).endClose r)
    | none => match s.msgIn s.installable with
      | some r => some (s.installFlow r)
      | none => match s.msgIn s.resumes with
        | some r => some (s.hardwareAct r)
        | none => match s.msgIn s.postingWaits with
         | some r => some (s.ledgerEnd r)
         | none => match s.msgIn s.pairWaits with
          | some r => some (s.pairMade r)
          | none => match s.msgIn s.runnable with
            | some r => some (s.runControl r)
            | none => s.sch.msgs.findSome? s.tryWait

/-! The pump -/

/-- One act of its own. -/
def State.pumpStep (s : State) : Option State :=
  s.spdmResume <|> s.pumpRandom <|> s.pumpVault <|> s.pumpMessages <|> s.dispatchOne

/-- Acts until none is left; fuel bounds them. -/
def State.pumpF : Nat → State → State
  | 0, s => s
  | f + 1, s => match s.pumpStep with
    | some t => t.pumpF f
    | none => s

/-- A chain has a checkpoint to make in the background (R347, R350). -/
def State.ledgerDue (s : State) : Bool := s.domainList.any (fun p => p.2.chains.any (fun c => !c.due.isEmpty || c.resumeDue))

def State.pump (s : State) : State :=
  if !s.pwr.booted then s
  else
    let s := s.voteFields
    let s := if s.ledgerDue then s.ledgerWork else s
    (s.pumpF (64 + 32 * s.sch.msgs.length)).stampReady

/-- SMB_ALERT# is driven when a word of code 0x01 or 0x08 changes while the rails are on (R479). -/
def State.alertFrom (s old : State) : State :=
  if old.pwr.rails != 0 && s.pwr.rails != 0 && (s.smbWord 1 != old.smbWord 1 || s.smbWord 8 != old.smbWord 8) then
    { s with pwr := { s.pwr with smbAlert := true } }
  else s

/-- Antifuse bits are programmed and never cleared (R388, R395): the rows hold what they held, and the bits programmed. -/
def Otp.over (new old : Otp) : Otp :=
  { lcRows := (List.range 20).map (fun i => old.row i ||| new.row i), root := old.root ||| new.root }

/-- The state after a command: its own effect, the requests that R11 kept, what follows of itself, the alert, and the queue as it
was. -/
def State.settle (old s : State) : State :=
  let t := (s.carryOut old).pump.alertFrom old
  { t with otp := t.otp.over old.otp, pending := old.pending }

end Sys2Proof.Machine
end

