-- ==== Sys2Proof/Machine/RunAdmin.lean ====
section
/-! DEFINITION. Administration messages (R119, R304, R305, R380 to R406, R451 to R460). -/

namespace Sys2Proof.Machine

/-- INSTANCE_BIND (R304). -/
def execInstanceBind (m : Msg) (s : State) : Host.Outcome State Fault Refusal := .next (s.settle (s.message .instanceBind m))

/-- INSTANCE_UNBIND (R305). -/
def execInstanceUnbind (m : Msg) (s : State) : Host.Outcome State Fault Refusal := .next (s.settle (s.message .instanceUnbind m))

/-- INSTANCE_QUOTA (R119). -/
def execInstanceQuota (m : Msg) (s : State) : Host.Outcome State Fault Refusal := .next (s.settle (s.message .instanceQuota m))

/-- IMAGE_WRITE (R380). -/
def execImageWrite (m : Msg) (s : State) : Host.Outcome State Fault Refusal := .next (s.settle (s.message .imageWrite m))

/-- IMAGE_ACCEPT (R382). -/
def execImageAccept (m : Msg) (s : State) : Host.Outcome State Fault Refusal := .next (s.settle (s.message .imageAccept m))

/-- RECORDER_READ (R455). -/
def execRecorderRead (m : Msg) (s : State) : Host.Outcome State Fault Refusal := .next (s.settle (s.message .recorderRead m))

/-- RECORDER_FREEZE (R451). -/
def execRecorderFreeze (m : Msg) (s : State) : Host.Outcome State Fault Refusal := .next (s.settle (s.message .recorderFreeze m))

/-- LC_TRANSITION (R393). -/
def execLcTransition (m : Msg) (s : State) : Host.Outcome State Fault Refusal := .next (s.settle (s.message .lcTransition m))

/-- DEBUG_AUTHORIZE (R405). -/
def execDebugAuthorize (m : Msg) (s : State) : Host.Outcome State Fault Refusal := .next (s.settle (s.message .debugAuthorize m))

/-- HEALTH_READ (R460). -/
def execHealthRead (m : Msg) (s : State) : Host.Outcome State Fault Refusal := .next (s.settle (s.message .healthRead m))

end Sys2Proof.Machine
end

