-- ==== Sys2Proof/Machine/RunCipher.lean ====
section
/-! DEFINITION. Messages of the cipher engines (chapter 5). -/

namespace Sys2Proof.Machine

/-- ECB_ENCRYPT (R138). -/
def execEcbEncrypt (m : Msg) (s : State) : Host.Outcome State Fault Refusal := .next (s.settle (s.message .ecbEncrypt m))

/-- ECB_DECRYPT (R136). -/
def execEcbDecrypt (m : Msg) (s : State) : Host.Outcome State Fault Refusal := .next (s.settle (s.message .ecbDecrypt m))

/-- CBC_ENCRYPT (R138). -/
def execCbcEncrypt (m : Msg) (s : State) : Host.Outcome State Fault Refusal := .next (s.settle (s.message .cbcEncrypt m))

/-- CBC_DECRYPT (R136). -/
def execCbcDecrypt (m : Msg) (s : State) : Host.Outcome State Fault Refusal := .next (s.settle (s.message .cbcDecrypt m))

/-- CFB_ENCRYPT (R138). -/
def execCfbEncrypt (m : Msg) (s : State) : Host.Outcome State Fault Refusal := .next (s.settle (s.message .cfbEncrypt m))

/-- CFB_DECRYPT (R138). -/
def execCfbDecrypt (m : Msg) (s : State) : Host.Outcome State Fault Refusal := .next (s.settle (s.message .cfbDecrypt m))

/-- OFB_CRYPT (R138). -/
def execOfbCrypt (m : Msg) (s : State) : Host.Outcome State Fault Refusal := .next (s.settle (s.message .ofbCrypt m))

/-- CTR_CRYPT (R143). -/
def execCtrCrypt (m : Msg) (s : State) : Host.Outcome State Fault Refusal := .next (s.settle (s.message .ctrCrypt m))

/-- XTS_ENCRYPT (R144). -/
def execXtsEncrypt (m : Msg) (s : State) : Host.Outcome State Fault Refusal := .next (s.settle (s.message .xtsEncrypt m))

/-- XTS_DECRYPT (R144). -/
def execXtsDecrypt (m : Msg) (s : State) : Host.Outcome State Fault Refusal := .next (s.settle (s.message .xtsDecrypt m))

/-- GCM_ENCRYPT (R145). -/
def execGcmEncrypt (m : Msg) (s : State) : Host.Outcome State Fault Refusal := .next (s.settle (s.message .gcmEncrypt m))

/-- GCM_DECRYPT (R149). -/
def execGcmDecrypt (m : Msg) (s : State) : Host.Outcome State Fault Refusal := .next (s.settle (s.message .gcmDecrypt m))

/-- CCM_ENCRYPT (R145). -/
def execCcmEncrypt (m : Msg) (s : State) : Host.Outcome State Fault Refusal := .next (s.settle (s.message .ccmEncrypt m))

/-- CCM_DECRYPT (R149). -/
def execCcmDecrypt (m : Msg) (s : State) : Host.Outcome State Fault Refusal := .next (s.settle (s.message .ccmDecrypt m))

/-- DATA_WRAP (R146). -/
def execDataWrap (m : Msg) (s : State) : Host.Outcome State Fault Refusal := .next (s.settle (s.message .dataWrap m))

/-- DATA_UNWRAP (R146). -/
def execDataUnwrap (m : Msg) (s : State) : Host.Outcome State Fault Refusal := .next (s.settle (s.message .dataUnwrap m))

/-- CMAC_GENERATE (R147). -/
def execCmacGenerate (m : Msg) (s : State) : Host.Outcome State Fault Refusal := .next (s.settle (s.message .cmacGenerate m))

/-- CMAC_VERIFY (R148). -/
def execCmacVerify (m : Msg) (s : State) : Host.Outcome State Fault Refusal := .next (s.settle (s.message .cmacVerify m))

/-- ISO9797_GENERATE (R147). -/
def execIso9797Generate (m : Msg) (s : State) : Host.Outcome State Fault Refusal := .next (s.settle (s.message .iso9797Generate m))

/-- ISO9797_VERIFY (R148). -/
def execIso9797Verify (m : Msg) (s : State) : Host.Outcome State Fault Refusal := .next (s.settle (s.message .iso9797Verify m))

end Sys2Proof.Machine
end

