-- ==== Sys2Proof/Machine/RunDigest.lean ====
section
/-! DEFINITION. Messages of the digest engines (chapter 7). -/

namespace Sys2Proof.Machine

/-- SHA224 (R176). -/
def execSha224 (m : Msg) (s : State) : Host.Outcome State Fault Refusal := .next (s.settle (s.message .sha224 m))

/-- SHA256 (R176). -/
def execSha256 (m : Msg) (s : State) : Host.Outcome State Fault Refusal := .next (s.settle (s.message .sha256 m))

/-- SHA384 (R176). -/
def execSha384 (m : Msg) (s : State) : Host.Outcome State Fault Refusal := .next (s.settle (s.message .sha384 m))

/-- SHA512 (R176). -/
def execSha512 (m : Msg) (s : State) : Host.Outcome State Fault Refusal := .next (s.settle (s.message .sha512 m))

/-- SHA3_224 (R176). -/
def execSha3_224 (m : Msg) (s : State) : Host.Outcome State Fault Refusal := .next (s.settle (s.message .sha3_224 m))

/-- SHA3_256 (R176). -/
def execSha3_256 (m : Msg) (s : State) : Host.Outcome State Fault Refusal := .next (s.settle (s.message .sha3_256 m))

/-- SHA3_384 (R176). -/
def execSha3_384 (m : Msg) (s : State) : Host.Outcome State Fault Refusal := .next (s.settle (s.message .sha3_384 m))

/-- SHA3_512 (R176). -/
def execSha3_512 (m : Msg) (s : State) : Host.Outcome State Fault Refusal := .next (s.settle (s.message .sha3_512 m))

/-- SHAKE128 (R176). -/
def execShake128 (m : Msg) (s : State) : Host.Outcome State Fault Refusal := .next (s.settle (s.message .shake128 m))

/-- SHAKE256 (R176). -/
def execShake256 (m : Msg) (s : State) : Host.Outcome State Fault Refusal := .next (s.settle (s.message .shake256 m))

/-- HMAC_GENERATE (R183). -/
def execHmacGenerate (m : Msg) (s : State) : Host.Outcome State Fault Refusal := .next (s.settle (s.message .hmacGenerate m))

/-- HMAC_VERIFY (R180). -/
def execHmacVerify (m : Msg) (s : State) : Host.Outcome State Fault Refusal := .next (s.settle (s.message .hmacVerify m))

/-- DIGEST_RESULT (R182). -/
def execDigestResult (m : Msg) (s : State) : Host.Outcome State Fault Refusal := .next (s.settle (s.message .digestResult m))

end Sys2Proof.Machine
end

