-- ==== Sys2Proof/Machine/RunDomain.lean ====
section
/-! DEFINITION. Domains, tandems and ledger chains (chapters 12 and 13). -/

namespace Sys2Proof.Machine

/-- TANDEM_BEGIN (R309). -/
def execTandemBegin (m : Msg) (s : State) : Host.Outcome State Fault Refusal := .next (s.settle (s.message .tandemBegin m))

/-- TANDEM_SIGN (R312). -/
def execTandemSign (m : Msg) (s : State) : Host.Outcome State Fault Refusal := .next (s.settle (s.message .tandemSign m))

/-- TANDEM_STATUS (R312). -/
def execTandemStatus (m : Msg) (s : State) : Host.Outcome State Fault Refusal := .next (s.settle (s.message .tandemStatus m))

/-- DOMAIN_INFO (R323). -/
def execDomainInfo (m : Msg) (s : State) : Host.Outcome State Fault Refusal := .next (s.settle (s.message .domainInfo m))

/-- POLICY_SET (R317). -/
def execPolicySet (m : Msg) (s : State) : Host.Outcome State Fault Refusal := .next (s.settle (s.message .policySet m))

/-- ROSTER_SET (R319). -/
def execRosterSet (m : Msg) (s : State) : Host.Outcome State Fault Refusal := .next (s.settle (s.message .rosterSet m))

/-- DOMAIN_PURGE (R320). -/
def execDomainPurge (m : Msg) (s : State) : Host.Outcome State Fault Refusal := .next (s.settle (s.message .domainPurge m))

/-- DOMAIN_CREATE (R321). -/
def execDomainCreate (m : Msg) (s : State) : Host.Outcome State Fault Refusal := .next (s.settle (s.message .domainCreate m))

/-- DOMAIN_DELETE (R321). -/
def execDomainDelete (m : Msg) (s : State) : Host.Outcome State Fault Refusal := .next (s.settle (s.message .domainDelete m))

/-- DOMAIN_QUOTA (R322). -/
def execDomainQuota (m : Msg) (s : State) : Host.Outcome State Fault Refusal := .next (s.settle (s.message .domainQuota m))

/-- LEDGER_CHAIN_OPEN (R345). -/
def execLedgerChainOpen (m : Msg) (s : State) : Host.Outcome State Fault Refusal := .next (s.settle (s.message .ledgerChainOpen m))

/-- LEDGER_POST (R346). -/
def execLedgerPost (m : Msg) (s : State) : Host.Outcome State Fault Refusal := .next (s.settle (s.message .ledgerPost m))

/-- LEDGER_CHECKPOINT (R347). -/
def execLedgerCheckpoint (m : Msg) (s : State) : Host.Outcome State Fault Refusal := .next (s.settle (s.message .ledgerCheckpoint m))

/-- LEDGER_STATUS (R351). -/
def execLedgerStatus (m : Msg) (s : State) : Host.Outcome State Fault Refusal := .next (s.settle (s.message .ledgerStatus m))

/-- LEDGER_CHECKPOINT_GET (R347). -/
def execLedgerCheckpointGet (m : Msg) (s : State) : Host.Outcome State Fault Refusal := .next (s.settle (s.message .ledgerCheckpointGet m))

/-- LEDGER_CHAIN_CLOSE (R348). -/
def execLedgerChainClose (m : Msg) (s : State) : Host.Outcome State Fault Refusal := .next (s.settle (s.message .ledgerChainClose m))

/-- TANDEM_EXPIRY (R313): the time of a tandem has passed. -/
def execTandemExpiry (tid : BitVec 32) (s : State) : Host.Outcome State Fault Refusal :=
  .next (s.settle (s.tandemExpires tid.toNat))

end Sys2Proof.Machine
end

