-- ==== Sys2Proof/Machine/RunFabric.lean ====
section
/-! DEFINITION. Templates, laps, clusters, hubs and throttling (chapters 1 and 4, R466 to R468). -/

namespace Sys2Proof.Machine

/-- TEMPLATE_BUILD_COMPLETE (R104): the control pair has built a template. -/
def execTemplateBuildComplete (inst : Fin 256) (op : Op) (keyA keyB : BitVec 40) (s : State) : Host.Outcome State Fault Refusal :=
  .next (s.settle (s.buildTemplate inst.val op keyA.toNat keyB.toNat))

/-- NEGATIVE_TEMPLATE_EXPIRY (R105): the second of a negative template has passed. -/
def execNegativeTemplateExpiry (inst : Fin 256) (op : Op) (keyA keyB : BitVec 40) (s : State) : Host.Outcome State Fault Refusal :=
  .next (s.settle (s.expireTemplate inst.val op keyA.toNat keyB.toNat))

/-- LAP_COMPLETE (R25): a lap has run. -/
def execLapComplete (engine : Fin 192) (s : State) : Host.Outcome State Fault Refusal :=
  .next (s.settle (s.lapComplete engine.val))

/-- PK_OPERATION_COMPLETE (R192): a public-key operation has run. -/
def execPkOperationComplete (engine : Fin 192) (s : State) : Host.Outcome State Fault Refusal :=
  .next (s.settle (s.pkComplete engine.val))

/-- FREEWHEEL_ENTRY (R124): a cluster has had no work for FW_IDLE µs. -/
def execFreewheelEntry (cluster : Fin 16) (s : State) : Host.Outcome State Fault Refusal :=
  .next (s.settle (s.freewheel cluster.val))

/-- CLUSTER_FAULT (R28): a fault of a cluster is detected. -/
def execClusterFault (cluster : Fin 16) (cause : FaultCause) (engine : Option (Fin 192)) (s : State) : Host.Outcome State Fault Refusal :=
  .next (s.settle (s.clusterFault cluster.val (faultCode cause) (engine.map (·.val))))

/-- HUB_FAULT (R27): a fault of a hub is detected. -/
def execHubFault (hub : Fin 4) (s : State) : Host.Outcome State Fault Refusal :=
  .next (s.settle (s.hubFault hub.val))

/-- HUB_RESET_COMPLETE (R22): a hub has been reset. -/
def execHubResetComplete (hub : Fin 4) (s : State) : Host.Outcome State Fault Refusal :=
  .next (s.settle (s.hubResetComplete hub.val))

/-- SPOKE_FAULT (R27): a spoke between hubs fails. -/
def execSpokeFault (hubA hubB : Fin 4) (s : State) : Host.Outcome State Fault Refusal :=
  .next (s.settle (s.spokeFault hubA.val hubB.val))

/-- CONTROL_PAIR_RESTART (R23): the control pair restarts. -/
def execControlPairRestart (s : State) : Host.Outcome State Fault Refusal :=
  .next (s.settle s.controlRestart)

/-- CONTROL_RESTART_COMPLETE (R23): the restart of the control pair completes. -/
def execControlRestartComplete (s : State) : Host.Outcome State Fault Refusal :=
  .next (s.settle s.controlRestartDone.heldRecompute)

/-- PROGRAM_STORE_SCRUB (R161): a scrub pass of a program store. -/
def execProgramStoreScrub (cluster : Fin 16) (corrected : Nat) (uncorrectable : Bool) (s : State) : Host.Outcome State Fault Refusal :=
  .next (s.settle (s.storeScrub cluster.val corrected uncorrectable))

/-- THROTTLE_EVALUATION (R468): the evaluation every 10 ms. -/
def execThrottleEvaluation (fabric control : Int) (power : InputSample) (s : State) : Host.Outcome State Fault Refusal :=
  .next (s.settle (s.throttle fabric control power))

/-- UNPARK_COMPLETE (R466): an unparked cluster has been rewritten and checked. -/
def execUnparkComplete (cluster : Fin 16) (pass : Bool) (s : State) : Host.Outcome State Fault Refusal :=
  .next (s.settle (s.unparkComplete cluster.val pass))

end Sys2Proof.Machine
end

