-- ==== Sys2Proof/Machine/RunFlow.lean ====
section
/-! DEFINITION. Flow and basic messages (R87 to R106). -/

namespace Sys2Proof.Machine

/-- NOP (R90). -/
def execNop (m : Msg) (s : State) : Host.Outcome State Fault Refusal := .next (s.settle (s.message .nop m))

/-- FLOW_OPEN (R98). -/
def execFlowOpen (m : Msg) (s : State) : Host.Outcome State Fault Refusal := .next (s.settle (s.message .flowOpen m))

/-- FLOW_CLOSE (R102). -/
def execFlowClose (m : Msg) (s : State) : Host.Outcome State Fault Refusal := .next (s.settle (s.message .flowClose m))

/-- CANCEL (R88). -/
def execCancel (m : Msg) (s : State) : Host.Outcome State Fault Refusal := .next (s.settle (s.message .cancel m))

end Sys2Proof.Machine
end

