-- ==== Sys2Proof/Machine/RunLink.lean ====
section
/-! DEFINITION. The host link, functions and rings (R33 to R59). -/

namespace Sys2Proof.Machine

/-- INS_DIRTY_CTL of instance n in the manager window. -/
def dirtyCtlOffset (n : Nat) : Nat := 0xB0010 + n * 64

/-- SURPRISE_LINK_LOSS (R54): the link is lost without warning. -/
def execSurpriseLinkLoss (s : State) : Host.Outcome State Fault Refusal :=
  .next (s.settle s.surpriseLoss)

/-- HOT_RESET (R54): a hot reset. -/
def execHotReset (s : State) : Host.Outcome State Fault Refusal :=
  .next (s.settle s.hotReset)

/-- IDE_CHECK_FAILURE (R38): an IDE integrity check fails. -/
def execIdeCheckFailure (cache : Bool) (s : State) : Host.Outcome State Fault Refusal :=
  .next (s.settle (s.ideFailure cache))

/-- SPDM_REQUEST (R37): a request on the DOE mailbox. -/
def execSpdmRequest (req : SpdmReq) (s : State) : Host.Outcome State Fault Refusal :=
  .next (s.settle (s.spdmRequest req.secured req.message))

/-- IDE_KM (R38): a key of an IDE stream is programmed. -/
def execIdeKm (cache : Bool) (key : Bytes) (s : State) : Host.Outcome State Fault Refusal :=
  .next (s.settle (s.ideKm cache key))

/-- CACHE_ENABLE (R33): the host writes Cache_Enable. -/
def execCacheEnable (on : Bool) (s : State) : Host.Outcome State Fault Refusal :=
  .next (s.settle (s.cacheEnable on))

/-- NUMVFS_WRITE (R36): a write of NumVFs. -/
def execNumvfsWrite (n : Nat) (s : State) : Host.Outcome State Fault Refusal :=
  .next (s.settle (s.numvfsWrite n))

/-- VF_ENABLE (R36): VF Enable is set. -/
def execVfEnable (ari : Bool) (s : State) : Host.Outcome State Fault Refusal :=
  .next (s.settle (s.enableVfs ari))

/-- VF_DISABLE (R36): VF Enable is cleared. -/
def execVfDisable (s : State) : Host.Outcome State Fault Refusal :=
  .next (s.settle s.disableVfs)

/-- POWER_STATE_CHANGE (R35): a function changes between D0 and D3hot. -/
def execPowerStateChange (inst : Fin 256) (d3hot : Bool) (s : State) : Host.Outcome State Fault Refusal :=
  .next (s.settle (s.powerState inst.val d3hot))

/-- INITIATE_FLR (R49): a function-level reset of a virtual function. -/
def execInitiateFlr (inst : Fin 256) (s : State) : Host.Outcome State Fault Refusal :=
  .next (s.settle (if s.hostUp then s.initiateFlr inst.val else s))

/-- FLR_DRAIN_COMPLETE (R49): the reads of a function under reset have drained. -/
def execFlrDrainComplete (inst : Fin 256) (s : State) : Host.Outcome State Fault Refusal :=
  .next (s.settle (s.flrDrainComplete inst.val))

/-- PF_FLR (R51): a function-level reset of the physical function. -/
def execPfFlr (s : State) : Host.Outcome State Fault Refusal :=
  .next (s.settle (if s.hostUp then s.pfFlr else s))

/-- PROTOCOL_VIOLATION (R46): a partner violates the protocol of Table 2.10. -/
def execProtocolViolation (inst : Fin 256) (kind : ViolKind) (addr : BitVec 64) (s : State) : Host.Outcome State Fault Refusal :=
  .next (s.settle (s.protocolViolation inst.val kind addr.toNat))

/-- DMA_ERROR (R47): a DMA read fails. -/
def execDmaError (target : DmaTarget) (s : State) : Host.Outcome State Fault Refusal :=
  .next (s.settle (s.dmaError target))

/-- SNOOP (R43): a snoop of the watched tail line. -/
def execSnoop (inst : Fin 256) (invalidates : Bool) (s : State) : Host.Outcome State Fault Refusal :=
  .next (s.settle (s.snoop inst.val invalidates))

/-- TAIL_LINE_READ (R59): the data of a tail line return. -/
def execTailLineRead (inst : Fin 256) (sqTail cqHead : BitVec 16) (s : State) : Host.Outcome State Fault Refusal :=
  .next (s.settle (s.tailLineRead inst.val sqTail.toNat cqHead.toNat))

/-- TAIL_LINE_POLL (R43): the re-read each millisecond falls due. -/
def execTailLinePoll (s : State) : Host.Outcome State Fault Refusal :=
  .next (s.settle s.tailLinePoll)

/-- GO_ERR (R44): GO-Err answers a read of a tail line. -/
def execGoErr (inst : Fin 256) (s : State) : Host.Outcome State Fault Refusal :=
  .next (s.settle (s.goErr inst.val))

/-- VF_SQ_DB (R44): a write of VF_SQ_DB. -/
def execVfSqDb (inst : Fin 256) (value : BitVec 32) (s : State) : Host.Outcome State Fault Refusal :=
  .next (s.settle (s.atRing inst.val 0x1000 (·.doorbell inst.val true (value.toNat % 65536))))

/-- VF_CQ_DB (R59): a write of VF_CQ_DB. -/
def execVfCqDb (inst : Fin 256) (value : BitVec 32) (s : State) : Host.Outcome State Fault Refusal :=
  .next (s.settle (s.atRing inst.val 0x1004 (·.doorbell inst.val false (value.toNat % 65536))))

/-- RING_ENABLE (R41): a write of EN = 1. -/
def execRingEnable (inst : Fin 256) (s : State) : Host.Outcome State Fault Refusal :=
  .next (s.settle (s.atRing inst.val 0x18 (·.ringEnable inst.val)))

/-- RING_DISABLE (R41): a write of EN = 0. -/
def execRingDisable (inst : Fin 256) (s : State) : Host.Outcome State Fault Refusal :=
  .next (s.settle (s.atRing inst.val 0x18 (·.ringDisable inst.val)))

/-- RING_DRAINED (R41): the last message of a disabled ring has completed. -/
def execRingDrained (inst : Fin 256) (s : State) : Host.Outcome State Fault Refusal :=
  .next (s.settle (s.ringDrained inst.val))

/-- DIRTY_LOG_ENABLE (R52): dirty-page logging is switched. -/
def execDirtyLogEnable (inst : Fin 256) (on : Bool) (s : State) : Host.Outcome State Fault Refusal :=
  .next (s.settle (s.atManager (dirtyCtlOffset inst.val) (·.dirtyEnable inst.val on)))

/-- SWAP (R53): the dirty bitmaps are swapped. -/
def execSwap (inst : Fin 256) (s : State) : Host.Outcome State Fault Refusal :=
  .next (s.settle (s.atManager (dirtyCtlOffset inst.val) (·.dirtySwap inst.val)))

end Sys2Proof.Machine
end

