-- ==== Sys2Proof/Machine/RunPower.lean ====
section
/-! DEFINITION. The power commands: starts, resets and what ends them (R368 to R370, R465 to R477). -/

namespace Sys2Proof.Machine

/-- POWER_UP (R368): the input rises and the module starts (Table 15.1). -/
def execPowerUp (env : BootEnv) (s : State) : Host.Outcome State Fault Refusal :=
  .next (s.settle (s.powerUp env))

/-- UNDERVOLTAGE_LOCKOUT (R370): the input falls below 33 V; before the input-loss sequence is armed the rails go off.
-/
def execUndervoltageLockout (s : State) : Host.Outcome State Fault Refusal :=
  .next (s.settle s.lockout)

/-- LINK_READY (R368): link training completes. -/
def execLinkReady (link : LinkParams) (s : State) : Host.Outcome State Fault Refusal :=
  .next (s.settle ((s.linkReady link).firstRecompute s.glb.phase))

/-- SERVICE_READY (R368): what service ready waits for has come about. -/
def execServiceReady (s : State) : Host.Outcome State Fault Refusal :=
  .next (s.settle (s.serviceReady.firstRecompute s.glb.phase))

/-- BANK_CHARGED (R465): the hold-up bank reaches 70 V. -/
def execBankCharged (s : State) : Host.Outcome State Fault Refusal :=
  .next (s.settle s.bankCharged)

/-- INPUT_LOSS (R472): the input fails; the hold-up sequence runs, whole or cut short. -/
def execInputLoss (completes : HoldUp) (time : BitVec 16) (s : State) : Host.Outcome State Fault Refusal :=
  .next (s.settle (s.inputLoss completes time.toNat))

/-- CFG_CTL_COLD (R385): a write of CFG_CTL; COLD with its KEY resets the module. -/
def execCfgCtlCold (value : BitVec 32) (env : BootEnv) (s : State) : Host.Outcome State Fault Refusal :=
  .next (s.settle (s.atManager 0x1001C (·.cfgCtl value env)))

/-- COLD_RST_PIN (R477): COLD_RST# is driven low. -/
def execColdRstPin (ms : Nat) (s : State) : Host.Outcome State Fault Refusal :=
  .next (s.settle (s.coldPin ms))

/-- PERST (R476): PERST# is driven low. -/
def execPerst (us : Nat) (s : State) : Host.Outcome State Fault Refusal :=
  .next (s.settle (s.perst us))

/-- PERST_DEASSERTION (R476): PERST# is released. -/
def execPerstDeassertion (s : State) : Host.Outcome State Fault Refusal :=
  .next (s.settle s.perstEnd)

/-- COLD_RST_RELEASE (R477): COLD_RST# is released. -/
def execColdRstRelease (env : BootEnv) (s : State) : Host.Outcome State Fault Refusal :=
  .next (s.settle (s.coldStart env))

/-- UNDERVOLTAGE_EVENT (R469): the input leaves 36 to 75 V. -/
def execUndervoltageEvent (s : State) : Host.Outcome State Fault Refusal :=
  .next (s.settle s.undervoltage)

/-- CELL_FITTED (R480): a backup cell is fitted. -/
def execCellFitted (s : State) : Host.Outcome State Fault Refusal :=
  .next (s.settle s.cellFitted)

end Sys2Proof.Machine
end

