-- ==== Sys2Proof/Machine/RunPublicKey.lean ====
section
/-! DEFINITION. Messages of the public-key engines (chapter 8). -/

namespace Sys2Proof.Machine

/-- RSA_SIGN (R202). -/
def execRsaSign (m : Msg) (s : State) : Host.Outcome State Fault Refusal := .next (s.settle (s.message .rsaSign m))

/-- RSA_VERIFY (R202). -/
def execRsaVerify (m : Msg) (s : State) : Host.Outcome State Fault Refusal := .next (s.settle (s.message .rsaVerify m))

/-- RSA_ENCRYPT (R202). -/
def execRsaEncrypt (m : Msg) (s : State) : Host.Outcome State Fault Refusal := .next (s.settle (s.message .rsaEncrypt m))

/-- RSA_DECRYPT (R201). -/
def execRsaDecrypt (m : Msg) (s : State) : Host.Outcome State Fault Refusal := .next (s.settle (s.message .rsaDecrypt m))

/-- ECDSA_SIGN (R202). -/
def execEcdsaSign (m : Msg) (s : State) : Host.Outcome State Fault Refusal := .next (s.settle (s.message .ecdsaSign m))

/-- ECDSA_VERIFY (R202). -/
def execEcdsaVerify (m : Msg) (s : State) : Host.Outcome State Fault Refusal := .next (s.settle (s.message .ecdsaVerify m))

/-- ECDH (R203). -/
def execEcdh (m : Msg) (s : State) : Host.Outcome State Fault Refusal := .next (s.settle (s.message .ecdh m))

/-- X25519 (R203). -/
def execX25519 (m : Msg) (s : State) : Host.Outcome State Fault Refusal := .next (s.settle (s.message .x25519 m))

/-- ED25519_SIGN (R202). -/
def execEd25519Sign (m : Msg) (s : State) : Host.Outcome State Fault Refusal := .next (s.settle (s.message .ed25519Sign m))

/-- ED25519_VERIFY (R202). -/
def execEd25519Verify (m : Msg) (s : State) : Host.Outcome State Fault Refusal := .next (s.settle (s.message .ed25519Verify m))

/-- MLKEM_ENCAPS (R203). -/
def execMlkemEncaps (m : Msg) (s : State) : Host.Outcome State Fault Refusal := .next (s.settle (s.message .mlkemEncaps m))

/-- MLKEM_DECAPS (R203). -/
def execMlkemDecaps (m : Msg) (s : State) : Host.Outcome State Fault Refusal := .next (s.settle (s.message .mlkemDecaps m))

/-- MLDSA_SIGN (R206). -/
def execMldsaSign (m : Msg) (s : State) : Host.Outcome State Fault Refusal := .next (s.settle (s.message .mldsaSign m))

/-- MLDSA_VERIFY (R202). -/
def execMldsaVerify (m : Msg) (s : State) : Host.Outcome State Fault Refusal := .next (s.settle (s.message .mldsaVerify m))

end Sys2Proof.Machine
end

