-- ==== Sys2Proof/Machine/RunRandom.lean ====
section
/-! DEFINITION. Random messages (R228, R229) and the events of the random source (chapter 9). -/

namespace Sys2Proof.Machine

/-- RANDOM_GENERATE (R228). -/
def execRandomGenerate (m : Msg) (s : State) : Host.Outcome State Fault Refusal := .next (s.settle (s.message .randomGenerate m))

/-- RANDOM_RESEED (R229). -/
def execRandomReseed (m : Msg) (s : State) : Host.Outcome State Fault Refusal := .next (s.settle (s.message .randomReseed m))

/-- NOISE_WINDOW (R216): a window of 1,024 samples of each cell. -/
def execNoiseWindow (cells : List (Nat × Nat)) (katPass : Bool) (s : State) : Host.Outcome State Fault Refusal :=
  .next (s.settle (s.noiseWindow cells katPass))

/-- OSCILLATOR_RESTART (R224): the oscillators have restarted. -/
def execOscillatorRestart (s : State) : Host.Outcome State Fault Refusal :=
  .next (s.settle s.oscillatorRestart)

/-- CONDITIONED_BLOCK (R217): 1,024 raw bits have been conditioned. -/
def execConditionedBlock (raw : Bytes) (s : State) : Host.Outcome State Fault Refusal :=
  .next (s.settle (s.conditioned raw))

/-- DRBG_RESEED_DUE (R219): a background reseed falls due. -/
def execDrbgReseedDue (gen : Fin 260) (s : State) : Host.Outcome State Fault Refusal :=
  .next (s.settle (s.reseedDue gen.val))

/-- QUEUE_REFILL (R221): a queue takes 1 KiB. -/
def execQueueRefill (gen : Fin 260) (s : State) : Host.Outcome State Fault Refusal :=
  .next (s.settle (s.queueRefill gen.val))

/-- RNG_WAIT_EXPIRY (R223): a held request reaches its wait limit. -/
def execRngWaitExpiry (msg : Nat) (s : State) : Host.Outcome State Fault Refusal :=
  .next (s.settle (s.waitExpires msg))

/-- GENERATE_CALL_COMPLETE (R221): a generate call made for one request has run. -/
def execGenerateCallComplete (msg : Nat) (s : State) : Host.Outcome State Fault Refusal :=
  .next (s.settle (s.callComplete msg))

end Sys2Proof.Machine
end

