-- ==== Sys2Proof/Machine/RunRegister.lean ====
section
/-! DEFINITION. Registers with a row of their own, register writes and reads, access control and SMBus (R6 to R16,
R56, R404, R429 to R442, R479). -/

namespace Sys2Proof.Machine

/-- ACU_CAP_INFO of unit u in the manager window. -/
def capInfoOffset (u : Nat) : Nat := 0xC0810 + u * 0xC00

/-- LNK_VIOL_CLR_ALL (R56): the violation counters of every instance are cleared. -/
def execLnkViolClrAll (s : State) : Host.Outcome State Fault Refusal :=
  .next (s.settle (s.atManager 0xD0010 (·.violClear 0x100)))

/-- LNK_VIOL_CLR_INSTANCE (R56): the violation counters of one instance are cleared. -/
def execLnkViolClrInstance (inst : Fin 256) (s : State) : Host.Outcome State Fault Refusal :=
  .next (s.settle (s.atManager 0xD0010 (·.violClear (BitVec.ofNat 32 inst.val))))

/-- COUNTER_PAIR_READ (R6, R15): a read of a register, with the latch of a counter pair. -/
def execCounterPairRead (inst : Fin 256) (r : RegRead) (s : State) : Host.Outcome State Fault Refusal :=
  .next (s.settle (s.regRead inst r))

/-- REGISTER_WRITE (R16): a write of a register. -/
def execRegisterWrite (w : RegWrite) (s : State) : Host.Outcome State Fault Refusal :=
  .next (s.settle (s.regWrite w))

/-- PRS_USER_WRITE (R384): a write of PRS_USER. -/
def execPrsUserWrite (i : Fin 8) (value : BitVec 32) (s : State) : Host.Outcome State Fault Refusal :=
  .next (s.settle (s.atManager (0x20020 + 4 * i.val) (·.prsUser i.val value)))

/-- RETEST (R225): a write of RNG_CTL.RETEST. -/
def execRetest (s : State) : Host.Outcome State Fault Refusal :=
  .next (s.settle (s.atManager 0x80004 State.retest))

/-- CHECKPOINT (R270): a write of VLT_CTL.CHECKPOINT. -/
def execCheckpoint (s : State) : Host.Outcome State Fault Refusal :=
  .next (s.settle (s.atManager 0x9006C State.ckptRequest))

/-- DBG_CLOSE (R406): a write of LCS_CTL.DBG_CLOSE. -/
def execDbgClose (s : State) : Host.Outcome State Fault Refusal :=
  .next (s.settle (s.atManager 0x30020 State.dbgClose))

/-- RECOMMISSION (R427): a write of TMP_CTL. -/
def execRecommission (value : BitVec 32) (s : State) : Host.Outcome State Fault Refusal :=
  .next (s.settle (s.atManager 0x40014 (·.recommission value)))

/-- ACTIVATE (R435): a write of ACTIVATE of a unit. -/
def execActivate (unit : Fin 21) (master : Master) (s : State) : Host.Outcome State Fault Refusal :=
  .next (s.settle (if s.pwr.booted then s.activateBy unit.val master else s))

/-- CLOSE (R436): a write of CLOSE of a unit. -/
def execClose (unit : Fin 21) (master : Master) (s : State) : Host.Outcome State Fault Refusal :=
  .next (s.settle (if s.pwr.booted then s.closeBy unit.val master else s))

/-- ACU_CAPTURE_CLEAR (R439): a write of 1 to ACU_CAP_INFO.VALID. -/
def execAcuCaptureClear (unit : Fin 21) (captureNow : Option Access) (s : State) : Host.Outcome State Fault Refusal :=
  .next (s.settle (s.atManager (capInfoOffset unit.val) (·.captureClear unit.val captureNow)))

/-- RECOMPUTE (R457): a write of HLT_CTL.RECOMPUTE. -/
def execRecompute (report : HourReport) (s : State) : Host.Outcome State Fault Refusal :=
  .next (s.settle (s.atManager 0x60010 (·.recompute report)))

/-- CELL_NEW (R459): a write of HLT_CTL.CELL_NEW. -/
def execCellNew (s : State) : Host.Outcome State Fault Refusal :=
  .next (s.settle (s.atManager 0x60010 State.cellNew))

/-- MEASURE (R470): a write of PWR_CTL.MEASURE. -/
def execMeasure (dropMv : Nat) (volt : BitVec 16) (s : State) : Host.Outcome State Fault Refusal :=
  .next (s.settle (s.atManager 0x70034 (·.measure dropMv volt)))

/-- ACCESS_VIOLATION (R433): an access by an internal master, refused or not. -/
def execAccessViolation (a : Access) (s : State) : Host.Outcome State Fault Refusal :=
  .next (s.settle (if s.pwr.booted then s.internalAccess a else s))

/-- DEBUG_ACCESS (R404): an access by the debug master. -/
def execDebugAccess (kind : AccKind) (start : BitVec 48) (len : Nat) (s : State) : Host.Outcome State Fault Refusal :=
  .next (s.settle (s.debugRead kind start.toNat len))

/-- SMB_STATUS (R479): a Read Word of code 0x01. -/
def execSmbStatus (s : State) : Host.Outcome State Fault Refusal :=
  .next (s.settle (s.smbRead 1))

/-- SMB_INPUT_VOLTAGE (R479): a Read Word of code 0x02. -/
def execSmbInputVoltage (s : State) : Host.Outcome State Fault Refusal :=
  .next (s.settle (s.smbRead 2))

/-- SMB_INPUT_POWER (R479): a Read Word of code 0x03. -/
def execSmbInputPower (s : State) : Host.Outcome State Fault Refusal :=
  .next (s.settle (s.smbRead 3))

/-- SMB_FABRIC_TEMPERATURE (R479): a Read Word of code 0x04. -/
def execSmbFabricTemperature (s : State) : Host.Outcome State Fault Refusal :=
  .next (s.settle (s.smbRead 4))

/-- SMB_CONTROL_TEMPERATURE (R479): a Read Word of code 0x05. -/
def execSmbControlTemperature (s : State) : Host.Outcome State Fault Refusal :=
  .next (s.settle (s.smbRead 5))

/-- SMB_BANK_ENERGY (R479): a Read Word of code 0x06. -/
def execSmbBankEnergy (s : State) : Host.Outcome State Fault Refusal :=
  .next (s.settle (s.smbRead 6))

/-- SMB_EOL (R479): a Read Word of code 0x07. -/
def execSmbEol (s : State) : Host.Outcome State Fault Refusal :=
  .next (s.settle (s.smbRead 7))

/-- SMB_INCIDENT (R479): a Read Word of code 0x08, which releases SMB_ALERT#. -/
def execSmbIncident (s : State) : Host.Outcome State Fault Refusal :=
  .next (s.settle s.smbIncident)

end Sys2Proof.Machine
end

