-- ==== Sys2Proof/Machine/RunTamper.lean ====
section
/-! DEFINITION. Tamper events, the recorder and the hours (chapters 17 and 19). -/

namespace Sys2Proof.Machine

/-- TAMPER_ALARM (R417): a monitor alarms. -/
def execTamperAlarm (alarm : Alarm) (s : State) : Host.Outcome State Fault Refusal :=
  .next (s.settle (s.tamperAlarm alarm))

/-- MONITOR_DISAGREEMENT (R412): the two detectors of a monitor disagree. -/
def execMonitorDisagreement (monitor : Fin 128) (atlasAlarmed : Bool) (s : State) : Host.Outcome State Fault Refusal :=
  .next (s.settle (s.monitorDisagreement monitor.val atlasAlarmed))

/-- INCIDENT_END (R422): every alarmed monitor has read normal for the clear time. -/
def execIncidentEnd (s : State) : Host.Outcome State Fault Refusal :=
  .next (s.settle s.incidentEnd)

/-- RECORDER_BATCH_CLOSE (R448): 1 s has passed since the first record of the open batch. -/
def execRecorderBatchClose (s : State) : Host.Outcome State Fault Refusal :=
  .next (s.settle s.batchTimeout)

/-- FREEZE_EXPIRY (R451): 10 s of a freeze have passed. -/
def execFreezeExpiry (s : State) : Host.Outcome State Fault Refusal :=
  .next (s.settle s.freezeExpiry)

/-- OPERATING_HOUR (R444): a whole hour of operation. -/
def execOperatingHour (report : HourReport) (s : State) : Host.Outcome State Fault Refusal :=
  .next (s.settle (s.operatingHour report))

/-- PRF_COUNT_SAVE (R384): the PRF counts are saved, every 24 h. -/
def execPrfCountSave (s : State) : Host.Outcome State Fault Refusal :=
  .next (s.settle s.countSave)

end Sys2Proof.Machine
end

