-- ==== Sys2Proof/Machine/RunTransact.lean ====
section
/-! DEFINITION. Transaction functions and record mode (chapters 13 and 14). -/

namespace Sys2Proof.Machine

/-- PIN_TRANSLATE (R330). -/
def execPinTranslate (m : Msg) (s : State) : Host.Outcome State Fault Refusal := .next (s.settle (s.message .pinTranslate m))

/-- PIN_VERIFY (R332). -/
def execPinVerify (m : Msg) (s : State) : Host.Outcome State Fault Refusal := .next (s.settle (s.message .pinVerify m))

/-- PIN_REFERENCE (R332). -/
def execPinReference (m : Msg) (s : State) : Host.Outcome State Fault Refusal := .next (s.settle (s.message .pinReference m))

/-- DUKPT_INITIAL_KEY (R338). -/
def execDukptInitialKey (m : Msg) (s : State) : Host.Outcome State Fault Refusal := .next (s.settle (s.message .dukptInitialKey m))

/-- DUKPT_MAC (R337). -/
def execDukptMac (m : Msg) (s : State) : Host.Outcome State Fault Refusal := .next (s.settle (s.message .dukptMac m))

/-- DUKPT_CRYPT (R337). -/
def execDukptCrypt (m : Msg) (s : State) : Host.Outcome State Fault Refusal := .next (s.settle (s.message .dukptCrypt m))

/-- KEY_BLOCK_WRAP (R340). -/
def execKeyBlockWrap (m : Msg) (s : State) : Host.Outcome State Fault Refusal := .next (s.settle (s.message .keyBlockWrap m))

/-- KEY_BLOCK_CHECK (R342). -/
def execKeyBlockCheck (m : Msg) (s : State) : Host.Outcome State Fault Refusal := .next (s.settle (s.message .keyBlockCheck m))

/-- KEY_BLOCK_TRANSLATE (R342). -/
def execKeyBlockTranslate (m : Msg) (s : State) : Host.Outcome State Fault Refusal := .next (s.settle (s.message .keyBlockTranslate m))

/-- ZRM_RECORD (R361). -/
def execZrmRecord (m : Msg) (s : State) : Host.Outcome State Fault Refusal := .next (s.settle (s.message .zrmRecord m))

/-- LABEL_SET (R365). -/
def execLabelSet (m : Msg) (s : State) : Host.Outcome State Fault Refusal := .next (s.settle (s.message .labelSet m))

/-- LABEL_DELETE (R365). -/
def execLabelDelete (m : Msg) (s : State) : Host.Outcome State Fault Refusal := .next (s.settle (s.message .labelDelete m))

/-- LABEL_LOOKUP (R365). -/
def execLabelLookup (m : Msg) (s : State) : Host.Outcome State Fault Refusal := .next (s.settle (s.message .labelLookup m))

end Sys2Proof.Machine
end

