-- ==== Sys2Proof/Machine/RunVault.lean ====
section
/-! DEFINITION. Messages on key objects (chapters 10 and 11) and the events of the vault controller. -/

namespace Sys2Proof.Machine

/-- OBJECT_INFO (R265). -/
def execObjectInfo (m : Msg) (s : State) : Host.Outcome State Fault Refusal := .next (s.settle (s.message .objectInfo m))

/-- OBJECT_DELETE (R266). -/
def execObjectDelete (m : Msg) (s : State) : Host.Outcome State Fault Refusal := .next (s.settle (s.message .objectDelete m))

/-- OBJECT_RESTRICT (R267). -/
def execObjectRestrict (m : Msg) (s : State) : Host.Outcome State Fault Refusal := .next (s.settle (s.message .objectRestrict m))

/-- VAULT_USAGE (R268). -/
def execVaultUsage (m : Msg) (s : State) : Host.Outcome State Fault Refusal := .next (s.settle (s.message .vaultUsage m))

/-- KEY_GENERATE (R286). -/
def execKeyGenerate (m : Msg) (s : State) : Host.Outcome State Fault Refusal := .next (s.settle (s.message .keyGenerate m))

/-- KEY_UPDATE (R291). -/
def execKeyUpdate (m : Msg) (s : State) : Host.Outcome State Fault Refusal := .next (s.settle (s.message .keyUpdate m))

/-- RECEIVE_KEY_GET (R288). -/
def execReceiveKeyGet (m : Msg) (s : State) : Host.Outcome State Fault Refusal := .next (s.settle (s.message .receiveKeyGet m))

/-- KEY_COMPONENT (R295). -/
def execKeyComponent (m : Msg) (s : State) : Host.Outcome State Fault Refusal := .next (s.settle (s.message .keyComponent m))

/-- KEY_EXPORT (R297). -/
def execKeyExport (m : Msg) (s : State) : Host.Outcome State Fault Refusal := .next (s.settle (s.message .keyExport m))

/-- KEY_RESTORE (R298). -/
def execKeyRestore (m : Msg) (s : State) : Host.Outcome State Fault Refusal := .next (s.settle (s.message .keyRestore m))

/-- PUBLIC_KEY_GET (R287). -/
def execPublicKeyGet (m : Msg) (s : State) : Host.Outcome State Fault Refusal := .next (s.settle (s.message .publicKeyGet m))

/-- IDENTITY_GET (R287). -/
def execIdentityGet (m : Msg) (s : State) : Host.Outcome State Fault Refusal := .next (s.settle (s.message .identityGet m))

/-- VAULT_READ_COMPLETE (R249): a read of the vault for a key-cache miss ends. -/
def execVaultReadComplete (handle : BitVec 40) (result : VaultRead) (s : State) : Host.Outcome State Fault Refusal :=
  .next (s.settle (s.vaultReadDone handle.toNat result))

/-- BATCH_CLOSE (R246): the open commit batch closes. -/
def execBatchClose (s : State) : Host.Outcome State Fault Refusal :=
  .next (s.settle s.batchClose)

/-- COMMIT_SWITCH (R246): the oldest batch in flight has been programmed and read back, with the blocks whose program
status failed. -/
def execCommitSwitch (result : BatchEnd) (s : State) : Host.Outcome State Fault Refusal :=
  .next (s.settle (s.commitSwitch result.readBack result.failed))

/-- VAULT_CONTROLLER_RESTART (R248): the vault controller restarts. -/
def execVaultControllerRestart (s : State) : Host.Outcome State Fault Refusal :=
  .next (s.settle s.vaultRestart)

/-- VAULT_MOUNT (R257): what a mount finds. -/
def execVaultMount (result : MountRead) (s : State) : Host.Outcome State Fault Refusal :=
  .next (s.settle (s.vaultMount result))

/-- GARBAGE_COLLECTION (R260): a pass of collection, levelling and refresh. -/
def execGarbageCollection (refresh : List Nat) (s : State) : Host.Outcome State Fault Refusal :=
  .next (s.settle (if s.pwr.booted then s.garbageCollection refresh else s))

/-- SUPERSEDED_ERASE (R261): blocks with superseded images are erased. -/
def execSupersededErase (count : Nat) (s : State) : Host.Outcome State Fault Refusal :=
  .next (s.settle (if s.pwr.booted then s.supersededErase count else s))

/-- QDR_ERROR (R252, R254): flipped bits in a QDR block. -/
def execQdrError (hit : QdrHit) (s : State) : Host.Outcome State Fault Refusal :=
  .next (s.settle (if s.pwr.booted then s.qdrError hit.region hit.flips else s))

/-- QDR_SCRUB_COMPLETE (R255): the scrub of the QDR ends. -/
def execQdrScrubComplete (s : State) : Host.Outcome State Fault Refusal :=
  .next (s.settle s.qdrScrubComplete)

/-- COMPONENT_SESSION_EXPIRY (R296): the time of a component session has passed. -/
def execComponentSessionExpiry (inst : Fin 256) (s : State) : Host.Outcome State Fault Refusal :=
  .next (s.settle (s.sessionExpires inst.val))

end Sys2Proof.Machine
end

