-- ==== Sys2Proof/Machine/Dispatch.lean ====
section
/-! DEFINITION. exec: one arm for each command of the module, a direct call of its meaning. -/

namespace Sys2Proof.Machine

def exec (i : Instr) (s : State) : Host.Outcome State Fault Refusal :=
  match i with
  | .powerUp env => Sys2Proof.Machine.execPowerUp env s
  | .undervoltageLockout => Sys2Proof.Machine.execUndervoltageLockout s
  | .linkReady link => Sys2Proof.Machine.execLinkReady link s
  | .serviceReady => Sys2Proof.Machine.execServiceReady s
  | .bankCharged => Sys2Proof.Machine.execBankCharged s
  | .inputLoss completes time => Sys2Proof.Machine.execInputLoss completes time s
  | .cfgCtlCold value env => Sys2Proof.Machine.execCfgCtlCold value env s
  | .coldRstPin ms => Sys2Proof.Machine.execColdRstPin ms s
  | .perst us => Sys2Proof.Machine.execPerst us s
  | .surpriseLinkLoss => Sys2Proof.Machine.execSurpriseLinkLoss s
  | .hotReset => Sys2Proof.Machine.execHotReset s
  | .ideCheckFailure cache => Sys2Proof.Machine.execIdeCheckFailure cache s
  | .spdmRequest req => Sys2Proof.Machine.execSpdmRequest req s
  | .ideKm cache key => Sys2Proof.Machine.execIdeKm cache key s
  | .cacheEnable on => Sys2Proof.Machine.execCacheEnable on s
  | .numvfsWrite n => Sys2Proof.Machine.execNumvfsWrite n s
  | .vfEnable ari => Sys2Proof.Machine.execVfEnable ari s
  | .vfDisable => Sys2Proof.Machine.execVfDisable s
  | .powerStateChange inst d3hot => Sys2Proof.Machine.execPowerStateChange inst d3hot s
  | .initiateFlr inst => Sys2Proof.Machine.execInitiateFlr inst s
  | .flrDrainComplete inst => Sys2Proof.Machine.execFlrDrainComplete inst s
  | .pfFlr => Sys2Proof.Machine.execPfFlr s
  | .protocolViolation inst kind addr => Sys2Proof.Machine.execProtocolViolation inst kind addr s
  | .dmaError target => Sys2Proof.Machine.execDmaError target s
  | .snoop inst invalidates => Sys2Proof.Machine.execSnoop inst invalidates s
  | .tailLineRead inst sqTail cqHead => Sys2Proof.Machine.execTailLineRead inst sqTail cqHead s
  | .tailLinePoll => Sys2Proof.Machine.execTailLinePoll s
  | .goErr inst => Sys2Proof.Machine.execGoErr inst s
  | .vfSqDb inst value => Sys2Proof.Machine.execVfSqDb inst value s
  | .vfCqDb inst value => Sys2Proof.Machine.execVfCqDb inst value s
  | .ringEnable inst => Sys2Proof.Machine.execRingEnable inst s
  | .ringDisable inst => Sys2Proof.Machine.execRingDisable inst s
  | .ringDrained inst => Sys2Proof.Machine.execRingDrained inst s
  | .dirtyLogEnable inst on => Sys2Proof.Machine.execDirtyLogEnable inst on s
  | .swap inst => Sys2Proof.Machine.execSwap inst s
  | .lnkViolClrAll => Sys2Proof.Machine.execLnkViolClrAll s
  | .lnkViolClrInstance inst => Sys2Proof.Machine.execLnkViolClrInstance inst s
  | .counterPairRead inst r => Sys2Proof.Machine.execCounterPairRead inst r s
  | .registerWrite w => Sys2Proof.Machine.execRegisterWrite w s
  | .prsUserWrite k value => Sys2Proof.Machine.execPrsUserWrite k value s
  | .retest => Sys2Proof.Machine.execRetest s
  | .checkpoint => Sys2Proof.Machine.execCheckpoint s
  | .dbgClose => Sys2Proof.Machine.execDbgClose s
  | .recommission value => Sys2Proof.Machine.execRecommission value s
  | .activate unit master => Sys2Proof.Machine.execActivate unit master s
  | .close unit master => Sys2Proof.Machine.execClose unit master s
  | .acuCaptureClear unit captureNow => Sys2Proof.Machine.execAcuCaptureClear unit captureNow s
  | .recompute report => Sys2Proof.Machine.execRecompute report s
  | .cellNew => Sys2Proof.Machine.execCellNew s
  | .measure dropMv volt => Sys2Proof.Machine.execMeasure dropMv volt s
  | .accessViolation a => Sys2Proof.Machine.execAccessViolation a s
  | .debugAccess kind start len => Sys2Proof.Machine.execDebugAccess kind start len s
  | .smbStatus => Sys2Proof.Machine.execSmbStatus s
  | .smbInputVoltage => Sys2Proof.Machine.execSmbInputVoltage s
  | .smbInputPower => Sys2Proof.Machine.execSmbInputPower s
  | .smbFabricTemperature => Sys2Proof.Machine.execSmbFabricTemperature s
  | .smbControlTemperature => Sys2Proof.Machine.execSmbControlTemperature s
  | .smbBankEnergy => Sys2Proof.Machine.execSmbBankEnergy s
  | .smbEol => Sys2Proof.Machine.execSmbEol s
  | .smbIncident => Sys2Proof.Machine.execSmbIncident s
  | .nop m => Sys2Proof.Machine.execNop m s
  | .flowOpen m => Sys2Proof.Machine.execFlowOpen m s
  | .flowClose m => Sys2Proof.Machine.execFlowClose m s
  | .cancel m => Sys2Proof.Machine.execCancel m s
  | .ecbEncrypt m => Sys2Proof.Machine.execEcbEncrypt m s
  | .ecbDecrypt m => Sys2Proof.Machine.execEcbDecrypt m s
  | .cbcEncrypt m => Sys2Proof.Machine.execCbcEncrypt m s
  | .cbcDecrypt m => Sys2Proof.Machine.execCbcDecrypt m s
  | .cfbEncrypt m => Sys2Proof.Machine.execCfbEncrypt m s
  | .cfbDecrypt m => Sys2Proof.Machine.execCfbDecrypt m s
  | .ofbCrypt m => Sys2Proof.Machine.execOfbCrypt m s
  | .ctrCrypt m => Sys2Proof.Machine.execCtrCrypt m s
  | .xtsEncrypt m => Sys2Proof.Machine.execXtsEncrypt m s
  | .xtsDecrypt m => Sys2Proof.Machine.execXtsDecrypt m s
  | .gcmEncrypt m => Sys2Proof.Machine.execGcmEncrypt m s
  | .gcmDecrypt m => Sys2Proof.Machine.execGcmDecrypt m s
  | .ccmEncrypt m => Sys2Proof.Machine.execCcmEncrypt m s
  | .ccmDecrypt m => Sys2Proof.Machine.execCcmDecrypt m s
  | .dataWrap m => Sys2Proof.Machine.execDataWrap m s
  | .dataUnwrap m => Sys2Proof.Machine.execDataUnwrap m s
  | .cmacGenerate m => Sys2Proof.Machine.execCmacGenerate m s
  | .cmacVerify m => Sys2Proof.Machine.execCmacVerify m s
  | .iso9797Generate m => Sys2Proof.Machine.execIso9797Generate m s
  | .iso9797Verify m => Sys2Proof.Machine.execIso9797Verify m s
  | .sha224 m => Sys2Proof.Machine.execSha224 m s
  | .sha256 m => Sys2Proof.Machine.execSha256 m s
  | .sha384 m => Sys2Proof.Machine.execSha384 m s
  | .sha512 m => Sys2Proof.Machine.execSha512 m s
  | .sha3_224 m => Sys2Proof.Machine.execSha3_224 m s
  | .sha3_256 m => Sys2Proof.Machine.execSha3_256 m s
  | .sha3_384 m => Sys2Proof.Machine.execSha3_384 m s
  | .sha3_512 m => Sys2Proof.Machine.execSha3_512 m s
  | .shake128 m => Sys2Proof.Machine.execShake128 m s
  | .shake256 m => Sys2Proof.Machine.execShake256 m s
  | .hmacGenerate m => Sys2Proof.Machine.execHmacGenerate m s
  | .hmacVerify m => Sys2Proof.Machine.execHmacVerify m s
  | .digestResult m => Sys2Proof.Machine.execDigestResult m s
  | .rsaSign m => Sys2Proof.Machine.execRsaSign m s
  | .rsaVerify m => Sys2Proof.Machine.execRsaVerify m s
  | .rsaEncrypt m => Sys2Proof.Machine.execRsaEncrypt m s
  | .rsaDecrypt m => Sys2Proof.Machine.execRsaDecrypt m s
  | .ecdsaSign m => Sys2Proof.Machine.execEcdsaSign m s
  | .ecdsaVerify m => Sys2Proof.Machine.execEcdsaVerify m s
  | .ecdh m => Sys2Proof.Machine.execEcdh m s
  | .x25519 m => Sys2Proof.Machine.execX25519 m s
  | .ed25519Sign m => Sys2Proof.Machine.execEd25519Sign m s
  | .ed25519Verify m => Sys2Proof.Machine.execEd25519Verify m s
  | .mlkemEncaps m => Sys2Proof.Machine.execMlkemEncaps m s
  | .mlkemDecaps m => Sys2Proof.Machine.execMlkemDecaps m s
  | .mldsaSign m => Sys2Proof.Machine.execMldsaSign m s
  | .mldsaVerify m => Sys2Proof.Machine.execMldsaVerify m s
  | .randomGenerate m => Sys2Proof.Machine.execRandomGenerate m s
  | .randomReseed m => Sys2Proof.Machine.execRandomReseed m s
  | .objectInfo m => Sys2Proof.Machine.execObjectInfo m s
  | .objectDelete m => Sys2Proof.Machine.execObjectDelete m s
  | .objectRestrict m => Sys2Proof.Machine.execObjectRestrict m s
  | .vaultUsage m => Sys2Proof.Machine.execVaultUsage m s
  | .keyGenerate m => Sys2Proof.Machine.execKeyGenerate m s
  | .keyUpdate m => Sys2Proof.Machine.execKeyUpdate m s
  | .receiveKeyGet m => Sys2Proof.Machine.execReceiveKeyGet m s
  | .keyComponent m => Sys2Proof.Machine.execKeyComponent m s
  | .keyExport m => Sys2Proof.Machine.execKeyExport m s
  | .keyRestore m => Sys2Proof.Machine.execKeyRestore m s
  | .publicKeyGet m => Sys2Proof.Machine.execPublicKeyGet m s
  | .identityGet m => Sys2Proof.Machine.execIdentityGet m s
  | .pinTranslate m => Sys2Proof.Machine.execPinTranslate m s
  | .pinVerify m => Sys2Proof.Machine.execPinVerify m s
  | .pinReference m => Sys2Proof.Machine.execPinReference m s
  | .dukptInitialKey m => Sys2Proof.Machine.execDukptInitialKey m s
  | .dukptMac m => Sys2Proof.Machine.execDukptMac m s
  | .dukptCrypt m => Sys2Proof.Machine.execDukptCrypt m s
  | .keyBlockWrap m => Sys2Proof.Machine.execKeyBlockWrap m s
  | .keyBlockCheck m => Sys2Proof.Machine.execKeyBlockCheck m s
  | .keyBlockTranslate m => Sys2Proof.Machine.execKeyBlockTranslate m s
  | .tandemBegin m => Sys2Proof.Machine.execTandemBegin m s
  | .tandemSign m => Sys2Proof.Machine.execTandemSign m s
  | .tandemStatus m => Sys2Proof.Machine.execTandemStatus m s
  | .domainInfo m => Sys2Proof.Machine.execDomainInfo m s
  | .policySet m => Sys2Proof.Machine.execPolicySet m s
  | .rosterSet m => Sys2Proof.Machine.execRosterSet m s
  | .domainPurge m => Sys2Proof.Machine.execDomainPurge m s
  | .domainCreate m => Sys2Proof.Machine.execDomainCreate m s
  | .domainDelete m => Sys2Proof.Machine.execDomainDelete m s
  | .domainQuota m => Sys2Proof.Machine.execDomainQuota m s
  | .ledgerChainOpen m => Sys2Proof.Machine.execLedgerChainOpen m s
  | .ledgerPost m => Sys2Proof.Machine.execLedgerPost m s
  | .ledgerCheckpoint m => Sys2Proof.Machine.execLedgerCheckpoint m s
  | .ledgerStatus m => Sys2Proof.Machine.execLedgerStatus m s
  | .ledgerCheckpointGet m => Sys2Proof.Machine.execLedgerCheckpointGet m s
  | .ledgerChainClose m => Sys2Proof.Machine.execLedgerChainClose m s
  | .instanceBind m => Sys2Proof.Machine.execInstanceBind m s
  | .instanceUnbind m => Sys2Proof.Machine.execInstanceUnbind m s
  | .instanceQuota m => Sys2Proof.Machine.execInstanceQuota m s
  | .imageWrite m => Sys2Proof.Machine.execImageWrite m s
  | .imageAccept m => Sys2Proof.Machine.execImageAccept m s
  | .recorderRead m => Sys2Proof.Machine.execRecorderRead m s
  | .recorderFreeze m => Sys2Proof.Machine.execRecorderFreeze m s
  | .lcTransition m => Sys2Proof.Machine.execLcTransition m s
  | .debugAuthorize m => Sys2Proof.Machine.execDebugAuthorize m s
  | .healthRead m => Sys2Proof.Machine.execHealthRead m s
  | .zrmRecord m => Sys2Proof.Machine.execZrmRecord m s
  | .labelSet m => Sys2Proof.Machine.execLabelSet m s
  | .labelDelete m => Sys2Proof.Machine.execLabelDelete m s
  | .labelLookup m => Sys2Proof.Machine.execLabelLookup m s
  | .templateBuildComplete inst op keyA keyB => Sys2Proof.Machine.execTemplateBuildComplete inst op keyA keyB s
  | .negativeTemplateExpiry inst op keyA keyB => Sys2Proof.Machine.execNegativeTemplateExpiry inst op keyA keyB s
  | .lapComplete engine => Sys2Proof.Machine.execLapComplete engine s
  | .pkOperationComplete engine => Sys2Proof.Machine.execPkOperationComplete engine s
  | .freewheelEntry cluster => Sys2Proof.Machine.execFreewheelEntry cluster s
  | .clusterFault cluster cause engine => Sys2Proof.Machine.execClusterFault cluster cause engine s
  | .hubFault hub => Sys2Proof.Machine.execHubFault hub s
  | .hubResetComplete hub => Sys2Proof.Machine.execHubResetComplete hub s
  | .spokeFault hubA hubB => Sys2Proof.Machine.execSpokeFault hubA hubB s
  | .controlPairRestart => Sys2Proof.Machine.execControlPairRestart s
  | .controlRestartComplete => Sys2Proof.Machine.execControlRestartComplete s
  | .programStoreScrub cluster corrected uncorrectable => Sys2Proof.Machine.execProgramStoreScrub cluster corrected uncorrectable s
  | .throttleEvaluation fabric control power => Sys2Proof.Machine.execThrottleEvaluation fabric control power s
  | .noiseWindow cells katPass => Sys2Proof.Machine.execNoiseWindow cells katPass s
  | .oscillatorRestart => Sys2Proof.Machine.execOscillatorRestart s
  | .conditionedBlock raw => Sys2Proof.Machine.execConditionedBlock raw s
  | .drbgReseedDue gen => Sys2Proof.Machine.execDrbgReseedDue gen s
  | .queueRefill gen => Sys2Proof.Machine.execQueueRefill gen s
  | .rngWaitExpiry msg => Sys2Proof.Machine.execRngWaitExpiry msg s
  | .vaultReadComplete handle result => Sys2Proof.Machine.execVaultReadComplete handle result s
  | .batchClose => Sys2Proof.Machine.execBatchClose s
  | .commitSwitch result => Sys2Proof.Machine.execCommitSwitch result s
  | .vaultControllerRestart => Sys2Proof.Machine.execVaultControllerRestart s
  | .vaultMount result => Sys2Proof.Machine.execVaultMount result s
  | .garbageCollection refresh => Sys2Proof.Machine.execGarbageCollection refresh s
  | .supersededErase count => Sys2Proof.Machine.execSupersededErase count s
  | .qdrError hit => Sys2Proof.Machine.execQdrError hit s
  | .qdrScrubComplete => Sys2Proof.Machine.execQdrScrubComplete s
  | .tandemExpiry tid => Sys2Proof.Machine.execTandemExpiry tid s
  | .componentSessionExpiry inst => Sys2Proof.Machine.execComponentSessionExpiry inst s
  | .tamperAlarm alarm => Sys2Proof.Machine.execTamperAlarm alarm s
  | .monitorDisagreement monitor atlasAlarmed => Sys2Proof.Machine.execMonitorDisagreement monitor atlasAlarmed s
  | .incidentEnd => Sys2Proof.Machine.execIncidentEnd s
  | .recorderBatchClose => Sys2Proof.Machine.execRecorderBatchClose s
  | .freezeExpiry => Sys2Proof.Machine.execFreezeExpiry s
  | .operatingHour report => Sys2Proof.Machine.execOperatingHour report s
  | .prfCountSave => Sys2Proof.Machine.execPrfCountSave s
  | .perstDeassertion => Sys2Proof.Machine.execPerstDeassertion s
  | .coldRstRelease env => Sys2Proof.Machine.execColdRstRelease env s
  | .undervoltageEvent => Sys2Proof.Machine.execUndervoltageEvent s
  | .cellFitted => Sys2Proof.Machine.execCellFitted s
  | .generateCallComplete msg => Sys2Proof.Machine.execGenerateCallComplete msg s
  | .unparkComplete cluster pass => Sys2Proof.Machine.execUnparkComplete cluster pass s

end Sys2Proof.Machine
end

