-- ==== Sys2Proof/Machine/Step.lean ====
section
/-! DEFINITION. step: the command at the front of the queue, or a millisecond of operating time. -/

namespace Sys2Proof.Machine

/-- With no command waiting, a module that is on lets 1 ms of operating time pass; one that is off idles (log 4). -/
def State.tick (s : State) : State := if s.pwr.booted then s.settle (s.advance (s.opTime + 1)) else s

/-- The command at the front of the queue runs with the rest of the queue behind it. -/
def step (s : State) : Host.Outcome State Fault Refusal :=
  match s.pending with
  | [] => .next s.tick
  | c :: rest => exec c { s with pending := rest }

/-- The state with the command that a word spells at the front of its queue. -/
def State.withFetchWord (s : State) (nbits w : Nat) : State :=
  match decodeTableWord nbits w with
  | some c => { s with pending := c :: s.pending }
  | none => s

end Sys2Proof.Machine
end

