-- ==== Sys2Proof/Safety.lean ====
section
/-! DEFINITION. What a safe run is: the queue holds only commands that a sender can send, and every step answers a next
state. -/

namespace Sys2Proof.Machine

/-- Every command that waits is well formed. -/
def State.queueWf (s : State) : Bool := s.pending.all Instr.wf

/-- A step answers a next state. -/
def goesOn (o : Host.Outcome State Fault Refusal) : Bool := match o with
  | .next _ => true
  | .fault _ => false
  | .refused _ => false

/-- A run of n steps meets no fault and no refusal. -/
def safeRun : Nat → State → Bool
  | 0, _ => true
  | n + 1, s => match step s with
    | .next t => safeRun n t
    | .fault _ => false
    | .refused _ => false

/-! What statements speak of -/

/-- The row of a message with an opcode. -/
def messageRow (o : Op) (m : Msg) : Instr := match o with
  | .nop => .nop m
  | .flowOpen => .flowOpen m
  | .flowClose => .flowClose m
  | .cancel => .cancel m
  | .ecbEncrypt => .ecbEncrypt m
  | .ecbDecrypt => .ecbDecrypt m
  | .cbcEncrypt => .cbcEncrypt m
  | .cbcDecrypt => .cbcDecrypt m
  | .cfbEncrypt => .cfbEncrypt m
  | .cfbDecrypt => .cfbDecrypt m
  | .ofbCrypt => .ofbCrypt m
  | .ctrCrypt => .ctrCrypt m
  | .xtsEncrypt => .xtsEncrypt m
  | .xtsDecrypt => .xtsDecrypt m
  | .gcmEncrypt => .gcmEncrypt m
  | .gcmDecrypt => .gcmDecrypt m
  | .ccmEncrypt => .ccmEncrypt m
  | .ccmDecrypt => .ccmDecrypt m
  | .dataWrap => .dataWrap m
  | .dataUnwrap => .dataUnwrap m
  | .cmacGenerate => .cmacGenerate m
  | .cmacVerify => .cmacVerify m
  | .iso9797Generate => .iso9797Generate m
  | .iso9797Verify => .iso9797Verify m
  | .sha224 => .sha224 m
  | .sha256 => .sha256 m
  | .sha384 => .sha384 m
  | .sha512 => .sha512 m
  | .sha3_224 => .sha3_224 m
  | .sha3_256 => .sha3_256 m
  | .sha3_384 => .sha3_384 m
  | .sha3_512 => .sha3_512 m
  | .shake128 => .shake128 m
  | .shake256 => .shake256 m
  | .hmacGenerate => .hmacGenerate m
  | .hmacVerify => .hmacVerify m
  | .digestResult => .digestResult m
  | .rsaSign => .rsaSign m
  | .rsaVerify => .rsaVerify m
  | .rsaEncrypt => .rsaEncrypt m
  | .rsaDecrypt => .rsaDecrypt m
  | .ecdsaSign => .ecdsaSign m
  | .ecdsaVerify => .ecdsaVerify m
  | .ecdh => .ecdh m
  | .x25519 => .x25519 m
  | .ed25519Sign => .ed25519Sign m
  | .ed25519Verify => .ed25519Verify m
  | .mlkemEncaps => .mlkemEncaps m
  | .mlkemDecaps => .mlkemDecaps m
  | .mldsaSign => .mldsaSign m
  | .mldsaVerify => .mldsaVerify m
  | .randomGenerate => .randomGenerate m
  | .randomReseed => .randomReseed m
  | .objectInfo => .objectInfo m
  | .objectDelete => .objectDelete m
  | .objectRestrict => .objectRestrict m
  | .vaultUsage => .vaultUsage m
  | .keyGenerate => .keyGenerate m
  | .keyUpdate => .keyUpdate m
  | .receiveKeyGet => .receiveKeyGet m
  | .keyComponent => .keyComponent m
  | .keyExport => .keyExport m
  | .keyRestore => .keyRestore m
  | .publicKeyGet => .publicKeyGet m
  | .identityGet => .identityGet m
  | .pinTranslate => .pinTranslate m
  | .pinVerify => .pinVerify m
  | .pinReference => .pinReference m
  | .dukptInitialKey => .dukptInitialKey m
  | .dukptMac => .dukptMac m
  | .dukptCrypt => .dukptCrypt m
  | .keyBlockWrap => .keyBlockWrap m
  | .keyBlockCheck => .keyBlockCheck m
  | .keyBlockTranslate => .keyBlockTranslate m
  | .tandemBegin => .tandemBegin m
  | .tandemSign => .tandemSign m
  | .tandemStatus => .tandemStatus m
  | .domainInfo => .domainInfo m
  | .policySet => .policySet m
  | .rosterSet => .rosterSet m
  | .domainPurge => .domainPurge m
  | .domainCreate => .domainCreate m
  | .domainDelete => .domainDelete m
  | .domainQuota => .domainQuota m
  | .ledgerChainOpen => .ledgerChainOpen m
  | .ledgerPost => .ledgerPost m
  | .ledgerCheckpoint => .ledgerCheckpoint m
  | .ledgerStatus => .ledgerStatus m
  | .ledgerCheckpointGet => .ledgerCheckpointGet m
  | .ledgerChainClose => .ledgerChainClose m
  | .instanceBind => .instanceBind m
  | .instanceUnbind => .instanceUnbind m
  | .instanceQuota => .instanceQuota m
  | .imageWrite => .imageWrite m
  | .imageAccept => .imageAccept m
  | .recorderRead => .recorderRead m
  | .recorderFreeze => .recorderFreeze m
  | .lcTransition => .lcTransition m
  | .debugAuthorize => .debugAuthorize m
  | .healthRead => .healthRead m
  | .zrmRecord => .zrmRecord m
  | .labelSet => .labelSet m
  | .labelDelete => .labelDelete m
  | .labelLookup => .labelLookup m

/-- A message that nothing holds passes steps 8 and 9: the state and the record with which it passes. -/
def State.passed8 (s : State) (r : MsgRec) : Option (State × MsgRec) :=
  match s.step8 r with
  | .ok t x => if (t.check9 x).isSome then none else some (t, x)
  | _ => none

/-- A message that has passed step 7 passes steps 8 and 9, with no wait; one of record mode as the message it stands for. -/
def State.passed7 (s : State) (r : MsgRec) : Option (State × MsgRec) :=
  if s.blocked8 r then none
  else if r.op == .zrmRecord then
    match s.zrmConvert r with
    | .inl _ => none
    | .inr x => if s.blocked8 x then none else s.passed8 x
  else s.passed8 r

/-- A message that has passed step 4 passes steps 5 to 9. -/
def State.passed5 (s : State) (r : MsgRec) : Option (State × MsgRec) :=
  if (s.check5 r.op r.m).isSome then none
  else
    let x := { r with flow := if r.op.isData && r.m.flowId != 0 then some r.m.flowId else none }
    let t := (s.openStream x).setMsg x
    if (t.check6 x).isSome then none
    else
      let y := { x with m := Msg.whole x.m }
      if (t.check7 y).isSome then none else t.passed7 y

/-- A message is fetched and passes steps 1 to 9 of R79 with no wait. -/
def State.passed (s : State) (o : Op) (m : Msg) : Option (State × MsgRec) :=
  if !s.fetchable m || (checkHeader m <|> checkOp o m).isSome || ((s.take o m).check4 o m.instN).isSome
      || (s.take o m).blocked5 (s.newRec o m) then none
  else (s.take o m).passed5 (s.newRec o m)

/-- The state in which a message that passes steps 1 to 9 begins to execute, as the last of the admitted ones, and its
record there. -/
def State.admitted (s : State) (o : Op) (m : Msg) : Option (State × MsgRec) :=
  (s.passed o m).map (fun p => (p.1.enter p.2, p.2.entered))

/-- The draws of a control-path message are served from the queues: the state and the record with which they are. Fuel bounds
the draws. -/
def State.drawnF : Nat → State → Nat → Option (State × MsgRec)
  | 0, _, _ => none
  | f + 1, s, id =>
    match s.findMsg id with
    | none => none
    | some r =>
      if r.phase != .ready then none
      else match nextDraw (s.controlDraws r) r.random.length with
        | some d =>
          if r.op == .keyGenerate && s.keyGenFault d.1 then none
          else match s.request d.1 d.2 with
            | .bytes b t => (t.modMsg r.id (fun x => { x with random := x.random ++ b })).drawnF f id
            | _ => none
        | none => some (s, r)

/-- The state in which the act of a message may begin: that of its admission, and for a transition what its steps 1 and 2
leave. -/
def State.atAct (s : State) (o : Op) (m : Msg) : State := if o == .lcTransition then s.lcBegin (lcTarget m) else s

/-- The state and the record of a control-path message that passes steps 1 to 9 while the control pair runs, what it draws
being in the queues. -/
def State.drawn (s : State) (o : Op) (m : Msg) : Option (State × MsgRec) :=
  match s.admitted o m with
  | some p => match (p.1.atAct o m).findMsg p.2.id with
    | some r => if r.op == o && (p.1.atAct o m).runnable r then ((p.1.atAct o m).beginRead r).drawnF 8 r.id else none
    | none => none
  | none => none

/-- A message whose draws are served needs no work of the internal world, or that work is done. -/
def State.workDone (s : State) (r : MsgRec) : Bool := (s.internalWork r).isEmpty || s.served (.message r.id)

/-- The state and the record with which a control-path message acts within its own command: it is drawn, and no work of the
internal world is left to wait for. -/
def State.acting (s : State) (o : Op) (m : Msg) : Option (State × MsgRec) :=
  match s.drawn o m with
  | some p => if p.1.workDone p.2 then some (p.1.useServed (.message p.2.id), p.2) else none
  | none => none

/-- Nothing follows of itself: no act of the module is left that waits for nothing, and all work that is ready has its place. -/
def State.quiet (s : State) : Bool :=
  !s.pwr.booted || (!s.strayDue && !s.splitDue && !s.ledgerDue && s.pumpStep.isNone && s.sch.msgs.all (fun r => !(r.stamp == 0 && s.lapReady r)))

/-- A write by the host at an offset of the manager window reaches its register: instance 0 answers, and unit 3 lets it through. -/
def State.writable (s : State) (off : Nat) : Bool := s.mgrUp && (s.hostRefused 1 off 4).isNone

/-- A write by the host at an offset of the window of instance n's rings reaches its register. -/
def State.ringWritable (s : State) (n off : Nat) : Bool :=
  s.reachable n && (n != 0 || (s.hostRefused 1 (0x1000000 + off) 4).isNone)

/-- The antifuse rows of the first have every bit of those of the second. -/
def Otp.holds (new old : Otp) : Bool :=
  (List.range 20).all (fun i => old.row i &&& new.row i == old.row i) && old.root &&& new.root == old.root

/-- The link but for the pending bits of the physical function's vectors. -/
def Lnk.unsent (l : Lnk) : Lnk := { l with pf := { l.pf with msixPend := 0 } }

/-- One state has what another has of everything but the messages, flows and templates, the rings, vectors and counters of the
instances, the engines, the recorder, what was sent to the host, and of the vault the key cache, the commits that wait and the
numbers that are reserved. -/
def State.keeps (s t : State) : Prop :=
  t.pending = s.pending ∧ t.opTime = s.opTime ∧ t.glb = s.glb ∧ t.isl = s.isl ∧ t.otp = s.otp ∧ t.nor = s.nor
  ∧ t.prf = s.prf ∧ t.cfg = s.cfg ∧ t.lcs = s.lcs ∧ t.tmp = s.tmp ∧ t.hlt = s.hlt ∧ t.pwr = s.pwr ∧ t.rng = s.rng
  ∧ t.clu = s.clu ∧ t.acu = s.acu ∧ t.lnk.unsent = s.lnk.unsent ∧ t.ident = s.ident ∧ t.reply = s.reply
  ∧ t.dom.recs = s.dom.recs ∧ t.dom.rec0 = s.dom.rec0 ∧ t.vlt.objs = s.vlt.objs ∧ t.vlt.epochs = s.vlt.epochs
  ∧ t.vlt.formatted = s.vlt.formatted ∧ t.vlt.vaultKey = s.vlt.vaultKey ∧ t.vlt.seq = s.vlt.seq
  ∧ t.vlt.state = s.vlt.state

end Sys2Proof.Machine
end

