-- ==== Sys2Proof/Certificates/Slice0/Obligations.lean ====
section
/-! DEFINITION. The statements. Most say which state a command leaves of itself (the state that exec settles): what follows of
itself after it, and the drive of SMB_ALERT#, is NothingFollowsQuiet's. -/

open Sys2Proof Sys2Proof.Machine

/-! The queue and the step -/

/-- A step runs the command at the front of the queue with the rest behind it, and the queue is then that rest; no table word
spells a command, so the host's placing leaves the state as it is. -/
def Obligations.StepRunsFront : Prop :=
  ∀ (c : Instr) (rest : List Instr) (s : State),
    step { s with pending := c :: rest } = exec c { s with pending := rest }
    ∧ (∀ t, exec c { s with pending := rest } = .next t → t.pending = rest)
    ∧ (∀ n w, s.withFetchWord n w = s)

/-- On an empty queue a module that is on lets 1 ms of operating time pass, and one that is off idles (the model's choice,
log 4). -/
def Obligations.EmptyQueueTicks : Prop :=
  ∀ s : State, s.pending = [] →
    (s.pwr.booted = false → step s = .next s)
    ∧ (s.pwr.booted = true →
        step s = .next (s.settle (s.advance (s.opTime + 1))) ∧ (s.advance (s.opTime + 1)).opTime = s.opTime + 1)

/-- The state right after reset: a unit never powered (log 3): no rail, link down, life cycle OVUM with blank rows, no
message, no vault object, an empty queue. -/
def Obligations.ResetIsBlank : Prop :=
  State.reset.pending = [] ∧ State.reset.queueWf = true ∧ State.reset.pwr.rails = 0 ∧ State.reset.pwr.booted = false
    ∧ State.reset.lnk.mode = 0 ∧ State.reset.glb.phase = 0 ∧ State.reset.lc = 0 ∧ State.reset.otp.root = 0
    ∧ State.reset.sch.msgs = [] ∧ State.reset.vlt.objs = [] ∧ State.reset.out = [] ∧ State.reset.irqs = []

/-- No run meets a fault or a refusal. -/
def Obligations.NoRunStops : Prop := ∀ (n : Nat) (s : State), safeRun n s = true

/-- A queue of well-formed commands stays one, and a step takes its front alone. -/
def Obligations.QueueStaysWellFormed : Prop :=
  ∀ s t : State, s.queueWf = true → step s = .next t → t.queueWf = true ∧ t.pending = s.pending.tail

/-- A command after whose own effect nothing follows, and before which no request of R11 stood that it leaves standing, answers that
effect, the drive of SMB_ALERT# apart: every other field is the effect's own. -/
def Obligations.NothingFollowsQuiet : Prop :=
  ∀ old t : State, t.quiet = true → (∀ x ∈ old.setAgain, t.setAgain.contains x = false) →
    old.settle t = { t.alertFrom old with otp := t.otp.over old.otp, pending := old.pending }
    ∧ { (t.alertFrom old) with pwr := { (t.alertFrom old).pwr with smbAlert := t.pwr.smbAlert } } = t
    ∧ ((old.pwr.rails = 0 ∨ t.pwr.rails = 0 ∨ (t.smbWord 1 = old.smbWord 1 ∧ t.smbWord 8 = old.smbWord 8)) →
        t.alertFrom old = t)

/-! Antifuse rows -/

/-- No step clears a bit of an antifuse row: a row programmed stays programmed. -/
def Obligations.AntifuseRowsOnlyGainBits : Prop :=
  ∀ s t : State, step s = .next t → t.otp.holds s.otp = true

/-- Once row LC19 holds any 1 bit the unit is SPENT and stays SPENT, whatever runs: in every later state the row still holds
a 1 bit and the decoded life-cycle state is 5. -/
def Obligations.SpentForever : Prop :=
  ∀ s t : State, s.otp.row 19 ≠ 0 → step s = .next t → t.otp.row 19 ≠ 0 ∧ t.otp.lcState = 5

/-- The count of completed DIAPAUSE entries never falls: a trip row that is not blank stays not blank. -/
def Obligations.TripsNeverFall : Prop :=
  ∀ s t : State, step s = .next t → s.otp.trips ≤ t.otp.trips

/-! Power -/

/-- Input power: the rise of the input, the lockout before the sequence is armed, an input outside its range, the charged
bank and a cell fitted. -/
def Obligations.PowerSupplies : Prop :=
  ∀ (s : State) (e : BootEnv),
    (s.pwr.inputOn = false → ∃ v : State,
      exec (.powerUp e) s = .next (s.settle (v.owedActions.start e false))
      ∧ v.pwr.inputOn = true ∧ v.pwr.rails = 0x7F ∧ v.pwr.charging = true ∧ v.pwr.inputOk = true ∧ v.isl.main = true
      ∧ (s.isl.cell = true → s.lc ≠ 2 → v.isl.tick = s.isl.tick ∧ v.isl.powerUps = s.isl.powerUps)
      ∧ ((s.isl.cell = false ∨ s.lc = 2) → v.isl.tick = 0 ∧ v.isl.powerUps = s.isl.powerUps + 1)
      ∧ v.otp = s.otp ∧ v.nor = s.nor ∧ v.opTime = s.opTime ∧ v.sch.msgs = [] ∧ v.glb.phase = 0)
    ∧ (s.pwr.inputOn = true → exec (.powerUp e) s = .next (s.settle s))
    ∧ (s.pwr.inputOn = true → s.pwr.armed = false → s.isl.cell = true →
        exec .undervoltageLockout s = .next (s.settle { s.volatile with
          lcs := { s.volatile.lcs with lostCause := s.volatile.lostCause }, isl := { s.isl with main := false } }))
    ∧ (s.pwr.inputOn = true → s.pwr.armed = false → s.isl.cell = false →
        ({ s.volatile with lcs := { s.volatile.lcs with lostCause := s.volatile.lostCause } } : State).lc ≠ 3 →
        exec .undervoltageLockout s = .next (s.settle { s.volatile with
          lcs := { s.volatile.lcs with lostCause := s.volatile.lostCause }
          isl := { s.isl with main := false }.clearBbram }))
    ∧ (∀ i : Isl, i.clearBbram.envelope = none ∧ i.clearBbram.rootSlots = [])
    ∧ (s.pwr.inputOn = true →
        exec .undervoltageEvent s = .next (s.settle { s with
          pwr := { s.pwr with inputOk := false }, lcs := { s.lcs with unstableAt := s.opTime } }))
    ∧ (s.pwr.inputOn = true → s.pwr.charging = true →
        exec .bankCharged s = .next (s.settle
          { s with pwr := { s.pwr with charged := true, bankVolt := 7000, state := 2 } }.armCharged))
    ∧ (s.isl.cell = false → s.isl.main = true →
        exec .cellFitted s = .next (s.settle (State.readsNormal { s with isl := { s.isl with cell := true } } 114)))
    ∧ (s.isl.cell = false → s.isl.main = false → s.lc ≠ 2 → ∃ t : State,
        t = State.readsNormal { s with isl := { s.isl with cell := true } } 114 ∧
        exec .cellFitted s = .next (s.settle { t with
          isl := { t.isl with tick := 0, powerUps := t.isl.powerUps + 1 } }))

/-- Resets: the command of CFG_CTL with its key, COLD_RST# low for 100 ms or more and its release, PERST# and its release. A
cold reset leaves the module not started, with its cause waiting, until the start; the input-loss sequence stays armed until then. A write that
unit 3 refuses does none of it (R431). -/
def Obligations.Resets : Prop :=
  ∀ (s : State) (e : BootEnv),
    (∀ c, (s.coldReset c).pwr.coldWait = some c ∧ (s.coldReset c).pwr.booted = false ∧ (s.coldReset c).sch.msgs = []
        ∧ (s.coldReset c).lnk = { Lnk.reset with
            lossHot := (s.coldReset c).lnk.lossHot, lossSurprise := (s.coldReset c).lnk.lossSurprise }
        ∧ (s.coldReset c).glb.phase = 0 ∧ (s.coldReset c).pwr.armed = s.pwr.armed)
    ∧ (∀ v : BitVec 32, s.mgrUp = true → s.hostRefused 1 0x1001C 4 = none → s.pwr.holdup = false → v.toNat / 65536 = 0xA5C3 → v.getLsbD 0 = true →
        exec (.cfgCtlCold v e) s = .next (s.settle ((s.coldReset 1).coldStart e)))
    ∧ (∀ v : BitVec 32, s.mgrUp = true → s.hostRefused 1 0x1001C 4 = none → (v.toNat / 65536 ≠ 0xA5C3 ∨ v.getLsbD 0 = false) →
        exec (.cfgCtlCold v e) s = .next (s.settle s))
    ∧ (∀ (v : BitVec 32) (t : State), s.mgrUp = true → s.hostRefused 1 0x1001C 4 = some t →
        exec (.cfgCtlCold v e) s = .next (s.settle t))
    ∧ (∀ v : BitVec 32, s.mgrUp = false → exec (.cfgCtlCold v e) s = .next (s.settle (s.unreached 0 0x1001C)))
    ∧ (∀ ms, s.pwr.booted = true → s.pwr.holdup = false → 100 ≤ ms →
        exec (.coldRstPin ms) s = .next (s.settle (s.coldReset 2)))
    ∧ (∀ ms, ms < 100 → exec (.coldRstPin ms) s = .next (s.settle s))
    ∧ (∀ c, s.pwr.coldWait = some c →
        exec (.coldRstRelease e) s =
          .next (s.settle ({ s with
            ident := { s.ident with present := false }, evr := { s.evr with state := 0, stopCause := 0 }
            pwr := { s.pwr with coldWait := none, armed := false } }.start e true)))
    ∧ (∀ us, us < 100 → exec (.perst us) s = .next (s.settle s))
    ∧ (∀ us, 100 ≤ us → s.pwr.booted = true → s.pwr.holdup = false → s.lnk.mode ≠ 0 →
        exec (.perst us) s = .next (s.settle { s with
          pwr := { s.pwr with perstLow := true, perstCount := satAdd 16 s.pwr.perstCount 1 } }.linkDown))
    ∧ exec .perstDeassertion s = .next (s.settle { s with pwr := { s.pwr with perstLow := false } })

/-- Input loss: before the sequence is armed an event of the input alone; armed, steps 1 to 3, then either the cut, which may fall in
the programming of a row, or a life-cycle transition under way run through and the saves of steps 4 and 5, and power off. -/
def Obligations.InputLoss : Prop :=
  ∀ (s : State) (done : HoldUp) (time : BitVec 16), s.pwr.inputOn = true → s.pwr.holdup = false →
    (s.pwr.armed = false →
      exec (.inputLoss done time) s = .next (s.settle { s with
        pwr := { s.pwr with inputOk := false }, lcs := { s.lcs with unstableAt := s.opTime } }))
    ∧ (s.pwr.armed = true → exec (.inputLoss .short time) s = .next (s.settle s.lossSteps.powerOff))
    ∧ (∀ bits, s.pwr.armed = true →
        exec (.inputLoss (.inRow bits) time) s = .next (s.settle (s.lossSteps.moveThrough (some bits)).powerOff))
    ∧ (∀ t : State, t.sch.msgs.any MsgRec.transits = false → ∀ cut, t.moveThrough cut = t)
    ∧ (s.pwr.armed = true →
        let outcome := if s.lcs.moving.isSome || s.sch.msgs.any MsgRec.transits then 2 else 1
        let v := (s.lossSteps.moveThrough none).stopWork.finishCommits.saveVault.saveAll 4 3 outcome
        exec (.inputLoss .whole time) s = .next (s.settle { v with
          pwr := { v.pwr with lossSeqs := satAdd 16 v.pwr.lossSeqs 1, lastOutcome := outcome
                              lastTime := time.toNat } }.powerOff))

/-! The host link -/

/-- The link trained, service ready, and the losses of the link: a surprise loss, a hot reset and an IDE check failure are
each recorded and counted and end with the link down, the SPDM session ended and both IDE streams insecure; an IDE check
failure is reported through AER. -/
def Obligations.LinkUpAndDown : Prop :=
  ∀ s : State,
    (∀ p, s.pwr.booted = true → s.pwr.perstLow = false → s.pwr.holdup = false → s.lnk.mode = 0 → s.glb.phase = 0 →
      s.cfg.state ≠ 2 →
        exec (.linkReady p) s = .next (s.settle { s with lnk := s.lnk.train p, glb := { s.glb with phase := 1 } }))
    ∧ (∀ p, s.pwr.booted = true → s.pwr.perstLow = false → s.pwr.holdup = false → s.lnk.mode = 0 → s.glb.phase ≠ 0 →
        exec (.linkReady p) s = .next (s.settle { s with lnk := s.lnk.train p }))
    ∧ (s.isReady = true →
        exec .serviceReady s = .next (s.settle
          ({ s with glb := { s.glb with phase := 2 } }.upRecord.arm.firstRecompute s.glb.phase)))
    ∧ (s.isReady = false → exec .serviceReady s = .next (s.settle s))
    ∧ (∀ t : State, t.linkDown.lnk.mode = 0 ∧ t.linkDown.lnk.spdm = Spdm.reset ∧ t.linkDown.lnk.ideIo = false
        ∧ t.linkDown.lnk.ideCache = false)
    ∧ (s.lnk.mode ≠ 0 → ∃ t : State, t = s.lossRecord 1 ∧
        exec .surpriseLinkLoss s = .next (s.settle { t with
          lnk := { t.lnk with lossSurprise := satAdd 16 t.lnk.lossSurprise 1 } }.linkDown))
    ∧ (s.lnk.mode ≠ 0 → ∃ t : State, t = s.lossRecord 2 ∧
        exec .hotReset s = .next (s.settle { t with
          lnk := { t.lnk with lossHot := satAdd 16 t.lnk.lossHot 1 } }.linkDown))
    ∧ (s.lnk.ideCache = true → ∃ t : State, t = (s.aer 0 aerIde).lossRecord 3 ∧
        exec (.ideCheckFailure true) s = .next (s.settle { t with
          lnk := { t.lnk with ideCacheFail := satAdd 16 t.lnk.ideCacheFail 1 } }.linkDown))
    ∧ (s.lnk.ideIo = true → ∃ t : State, t = (s.aer 0 aerIde).lossRecord 3 ∧
        exec (.ideCheckFailure false) s = .next (s.settle { t with
          lnk := { t.lnk with ideIoFail := satAdd 16 t.lnk.ideIoFail 1 } }.linkDown))

/-- The link's configuration: SPDM (a request is answered, or waits for its generators or for the internal world, or is busy
with no cluster left), IDE keys, Cache_Enable, NumVFs, VF Enable and the power state of a function. -/
def Obligations.LinkConfiguration : Prop :=
  ∀ s : State, s.hostUp = true →
    (∀ m : Bytes, s.lnk.spdm.waiting = none →
      let seeded := s.genSeeded 257 = true ∧ s.genSeeded 259 = true
      (∀ (secured : Bool) (w : State),
        w = s.modSpdm (fun p => { p with waiting := some (leBytes 1 (bit secured) ++ m) }) →
          (spdmDraws secured m = true → ¬ seeded → exec (.spdmRequest { secured := secured, message := m }) s = .next (s.settle w))
          ∧ (seeded → s.spdmWork secured m ≠ [] → s.served .spdm = false →
              (s.usableClusters = [] →
                exec (.spdmRequest { secured := secured, message := m }) s = .next (s.settle (s.doeAnswer 1 (spdmError 0x03 0))))
              ∧ (s.usableClusters ≠ [] →
                exec (.spdmRequest { secured := secured, message := m }) s = .next (s.settle (w.submit .spdm (s.spdmWork secured m))))))
      ∧ ((spdmDraws false m = false ∨ seeded) → (s.spdmWork false m = [] ∨ s.served .spdm = true) →
          exec (.spdmRequest { secured := false, message := m }) s = .next (s.settle (((s.spdmPlain m).2.useServed .spdm).doeAnswer 1 (s.spdmPlain m).1)))
      ∧ (seeded → (s.spdmWork true m = [] ∨ s.served .spdm = true) →
          exec (.spdmRequest { secured := true, message := m }) s = .next (s.settle (((s.spdmSecured m).2.useServed .spdm).doeAnswer 2 (s.spdmSecured m).1))))
    ∧ (∀ key : Bytes, s.lnk.spdm.phase = 2 → key.length = 32 →
        exec (.ideKm false key) s = .next (s.settle { s with lnk := { s.lnk with ideKeyIo := key, ideIo := true } })
        ∧ (s.lnk.mode = 2 → exec (.ideKm true key) s =
            .next (s.settle { s with lnk := { s.lnk with ideKeyCache := key, ideCache := true } }))
        ∧ (s.lnk.mode ≠ 2 → exec (.ideKm true key) s = .next (s.settle s)))
    ∧ exec (.cacheEnable true) s = .next (s.settle { s with lnk := { s.lnk with cacheEn := true } })
    ∧ exec (.cacheEnable false) s = .next (s.settle
        ({ s with lnk := { s.lnk with cacheEn := false } }.mapInst (fun i => { i with rings := i.rings.toDoorbell })))
    ∧ (∀ n, s.lnk.vfEnable = false →
        exec (.numvfsWrite n) s = .next (s.settle { s with lnk := { s.lnk with numVfs := min n 255 } }))
    ∧ (∀ n, s.lnk.vfEnable = true → exec (.numvfsWrite n) s = .next (s.settle s))
    ∧ (∀ ari, s.lnk.vfEnable = false → ∃ t : State, exec (.vfEnable ari) s = .next (s.settle t)
        ∧ t.lnk.vfEnable = true ∧ t.lnk.ari = ari ∧ t.lnk.fbAri = (!ari && 7 < s.lnk.numVfs)
        ∧ t.lnk.vfsOn = if ari = false ∧ 7 < s.lnk.numVfs then 7 else s.lnk.numVfs)
    ∧ (s.lnk.vfEnable = true → exec .vfDisable s = .next (s.settle
        ((List.foldl State.initiateFlr { s with lnk := { s.lnk with vfEnable := false, vfsOn := 0 } }
          (State.vfs { s with lnk := { s.lnk with vfEnable := false, vfsOn := 0 } })))))
    ∧ (∀ (n : Fin 256) d3, (s.getInst n.val).exists_ = true →
        exec (.powerStateChange n d3) s = .next (s.settle (s.modInst n.val (fun i => { i with d3hot := d3 }))))

/-- Function-level resets: Initiate FLR begins a reset of a function that exists and is not resetting, and has no effect on
one that is; the drain ends it; a reset of instance 0 resets every function and the manager. -/
def Obligations.FunctionResets : Prop :=
  ∀ s : State,
    (∀ n : Fin 256, s.hostUp = true → n.val ≠ 0 → (s.getInst n.val).exists_ = true →
      (s.getInst n.val).state ≠ .resetting →
        exec (.initiateFlr n) s = .next (s.settle
          ((s.squash (fun r => r.inst == n.val)).modInst n.val (fun i => { i with
            state := .resetting, flrDrain := true
            rings := { i.rings with en := false, silenced := true, reread := false, shared := false } }))))
    ∧ (∀ n : Fin 256, (s.getInst n.val).state = .resetting → exec (.initiateFlr n) s = .next (s.settle s))
    ∧ (∀ n : Fin 256, (s.getInst n.val).flrDrain = true →
        exec (.flrDrainComplete n) s = .next (s.settle (s.endReset n.val)))
    ∧ (s.hostUp = true → exec .pfFlr s = .next (s.settle (s.vfs.foldl State.initiateFlr s).resetManager))

/-- Violations of the protocol: counted for the instance in its counter, recorded when the first of its kind in the second, and
reported in AER where the error is the link's; a read of an unmapped offset returns 0. DMA errors: on a ring, a bitmap and an input. -/
def Obligations.ViolationsAndDmaErrors : Prop :=
  ∀ (s : State) (n : Fin 256) (a : BitVec 64), s.lnk.mode ≠ 0 →
    (∀ k, k = .noFunction ∨ k = .barDisabled →
      exec (.protocolViolation n k a) s = .next (s.settle (s.unsupported n.val a.toNat)))
    ∧ exec (.protocolViolation n .poisonedWrite a) s =
        .next (s.settle ((s.aer n.val aerPoisoned).violation n.val violLink a.toNat))
    ∧ exec (.protocolViolation n .malformed a) s =
        .next (s.settle ((s.aer 0 aerMalformed).violation 0 violLink a.toNat))
    ∧ exec (.protocolViolation n .unexpectedCompletion a) s =
        .next (s.settle ((s.aer 0 aerUnexpected).violation 0 violLink a.toNat))
    ∧ exec (.protocolViolation n .doorbellAbsent a) s = .next (s.settle (s.violation n.val violRing a.toNat))
    ∧ (∀ k, k = .unmapped ∨ k = .unaligned →
        exec (.protocolViolation n k a) s =
          .next (s.settle { s.violation n.val violReg a.toNat with reply := some 0 }))
    ∧ ((s.getInst n.val).rings.en = true → exec (.dmaError (.ring n)) s = .next (s.settle
        ((s.violation n.val violDma
          ((s.getInst n.val).rings.sqBase.toNat + 64 * (s.getInst n.val).rings.head)).ringFault n.val)))
    ∧ ((s.getInst n.val).dirty.en = true → exec (.dmaError (.bitmap n)) s = .next (s.settle
        ((s.modInst n.val (fun i => { i with dirty := { i.dirty with en := false, error := true } })).violation 0 violDma
          (if (s.getInst n.val).dirty.active then (s.getInst n.val).dirty.mapB else (s.getInst n.val).dirty.mapA).toNat)))
    ∧ (∀ id e r x, s.findMsg id = some r → r.reads = true → r.m.inlineIn = false → r.m.sgl[e]? = some x →
        exec (.dmaError (.input id e)) s = .next (s.settle
          ((s.violation r.inst violDma x.addr.toNat).failMsg r (Final.refuse Status.hostMemError e))))

/-- R48: a violation is counted always, in a counter that stays at 0xFFFF and that a reset of an instance leaves, and recorded
with address, kind and instance when no violation of its kind and instance has been in the same second. -/
def Obligations.ViolationsCountAndRecord : Prop :=
  ∀ (s : State) (n : Fin 256) (kind a : Nat),
    let i := s.getInst n.val
    let t := s.modInst n.val (fun i => { i.countViol kind with violSec := assign i.violSec kind s.seconds })
    (i.violSec.any (fun p => p.1 == kind && p.2 == s.seconds) = true → s.violation n.val kind a = t)
    ∧ (i.violSec.any (fun p => p.1 == kind && p.2 == s.seconds) = false →
        s.violation n.val kind a = t.record 0x0101 (src 1 n.val) 2 (pay kind (a % 2 ^ 32) (a / 2 ^ 32)))
    ∧ i.countViol 1 = { i with violLink := satAdd 16 i.violLink 1 }
    ∧ i.countViol 2 = { i with violReg := satAdd 16 i.violReg 1 }
    ∧ i.countViol 3 = { i with violDma := satAdd 16 i.violDma 1 }
    ∧ i.countViol 4 = { i with violRing := satAdd 16 i.violRing 1 }
    ∧ i.countViol 5 = { i with violAmp := satAdd 16 i.violAmp 1 }
    ∧ (∀ k : Nat, satAdd 16 k 1 ≤ 0xFFFF ∧ (k < 0xFFFF → satAdd 16 k 1 = k + 1) ∧ satAdd 16 0xFFFF 1 = 0xFFFF)
    ∧ (∀ m : Fin 256, ∀ u : State, (u = s.initiateFlr m.val ∨ u = s.endReset m.val) →
        (u.getInst n.val).violLink = i.violLink ∧ (u.getInst n.val).violReg = i.violReg
        ∧ (u.getInst n.val).violDma = i.violDma ∧ (u.getInst n.val).violRing = i.violRing
        ∧ (u.getInst n.val).violAmp = i.violAmp)
/-! Rings -/

/-- The tail line in coherent mode, and the doorbells. A write that unit 3 refuses, in the rings of instance 0, does none of it (R431). -/
def Obligations.TailAndDoorbells : Prop :=
  ∀ (s : State) (n : Fin 256),
    (s.watches n.val = true → (s.getInst n.val).rings.shared = true →
      exec (.snoop n true) s = .next (s.settle (s.modRings n.val (fun r => { r with shared := false, reread := true }))))
    ∧ exec (.snoop n false) s = .next (s.settle s)
    ∧ (∀ sq cq : BitVec 16, s.watches n.val = true → (s.getInst n.val).rings.reread = true →
        exec (.tailLineRead n sq cq) s = .next (s.settle
          (((s.modRings n.val (fun r => { r with reread := false, shared := true })).takeIndex n.val true sq.toNat).takeIndex
            n.val false cq.toNat)))
    ∧ (∀ v, v < (s.getInst n.val).rings.sqSize →
        s.takeIndex n.val true v = s.modRings n.val (fun r => { r with tail := v, badTail := none }))
    ∧ (∀ v, (s.getInst n.val).rings.sqSize ≤ v → (s.getInst n.val).rings.badTail = some v →
        s.takeIndex n.val true v = s)
    ∧ exec .tailLinePoll s = .next (s.settle (s.mapInst (fun i =>
        if i.rings.watch == .coherent && i.rings.ringOn then { i with rings := { i.rings with reread := true } } else i)))
    ∧ (s.watches n.val = true → (s.getInst n.val).rings.reread = true →
        exec (.goErr n) s = .next (s.settle
          ((s.modRings n.val Rings.toDoorbell).violation n.val violLink (s.getInst n.val).tailHpa.toNat)))
    ∧ (∀ v : BitVec 32, s.ringWritable n.val 0x1000 = true → s.ringWritable n.val 0x1004 = true →
        (s.getInst n.val).rings.ringOn = true → (s.getInst n.val).rings.watch ≠ .coherent →
          (v.toNat % 65536 < (s.getInst n.val).rings.sqSize → exec (.vfSqDb n v) s =
            .next (s.settle (s.modRings n.val (fun r => { r with tail := v.toNat % 65536 }))))
          ∧ ((s.getInst n.val).rings.sqSize ≤ v.toNat % 65536 → exec (.vfSqDb n v) s =
            .next (s.settle (s.violation n.val violRing 0x1000)))
          ∧ (v.toNat % 65536 < (s.getInst n.val).rings.cqSize → exec (.vfCqDb n v) s =
            .next (s.settle (s.modRings n.val (fun r => { r with cqHead := v.toNat % 65536 }))))
          ∧ ((s.getInst n.val).rings.cqSize ≤ v.toNat % 65536 → exec (.vfCqDb n v) s =
            .next (s.settle (s.violation n.val violRing 0x1004))))
    ∧ (∀ v : BitVec 32, s.ringWritable n.val 0x1000 = true → s.ringWritable n.val 0x1004 = true →
        (s.getInst n.val).rings.ringOn = true → (s.getInst n.val).rings.watch = .coherent →
          exec (.vfSqDb n v) s = .next (s.settle (s.modRings n.val (fun r => { r with reread := true })))
          ∧ exec (.vfCqDb n v) s = .next (s.settle (s.modRings n.val (fun r => { r with reread := true }))))
    ∧ (∀ v : BitVec 32, s.ringWritable n.val 0x1000 = true → s.ringWritable n.val 0x1004 = true →
        (s.getInst n.val).rings.ringOn = false →
        exec (.vfSqDb n v) s = .next (s.settle (s.violation n.val violRing 0x1000))
        ∧ exec (.vfCqDb n v) s = .next (s.settle (s.violation n.val violRing 0x1004)))
    ∧ (∀ (v : BitVec 32) (t : State), s.mgrUp = true →
        (s.hostRefused 1 0x1001000 4 = some t → exec (.vfSqDb 0 v) s = .next (s.settle t))
        ∧ (s.hostRefused 1 0x1001004 4 = some t → exec (.vfCqDb 0 v) s = .next (s.settle t)))

/-- EN written 1 checks the ring registers and starts the rings or sets CFG_ERR; a write while EN is 1 has no effect; EN
written 0 stops fetching; RING_ON falls with the last message, and not while a message is left or the instance is resetting;
dirty logging is switched and swapped (that a swap, and an enabling of logging that was off, count from 0 is the model's choice, log 54).
A write that unit 3 refuses does none of it (R431). -/
def Obligations.RingsAndDirtyLogging : Prop :=
  ∀ (s : State) (n : Fin 256),
    (s.ringWritable n.val 0x18 = true → (s.getInst n.val).rings.en = false → s.ringsValid n.val = true →
      exec (.ringEnable n) s = .next (s.settle ((s.modInst n.val (fun i => { i with
        state := .ringsOn, rings := i.rings.start (s.watchOf n.val) })).writeLine n.val)))
    ∧ (s.ringWritable n.val 0x18 = true → (s.getInst n.val).rings.en = false → s.ringsValid n.val = false →
        exec (.ringEnable n) s = .next (s.settle (s.modRings n.val (fun r => { r with cfgErr := true }))))
    ∧ (s.ringWritable n.val 0x18 = true → (s.getInst n.val).rings.en = true → exec (.ringEnable n) s = .next (s.settle s))
    ∧ (∀ t : State, s.mgrUp = true → s.hostRefused 1 0x1000018 4 = some t →
        exec (.ringEnable 0) s = .next (s.settle t) ∧ exec (.ringDisable 0) s = .next (s.settle t))
    ∧ (∀ (r : Rings) w, (r.start w).en = true ∧ (r.start w).ringOn = true ∧ (r.start w).cfgErr = false
        ∧ (r.start w).head = 0 ∧ (r.start w).tail = 0 ∧ (r.start w).watch = w)
    ∧ (s.ringWritable n.val 0x18 = true → (s.getInst n.val).rings.en = true →
        exec (.ringDisable n) s = .next (s.settle ((s.modRings n.val (fun r => { r with en := false })).writeLine n.val)))
    ∧ (s.ringWritable n.val 0x18 = true → (s.getInst n.val).rings.en = false →
        exec (.ringDisable n) s = .next (s.settle s))
    ∧ (∀ t : State, t = s.modInst n.val (fun i => { i with
          state := .ringsOff, rings := { i.rings with ringOn := false, watch := .off, reread := false, shared := false } }) →
        (s.getInst n.val).rings.en = false → (s.getInst n.val).rings.ringOn = true →
        (s.getInst n.val).state ≠ .resetting → s.sch.msgs.all (fun m => m.inst != n.val) = true →
          ((s.getInst n.val).rings.ringFault = false → exec (.ringDrained n) s = .next (s.settle (t.writeLine n.val)))
          ∧ ((s.getInst n.val).rings.ringFault = true → exec (.ringDrained n) s = .next (s.settle t)))
    ∧ ((s.getInst n.val).state = .resetting → exec (.ringDrained n) s = .next (s.settle s))
    ∧ (s.sch.msgs.any (fun m => m.inst == n.val) = true → exec (.ringDrained n) s = .next (s.settle s))
    ∧ (∀ on, n.val ≠ 0 → s.writable (dirtyCtlOffset n.val) = true →
        exec (.dirtyLogEnable n on) s = .next (s.settle (s.modInst n.val (fun i =>
          { i with dirty := { i.dirty with
            en := on && i.dirty.pages != 0, marked := if i.dirty.en then i.dirty.marked else [] } })))
        ∧ exec (.swap n) s = .next (s.settle (s.modInst n.val (fun i =>
          { i with dirty := { i.dirty with active := !i.dirty.active, count := 0, marked := [] } }))))

/-! Registers -/

/-- Reads and writes of registers. A read of 4 bytes returns the register and one of 1 or 2 bytes the bytes addressed; an aligned
64-bit access is two words, the lower address first; an unaligned read counts and returns 0, an unaligned or narrow write counts
and has no effect. A read of the lower register of a counter pair latches the upper half for the instance, and the next read of
the upper register returns the latch and releases it. What no register answers is a violation, what unit 3 refuses reads 0 or is not
written, and an access that no function answers is an Unsupported Request. -/
def Obligations.RegisterAccess : Prop :=
  ∀ (s : State) (n : Fin 256) (sp : RegSpace) (a : BitVec 32),
    let read (size : Nat) : Instr := .counterPairRead n { space := sp, offset := a, size := size }
    let write (size : Nat) (v g : BitVec 64) (c : Option Access) : Instr :=
      .registerWrite { master := .host n, space := sp, offset := a, size := size, value := v, again := g, capture := c }
    (s.reaches n.val sp = false → s.hostUp = true →
      ∀ size v g c, exec (read size) s = .next (s.settle (s.unsupported n.val a.toNat))
        ∧ exec (write size v g c) s = .next (s.settle (s.unsupported n.val a.toNat)))
    ∧ (s.reaches n.val sp = true → sp ≠ .config →
        (∀ size, a.toNat % size ≠ 0 →
          exec (read size) s = .next (s.settle { s.violation n.val violReg a.toNat with reply := some 0 }))
        ∧ (∀ t v, a.toNat % 4 = 0 → (v, t) = s.readWord n.val sp a.toNat →
            exec (read 4) s = .next (s.settle { t with reply := some (v.setWidth 64) }))
        ∧ (∀ t v, (v, t) = s.readWord n.val sp (a.toNat - a.toNat % 4) →
            exec (read 1) s = .next (s.settle
              { t with reply := some (((v >>> (8 * (a.toNat % 4))) &&& 0xFF).setWidth 64) })
            ∧ (a.toNat % 2 = 0 → exec (read 2) s = .next (s.settle
              { t with reply := some (((v >>> (8 * (a.toNat % 4))) &&& 0xFFFF).setWidth 64) })))
        ∧ (∀ (t u : State) (v w : BitVec 32), a.toNat % 8 = 0 → (v, t) = s.readWord n.val sp a.toNat →
            (w, u) = t.readWord n.val sp (a.toNat + 4) →
            exec (read 8) s = .next (s.settle { u with reply := some (w ++ v) }))
        ∧ (∀ (v g : BitVec 64) (c : Option Access),
            (a.toNat % 4 = 0 → exec (write 4 v g c) s =
              .next (s.settle (s.regWord (.host n) sp a.toNat (v.setWidth 32) (g.setWidth 32) c)))
            ∧ (a.toNat % 8 = 0 → exec (write 8 v g c) s =
              .next (s.settle ((s.regWord (.host n) sp a.toNat (v.setWidth 32) (g.setWidth 32) c).regWord (.host n) sp (a.toNat + 4)
                ((v >>> 32).setWidth 32) ((g >>> 32).setWidth 32) c)))
            ∧ exec (write 1 v g c) s = .next (s.settle (s.violation n.val violReg a.toNat))
            ∧ exec (write 2 v g c) s = .next (s.settle (s.violation n.val violReg a.toNat))
            ∧ (a.toNat % 4 ≠ 0 → exec (write 4 v g c) s = .next (s.settle (s.violation n.val violReg a.toNat)))
            ∧ (a.toNat % 8 ≠ 0 → exec (write 8 v g c) s = .next (s.settle (s.violation n.val violReg a.toNat)))))
    ∧ (∀ b v g c, sp ≠ .config → s.spaceReg n.val sp b = none →
        (s.unitStops n.val sp 0 b = none → s.readWord n.val sp b = (0, s.violation n.val violReg b))
        ∧ (s.unitStops n.val sp 1 b = none → s.regWord (.host n) sp b v g c = s.violation n.val violReg b))
    ∧ (∀ b v g c t, (s.unitStops n.val sp 0 b = some t → s.readWord n.val sp b = (0, t))
        ∧ (s.unitStops n.val sp 1 b = some t → s.regWord (.host n) sp b v g c = t))
    ∧ (∀ b v, s.spaceReg n.val sp b = some v → (sp ≠ .bar0 ∨ n.val ≠ 0) →
        s.readWord n.val sp b = (BitVec.ofNat 32 v, s))
    ∧ (∀ b v, s.spaceReg 0 .bar0 b = some v → s.unitStops 0 .bar0 0 b = none →
        (pairLow b = true → s.readWord 0 .bar0 b = (BitVec.ofNat 32 v, s.modInst 0 (fun i => { i with
          latches := i.latches.filter (fun p => p.1 != b + 4) ++ [(b + 4, s.readReg 0 (b + 4))] })))
        ∧ (pairLow b = false → (s.getInst 0).latches.find? (fun p => p.1 == b) = none →
          s.readWord 0 .bar0 b = (BitVec.ofNat 32 v, s))
        ∧ (∀ x, pairLow b = false → (s.getInst 0).latches.find? (fun p => p.1 == b) = some (b, x) →
          s.readWord 0 .bar0 b =
            (x, s.modInst 0 (fun i => { i with latches := i.latches.filter (fun p => p.1 != b) }))))

/-- LNK_VIOL_CLR puts the five counters of an instance, or of every instance, at 0; PRS_USER(i) is written through the
persistent register file; RETEST brings a failed source back to its tests; CHECKPOINT writes one of a mounted vault; DBG_CLOSE
closes the debug session with its record; RECOMMISSION without its key does nothing, and with it is refused with its cause or
formats the vault, once the generators of its keys are seeded; while one runs, only a cause that refuses is kept (log 74). A command
register that instance 0 does not answer is an Unsupported Request, and unit 3 may refuse the write (R431). -/
def Obligations.CommandRegisters : Prop :=
  ∀ s : State,
    (s.writable 0xD0010 = true → exec .lnkViolClrAll s = .next (s.settle (s.mapInst InstRec.clearViol)))
    ∧ (∀ n : Fin 256, s.writable 0xD0010 = true → exec (.lnkViolClrInstance n) s = .next (s.settle (s.modInst n.val InstRec.clearViol)))
    ∧ (∀ i : InstRec, i.clearViol =
        { i with violLink := 0, violReg := 0, violDma := 0, violRing := 0, violAmp := 0 })
    ∧ (∀ (i : Fin 8) (v : BitVec 32), s.writable (0x20020 + 4 * i.val) = true → exec (.prsUserWrite i v) s =
        .next (s.settle (s.tryPrf (prfUser i.val) (fun p => { p with user := p.user.set i.val v }))))
    ∧ (s.writable 0x80004 = true → s.rng.phase = 5 → exec .retest s = .next (s.settle { s with rng := { s.rng with
        phase := 4, recover := true, stopped := true, testing := false, retries := 0 } }))
    ∧ (s.writable 0x80004 = true → s.rng.phase ≠ 5 → exec .retest s = .next (s.settle s))
    ∧ (s.writable 0x9006C = true → s.mounted = true → exec .checkpoint s = .next (s.settle s.checkpoint))
    ∧ (s.writable 0x9006C = true → s.mounted = false →
        exec .checkpoint s = .next (s.settle { s with vlt := { s.vlt with ckptBusy := true } }))
    ∧ (s.writable 0x30020 = true → s.lcs.debug ≠ 0 → ∃ t : State, t = s.record 0x0502 0 3 (pay s.lcs.debug 5 s.prf.dbgCount) ∧
        exec .dbgClose s = .next (s.settle
          ({ t with lcs := { t.lcs with debug := 0, violTimes := [] } }.programUnit 20)))
    ∧ (∀ v : BitVec 32, s.writable 0x40014 = true →
        (v.toNat / 65536 ≠ 0x5A3C ∨ v.getLsbD 1 = false ∨ (s.tmp.recomState = 1 ∧ s.recomCheck = 0)) →
        exec (.recommission v) s = .next (s.settle s))
    ∧ (∀ v : BitVec 32, s.writable 0x40014 = true → v.toNat / 65536 = 0x5A3C → v.getLsbD 1 = true → s.tmp.recomState = 1 →
        s.recomCheck ≠ 0 → exec (.recommission v) s = .next (s.settle
          { s with tmp := { s.tmp with recomCause := s.recomCheck } }.recomRecord))
    ∧ (∀ v : BitVec 32, s.writable 0x40014 = true → v.toNat / 65536 = 0x5A3C → v.getLsbD 1 = true → s.tmp.recomState ≠ 1 → s.recomCheck ≠ 0 →
        exec (.recommission v) s = .next (s.settle
          { s with tmp := { s.tmp with recomCause := s.recomCheck, recomState := 3 } }.recomRecord))
    ∧ (∀ v : BitVec 32, s.writable 0x40014 = true → v.toNat / 65536 = 0x5A3C → v.getLsbD 1 = true → s.tmp.recomState ≠ 1 → s.recomCheck = 0 →
        ∃ t : State, t = { s with tmp := { s.tmp with recomCause := 0, recomState := 1 } }.recomRecord ∧
          ((t.genSeeded 257 = true → t.genSeeded 258 = true →
            ∃ (k p : Bytes) (u : State), k = (t.drawBytes 257 32).1 ∧ p = ((t.drawBytes 257 32).2.drawBytes 258 32).1
              ∧ u = ((t.drawBytes 257 32).2.drawBytes 258 32).2
              ∧ exec (.recommission v) s = .next (s.settle (u.formatVault k p).startMount))
          ∧ ((t.genSeeded 257 = false ∨ t.genSeeded 258 = false) →
            exec (.recommission v) s = .next (s.settle t))))
    ∧ (∀ (n : Fin 256) (i : Fin 8) (v : BitVec 32) (u : Fin 21) (a : Option Access) (r : HourReport) (mv : Nat) (w : BitVec 16)
        (on : Bool) (c : Instr) (off : Nat),
        (c, off) ∈ ([(.lnkViolClrAll, 0xD0010), (.lnkViolClrInstance n, 0xD0010), (.prsUserWrite i v, 0x20020 + 4 * i.val),
          (.retest, 0x80004), (.checkpoint, 0x9006C), (.dbgClose, 0x30020), (.recommission v, 0x40014),
          (.acuCaptureClear u a, capInfoOffset u.val), (.recompute r, 0x60010), (.cellNew, 0x60010), (.measure mv w, 0x70034),
          (.dirtyLogEnable n on, dirtyCtlOffset n.val), (.swap n, dirtyCtlOffset n.val)] : List (Instr × Nat)) →
          (s.mgrUp = false → exec c s = .next (s.settle (s.unreached 0 off)))
          ∧ (∀ t, s.mgrUp = true → s.hostRefused 1 off 4 = some t → exec c s = .next (s.settle t)))

/-- Access control: the masters of the custody world alone activate and close a unit; an access refused by its unit, or by a guard, is a
violation and reads zeros, one allowed returns what it reads, and one of a level or kind that its master never issues does nothing
(R434); the clear of a capture, which a capture in the same cycle outlives. -/
def Obligations.AccessControl : Prop :=
  ∀ (s : State) (u : Fin 21), s.pwr.booted = true →
    (∀ m : Master, isCustody m = true → s.custodyRefused m (uctlOffset u.val) = false → exec (.close u m) s = .next (s.settle (s.modAcu u.val (fun a => { a with closed := true }))))
    ∧ (∀ m : Master, (isCustody m = false ∨ s.custodyRefused m (uctlOffset u.val) = true) →
        exec (.close u m) s = .next (s.settle (s.guardedWrite m (uctlOffset u.val)))
        ∧ exec (.activate u m) s = .next (s.settle (s.guardedWrite m (uctlOffset u.val))))
    ∧ (∀ m : Master, isCustody m = true → s.custodyRefused m (uctlOffset u.val) = false → regionsBad (s.getAcu u.val).staged.toList = none →
        exec (.activate u m) s = .next (s.settle (s.modAcu u.val (fun a => { a with
          active := a.staged.map Triple.all, gen := satAdd 16 a.gen 1, closed := false, check := 0, checkRegion := 0 }))))
    ∧ (∀ (m : Master) code i, isCustody m = true → s.custodyRefused m (uctlOffset u.val) = false → regionsBad (s.getAcu u.val).staged.toList = some (code, i) →
        exec (.activate u m) s = .next (s.settle
          ((s.modAcu u.val (fun a => { a with check := code, checkRegion := i, fail := true })).record 0x0603
            (src 4 u.val) 2 (leBytes 1 u.val ++ leBytes 1 code ++ leBytes 1 i ++ zeros 13))))
    ∧ (∀ a : Access, a.unit = u →
        (issues u.val a.level.val (accCode a.kind) = false → exec (.accessViolation a) s = .next (s.settle s))
        ∧ (∀ x y, issues u.val a.level.val (accCode a.kind) = true →
          (s.getAcu u.val).refuses u.val a.level.val (accCode a.kind) a.start.toNat a.len = some (x, y) →
          exec (.accessViolation a) s = .next (s.settle
            ((s.acuViolation 0x0601 u.val x (accCode a.kind) a.level.val y a.len a.start.toNat).refusedReply u.val (accCode a.kind))))
        ∧ (∀ x, issues u.val a.level.val (accCode a.kind) = true →
          (s.getAcu u.val).refuses u.val a.level.val (accCode a.kind) a.start.toNat a.len = none →
          guardedByte u.val a.level.val (accCode a.kind) a.start.toNat a.len = some x →
          exec (.accessViolation a) s = .next (s.settle
            ((s.acuViolation 0x0602 u.val x (accCode a.kind) a.level.val (((s.getAcu u.val).regionOf x).getD 0xFF) a.len
              a.start.toNat).refusedReply u.val (accCode a.kind))))
        ∧ (s.accessAllowed u.val a.level.val (accCode a.kind) a.start.toNat a.len = true →
          (accCode a.kind ≠ 1 → a.len ≤ 8 → exec (.accessViolation a) s = .next (s.settle { s with
            reply := some (s.internalRead a.start.toNat a.len), draw := s.draw + bit (a.start.toNat ≥ 0x4000000) }))
          ∧ ((accCode a.kind = 1 ∨ 8 < a.len) → exec (.accessViolation a) s = .next (s.settle s))))
    ∧ (∀ (t : State) k, (k ≠ 1 → (t.refusedReply u.val k).reply = some 0) ∧ t.refusedReply u.val 1 = t)
    ∧ (s.writable (capInfoOffset u.val) = true → exec (.acuCaptureClear u none) s = .next (s.settle (s.modAcu u.val (fun a =>
        { a with capValid := false, capCount := 0, capFresh := false }))))
    ∧ (∀ a : Access, s.writable (capInfoOffset u.val) = true → a.unit = u → exec (.acuCaptureClear u (some a)) s = .next (s.settle
        ((s.modAcu u.val (fun a => { a with capValid := false, capCount := 0, capFresh := false })).access
          u.val a.level.val (accCode a.kind) a.start.toNat a.len)))
    ∧ (∀ start len, exec (.debugAccess .fetch start len) s = .next (s.settle s))
    ∧ (∀ k start len, k ≠ .fetch →
        let level := if s.lcs.debug = 2 then 1 else 2
        (s.accessAllowed 20 level (accCode k) start.toNat len = true →
          (accCode k ≠ 1 → len ≤ 8 → exec (.debugAccess k start len) s = .next (s.settle { s with
            reply := some (s.internalRead start.toNat len), draw := s.draw + bit (start.toNat ≥ 0x4000000) }))
          ∧ ((accCode k = 1 ∨ 8 < len) → exec (.debugAccess k start len) s = .next (s.settle s)))
        ∧ (s.accessAllowed 20 level (accCode k) start.toNat len = false →
          ∃ t : State, t = s.access 20 level (accCode k) start.toNat len
            ∧ (s.lcs.debug = 0 → exec (.debugAccess k start len) s = .next (s.settle t))
            ∧ (s.lcs.debug ≠ 0 → ∃ (w : List Nat) (v : State),
              w = t.lcs.violTimes.filter (fun w => t.opTime < w + 1000) ++ [t.opTime]
              ∧ v = { t with lcs := { t.lcs with viol := satAdd 16 t.lcs.viol 1, violTimes := w } }
              ∧ (w.length < 64 → exec (.debugAccess k start len) s = .next (s.settle v))
              ∧ (64 ≤ w.length → exec (.debugAccess k start len) s = .next (s.settle
                (State.closeDebug { v with lcs := { v.lcs with closedViol := true } } 4))))))

/-- The Read Words of SMBus: the word of the command code with the rails on, none with them off; the read of code 0x08 also
releases SMB_ALERT#. No register changes but the answer and the alert. The status outputs are low under their conditions with
the rails on, and released with them off; WAKE# is never asserted. -/
def Obligations.SmbusReads : Prop :=
  ∀ s : State,
    let read (code : Nat) : State := { s with pwr := { s.pwr with smbReply := some (s.smbWord code) } }
    (s.pwr.rails ≠ 0 →
      exec .smbStatus s = .next (s.settle (read 1)) ∧ exec .smbInputVoltage s = .next (s.settle (read 2))
      ∧ exec .smbInputPower s = .next (s.settle (read 3)) ∧ exec .smbFabricTemperature s = .next (s.settle (read 4))
      ∧ exec .smbControlTemperature s = .next (s.settle (read 5)) ∧ exec .smbBankEnergy s = .next (s.settle (read 6))
      ∧ exec .smbEol s = .next (s.settle (read 7))
      ∧ exec .smbIncident s = .next (s.settle { read 8 with pwr := { (read 8).pwr with smbAlert := false } }))
    ∧ (s.pwr.rails = 0 →
        exec .smbStatus s = .next (s.settle { s with pwr := { s.pwr with smbReply := none } }))
    ∧ s.smbWord 1 = BitVec.ofNat 16 (s.glb.phase.toNat + 16 * s.lc) ∧ s.smbWord 2 = s.pwr.voltage
    ∧ s.smbWord 3 = s.pwr.avg1S ∧ s.smbWord 4 = s.tmp.tempFabric.signExtend 16
    ∧ s.smbWord 5 = s.tmp.tempControl.signExtend 16 ∧ s.smbWord 6 = BitVec.ofNat 16 s.pwr.energy
    ∧ s.smbWord 7 = BitVec.ofNat 16 (min (s.hlt.eol.toNat / 24) 0xFFFF)
    ∧ s.smbWord 8 = BitVec.ofNat 16 (bit s.tmp.open_ + 2 * s.tmp.cls + 16 * bit s.pwr.holdup + 32 * bit s.pwr.throttleT)
    ∧ (s.pwr.rails ≠ 0 →
        (s.statReady = .low ↔ s.glb.phase = 2)
        ∧ (s.statTamper = .low ↔ (s.tmp.open_ = true ∧ 1 ≤ s.tmp.cls) ∨ s.lc = 5 ∨ s.lcs.lostCause ≠ 0)
        ∧ (s.statHoldup = .low ↔ s.pwr.holdup = true))
    ∧ (s.pwr.rails = 0 → s.statReady = .released ∧ s.statTamper = .released ∧ s.statHoldup = .released)
    ∧ wakePin = .released ∧ (∀ p, presence true p = p) ∧ (∀ p, presence false p = .released)

/-! Health and hours -/

/-- RECOMPUTE, CELL_NEW and MEASURE, the operating hour and the save of the counts. -/
def Obligations.HealthAndHours : Prop :=
  ∀ (s : State) (r : HourReport),
    (s.writable 0x60010 = true → exec (.recompute r) s = .next (s.settle (s.takeReport r).recomputeAll))
    ∧ (s.writable 0x60010 = true →
        let a := s.modInd 20 (fun x => { x with value := 1000000 })
        let b := a.modInd 20 (fun x => { x with
          hours := BitVec.ofNat 32 ((a.predict 20).getD 0xFFFFFFFF), noneP := (a.predict 20).isNone })
        exec .cellNew s = .next (s.settle (State.warn { b with hlt := { b.hlt with
          minInd := b.hlt.least, eol := (b.hlt.getInd b.hlt.least).hours } } 20)))
    ∧ (∀ mv v, s.writable 0x70034 = true → s.pwr.holdup = false → mv ≠ 0 →
        exec (.measure mv v) s = .next (s.settle
          ({ s with pwr := { s.pwr with bankVolt := v, bankDrop := mv } }.measured (bankEnergy s.pwr.charged mv v.toNat))))
    ∧ (∀ v, s.writable 0x70034 = true → exec (.measure 0 v) s = .next (s.settle s))
    ∧ (s.pwr.booted = true → s.pwr.holdup = false →
        ∃ t u : State, t = (s.advance ((s.hours + 1) * 3600000)).tryPrf prfTime
            (fun p => { p with opTime := (s.advance ((s.hours + 1) * 3600000)).opTime })
          ∧ u = { t with vlt := t.vlt.endHour, evr := t.evr.endHour
                         hlt := t.hlt.endHour t.prf.counts (hourWeight r.hottest) }.eraseDue
          ∧ exec (.operatingHour r) s = .next (s.settle
            ((u.measure r.dropMv r.volt).keepEnergy.takeReport r).recomputeAll))
    ∧ (∀ h counts w, (Hlt.endHour h counts w).qdrNow = 0 ∧ (h.endHour counts w).convTotal = h.convTotal + w
        ∧ (h.endHour counts w).prfPast.head? = some counts)
    ∧ (s.pwr.charged = true → s.keepEnergy.hlt.energies.head? = some (s.hours, s.pwr.energy))
    ∧ (s.pwr.charged = false → s.keepEnergy = s)
    ∧ (s.pwr.booted = true → s.pwr.holdup = false →
        ∃ t : State, t = s.advance (ceilDiv s.opTime 86400000 * 86400000)
          ∧ exec .prfCountSave s = .next (s.settle { t with nor := { t.nor with prfCounts := t.prf.counts } }))
/-! Templates and laps -/

/-- A template's build ends with a positive template and its messages going on, with a negative one and its messages refused,
or, for a key whose image is unreadable, with none and its messages failed; the template is kept for an instance that is still
bound to the domain it was built in; a negative template goes when its second has passed. -/
def Obligations.Templates : Prop :=
  ∀ (s : State) (n : Fin 256) (o : Op) (ka kb : BitVec 40),
    (∀ t : Template, s.glb.ctrlRestart = false → s.sch.templates.filter (fun t =>
        t.building && t.inst == n.val && t.op == o && t.keyA == ka.toNat && t.keyB == kb.toNat) = [t] →
      let d := (((s.waitersOf t).head?).map (·.domain)).getD ((s.domainOf t.inst).getD 0)
      let keep (x : Template) : State :=
        if s.domainOf t.inst = some d then s.putTemplate x else s.dropTemplates (fun y => y == t)
      (∀ f, s.useKeys d t.inst t.op 0 (fit 16 (t.extra.take 2)) none t.keyA t.keyB = .inl f →
        (f.status ≠ Status.vaultIntegrity →
          exec (.templateBuildComplete n o ka kb) s = .next (s.settle
            ((keep { t with building := false, status := f.status, detail := f.detail
                            expires := s.opTime + 1000 }).eachWaiter (s.waitersOf t) (fun u r => u.refuseSeg r f))))
        ∧ (f.status = Status.vaultIntegrity →
          exec (.templateBuildComplete n o ka kb) s = .next (s.settle
            ((s.dropTemplates (fun y => y == t)).eachWaiter (s.waitersOf t) (fun u r => u.failMsg r f)))))
      ∧ (∀ a b, s.useKeys d t.inst t.op 0 (fit 16 (t.extra.take 2)) none t.keyA t.keyB = .inr (a, b) →
        exec (.templateBuildComplete n o ka kb) s = .next (s.settle
          ((keep { t with building := false, refA := a.map Obj.ref, refB := b.map Obj.ref }).eachWaiter (s.waitersOf t)
            (fun u r => u.afterStep8 r (u.dataEnd8 { r with keyA := a.map Obj.ref, keyB := b.map Obj.ref }))))))
    ∧ (s.glb.ctrlRestart = true → exec (.templateBuildComplete n o ka kb) s = .next (s.settle s))
    ∧ (∀ t : Template, s.sch.templates.filter (fun t => !t.building && t.status != Status.ok && t.inst == n.val && t.op == o
          && t.keyA == ka.toNat && t.keyB == kb.toNat) = [t] →
        exec (.negativeTemplateExpiry n o ka kb) s = .next (s.settle ((s.advance t.expires).dropTemplates (fun t =>
          !t.building && t.status != Status.ok && t.inst == n.val && t.op == o && t.keyA == ka.toNat && t.keyB == kb.toNat))))

/-- The end of a lap: the engine loses its work, its sequencer registers and its padding buffers, keeps its key registers, and
the lap counts; a cipher or digest message that fails ends with the status of its opcode and no output of the lap, one whose last
lap this is delivers its output, a segment that ends is finished, any other lap keeps the context and releases its output; a
transaction function delivers or fails. A public-key operation ends with the key image and the random values cleared, and its
status, its output or its object follow; a pair is committed, after a control-pair restart where one runs; an operation of the
internal world ends. At the boundary the engine itself is offered work first. -/
def Obligations.LapsAndOperations : Prop :=
  ∀ (s : State) (e : Fin 192),
    let x := s.getEng e.val
    (∀ r : MsgRec, s.workOf e.val = some r → engKind e.val ≠ 2 → r.op ≠ .ledgerPost → ∀ t : State,
      t = (s.modEng e.val (fun y => { y.endLap with pass := s.passAfter x r })).modClu (engCluster e.val)
        (fun c => { c with laps := satAdd 64 c.laps 1 }) →
      (r.op.family ≠ 7 →
        let l := t.nextLap r
        let y := t.runLap x r l
        let u := t.putCtx r y.1
        let z := { (u.findMsg r.id).getD r with done_ := r.done_ + l.n, phase := .between }
        (y.1.fail = true →
          exec (.lapComplete e) s = .next (s.settle ((t.failMsg r (Final.plain (failStatus r.op))).boundary e.val)))
        ∧ (y.1.fail = false → l.last = true →
          exec (.lapComplete e) s = .next (s.settle (((u.setMsg z).deliver z y.2).boundary e.val)))
        ∧ (y.1.fail = false → l.last = false → l.segEnd = true →
          exec (.lapComplete e) s = .next (s.settle (((u.setMsg z).finishMsg z y.2).boundary e.val)))
        ∧ (y.1.fail = false → l.last = false → l.segEnd = false →
          exec (.lapComplete e) s = .next (s.settle (((u.setMsg z).releaseLap z y.2).boundary e.val))))
      ∧ (r.op.family = 7 →
        let key (k : Option KeyRef) (b : Bytes) : KeyRef := (k.map (fun x => { x with material := b })).getD KeyRef.reset
        let y := txRun r.op r.m (key r.keyA x.key.a) (key r.keyB x.key.b) r.random
        (y.1 = Status.ok → exec (.lapComplete e) s = .next (s.settle ((t.deliver r y.2).boundary e.val)))
        ∧ (y.1 ≠ Status.ok →
          exec (.lapComplete e) s = .next (s.settle ((t.failMsg r (Final.plain y.1)).boundary e.val)))))
    ∧ (∀ r : MsgRec, s.workOf e.val = some r → engKind e.val = 2 → ∀ t : State,
      t = (s.modEng e.val (fun y => y.endOperation r.privateImage)).modClu (engCluster e.val)
        (fun c => { c with pkops := satAdd 64 c.pkops 1 }) →
      (r.op ≠ .keyGenerate →
        let j := t.jobOf r
        let y := pkRun (j.withImage x.mem.image) x.mem.input x.mem.random
        (y.status ≠ Status.ok → exec (.pkOperationComplete e) s =
          .next (s.settle ((t.failMsg r { Final.plain y.status with output := y.output }).boundary e.val)))
        ∧ (y.status = Status.ok → j.route = 1 → exec (.pkOperationComplete e) s =
          .next (s.settle ((t.accept (some r.id) [.create (t.derived r y.secret)] (Final.good y.output)).boundary e.val)))
        ∧ (y.status = Status.ok → j.route ≠ 1 → exec (.pkOperationComplete e) s =
          .next (s.settle ((t.finishMsg r y.output).boundary e.val))))
      ∧ (r.op = .keyGenerate →
        let y := { r with phase := .between }
        (s.glb.ctrlRestart = false → exec (.pkOperationComplete e) s =
          .next (s.settle ((acted y (keyPairMade (t.setMsg y) y)).boundary e.val)))
        ∧ (s.glb.ctrlRestart = true → exec (.pkOperationComplete e) s =
          .next (s.settle ((t.setMsg y).boundary e.val)))))
    ∧ (∀ y : IntOp, s.workOf e.val = none → s.internalOn e.val = some y → engKind e.val = 2 →
      exec (.pkOperationComplete e) s = .next (s.settle
        ((((s.modEng e.val (fun z => z.endOperation true)).modClu (engCluster e.val)
          (fun c => { c with pkops := satAdd 64 c.pkops 1 })).endInternal y).boundary e.val)))
    ∧ (s.workOf e.val = none → exec (.lapComplete e) s = .next (s.settle s))
    ∧ (s.workOf e.val = none → s.internalOn e.val = none → exec (.pkOperationComplete e) s = .next (s.settle s))
    ∧ (∀ y : Engine, y.endLap.work = none ∧ y.endLap.regs = [] ∧ y.endLap.padBuf = [] ∧ y.endLap.key = y.key
        ∧ (y.endOperation true).work = none ∧ (y.endOperation true).mem.image = [] ∧ (y.endOperation true).mem.random = []
        ∧ (y.endOperation true).mem.inter = [] ∧ (y.endOperation false).mem.inter = []
        ∧ (y.endOperation false).work = none ∧ (y.endOperation false).mem.random = []
        ∧ (y.endOperation false).mem.image = y.mem.image)

/-- The head update of a posting: one more posting, the operating time, a new head over what was posted; the answer is count,
time and head; a posting that expects another count is refused with the count in RESULT and changes nothing; one whose chain owes a
resumption checkpoint waits for it (R350). -/
def Obligations.LedgerHeadUpdate : Prop :=
  ∀ (s : State) (e : Fin 192) (r : MsgRec) (c : Chain), s.workOf e.val = some r → engKind e.val ≠ 2 →
    r.op = .ledgerPost → ∀ t : State,
    t = (s.modEng e.val (fun y => { y.endLap with pass := s.passAfter (s.getEng e.val) r })).modClu (engCluster e.val)
      (fun c => { c with laps := satAdd 64 c.laps 1 }) →
    let x := c.post t.opTime (if r.m.field 41 1 = 0 then sha384 r.m.input else r.m.input)
    x.count = c.count + 1 ∧ x.time = t.opTime ∧ x.num = c.num
      ∧ (t.ledgerHeld r = true →
          exec (.lapComplete e) s = .next (s.settle ((t.setMsg { r with phase := .between }).boundary e.val)))
      ∧ (t.ledgerHeld r = false → t.ledgerFind r = .inr c → r.m.field 48 8 ≠ 0 → r.m.field 48 8 ≠ x.count →
          exec (.lapComplete e) s = .next (s.settle
            ((t.refuse r { Final.plain Status.keyVersion with info := leBytes 8 c.count }).boundary e.val)))
      ∧ (t.ledgerHeld r = false → t.ledgerFind r = .inr c → (r.m.field 48 8 = 0 ∨ r.m.field 48 8 = x.count) →
          exec (.lapComplete e) s = .next (s.settle (((t.modChain (t.dom' r) c.num (fun _ => x)).complete r
            (Final.good (leBytes 8 x.count ++ leBytes 8 x.time ++
              (if r.m.field 42 1 = 1 then x.head.take 24 else x.head))) false).boundary e.val)))
      ∧ (∀ f, t.ledgerHeld r = false → t.ledgerFind r = .inl f → f.status ≠ Status.ok →
          exec (.lapComplete e) s = .next (s.settle ((t.failMsg r f).boundary e.val)))

/-- What the built-in cipher programs compute on a whole message in one lap, for a key of block size B and under the registers its load gives: ECB and CBC with the
padding unit, CFB, OFB, CTR, XTS and key wrap. A generated IV takes the place of P and comes first in the output; padding
that is malformed, or a wrap that does not open, sets the verify flag and gives no output. -/
def Obligations.CipherResults : Prop :=
  ∀ (j : Job) (c : Ctx) (x expected : Bytes), c.pos = 0 → c.chain = [] → c.held = [] → c.fail = false →
    let b := j.block
    let lap (o : Op) : Ctx × Bytes := cipherLap (Job.load { j with op := o }) { j with op := o } c x true true expected
    let run (o : Op) : Bytes := (lap o).2
    let gen (o : Op) : Bool := Job.ivGen { j with op := o }
    let iv (o : Op) : Bytes := if gen o then c.iv else j.p.take b
    let lead (o : Op) : Bytes := if gen o then c.iv else []
    let pads (o : Op) : Bytes := padBytes (padCode o j.pad) b j.total c.fill
    let strip (o : Op) (d : Bytes) : Prop :=
      (padCode o j.pad = 0 → run o = d)
      ∧ (∀ k, padCode o j.pad ≠ 0 → padOn (padCode o j.pad) b (d.drop (d.length - b)) = some k →
          run o = d.take (d.length - k))
      ∧ (padCode o j.pad ≠ 0 → padOn (padCode o j.pad) b (d.drop (d.length - b)) = none →
          run o = [] ∧ (lap o).1.fail = true)
    run .ecbEncrypt = ecbRun (blockEnc j.alg j.key) b (x ++ pads .ecbEncrypt)
    ∧ strip .ecbDecrypt (ecbRun (blockDec j.alg j.key) b x)
    ∧ run .cbcEncrypt = lead .cbcEncrypt
        ++ (cbcEnc (blockEnc j.alg j.key) (chunks b (x ++ pads .cbcEncrypt)) (iv .cbcEncrypt)).1
    ∧ strip .cbcDecrypt (cbcDec (blockDec j.alg j.key) (chunks b x) (j.p.take b)).1
    ∧ run .cfbEncrypt = lead .cfbEncrypt ++ (cfbRun j.key true (chunks 16 x) (iv .cfbEncrypt)).1
    ∧ run .cfbDecrypt = (cfbRun j.key false (chunks 16 x) (j.p.take b)).1
    ∧ run .ofbCrypt = (ofbRun j.key (chunks 16 x) (j.p.take b)).1
    ∧ run .ctrCrypt = xorB x (keystream j.key (ctrBlock j.ctrWidth j.p) 0 x.length)
    ∧ run .xtsEncrypt = xtsRun true j.key j.key2 j.unitLen x (leNat (fit 16 j.p))
    ∧ run .xtsDecrypt = xtsRun false j.key j.key2 j.unitLen x (leNat (fit 16 j.p))
    ∧ run .dataWrap = (if j.isKwp then kwpWrap j.key x else kwWrap j.key x)
    ∧ run .dataUnwrap = ((if j.isKwp then kwpUnwrap j.key x else kwUnwrap j.key x).getD [])
    ∧ (lap .dataUnwrap).1.fail = (if j.isKwp then kwpUnwrap j.key x else kwUnwrap j.key x).isNone

/-- The MAC programs, on an AES key and under its registers: CMAC_GENERATE gives the leading bytes of the CMAC of SP 800-38B over the whole input, and CMAC_VERIFY
sets its flag exactly when the leading bytes of that CMAC and of the expected MAC differ. -/
def Obligations.CmacResults : Prop :=
  ∀ (j : Job) (x expected : Bytes), isTdea j.alg = false →
    let lap (o : Op) : Ctx × Bytes :=
      cipherLap (Job.load { j with op := o }) { j with op := o } Ctx.reset x true true expected
    (lap .cmacGenerate).2
      = (cmac j.key x).take (Job.tagLen { j with op := .cmacGenerate })
    ∧ ((lap .cmacVerify).1.fail = true ↔
        (cmac j.key x).take (Job.tagLen { j with op := .cmacVerify })
          ≠ expected.take (Job.tagLen { j with op := .cmacVerify }))
    ∧ (lap .cmacVerify).2 = []

/-- The digest programs: a SHA-2 or SHA-3 opcode gives the digest of the whole input, a SHAKE opcode the number of bytes its
parameter block asks for, HMAC_GENERATE the leading bytes of the HMAC of the whole input; HMAC_VERIFY sets its flag exactly when the MAC at the end of its
input is not the leading bytes of the HMAC of what comes before. -/
def Obligations.DigestResults : Prop :=
  ∀ (j : Job) (x : Bytes), j.total = x.length →
    (Op.isHmac j.op = false → Op.isShake j.op = false → (digestLap j.load j Ctx.reset x true).2 = j.hash.run x 0)
    ∧ (Op.isShake j.op = true → (digestLap j.load j Ctx.reset x true).2 = j.hash.run x (leAt j.p 0 4))
    ∧ (j.op = .hmacGenerate → j.route = 0 → (digestLap j.load j Ctx.reset x true).2 = (hmac j.hash j.key x).take j.macLen)
    ∧ (j.op = .hmacGenerate → j.route ≠ 0 → (digestLap j.load j Ctx.reset x true).2 = hmac j.hash j.key x)
    ∧ (∀ t e, j.op = .hmacVerify → x = t ++ e → e.length = j.macLen →
        ((digestLap j.load j Ctx.reset x true).1.fail = true ↔ (hmac j.hash j.key t).take j.macLen ≠ e)
        ∧ (digestLap j.load j Ctx.reset x true).2 = [])

/-- A digest message cut into laps gives what it gives whole: a lap that is not the last, followed by a lap on the rest, leaves
the context and the output of one lap on both. -/
def Obligations.DigestLapsJoin : Prop :=
  ∀ (k : KeyRegs) (j : Job) (c : Ctx) (x y : Bytes) (last : Bool),
    (digestLap k j c x false).1.hash ≠ [] →
    digestLap k j (digestLap k j c x false).1 y last = digestLap k j c (x ++ y) last

/-- OFB, CTR and CFB decrypt what they encrypt: the program run again, in CFB with the ciphertext fed back, gives the input
back. -/
def Obligations.StreamModesInvert : Prop :=
  ∀ (k : KeyRegs) (j : Job) (x e : Bytes), j.ivGen = false →
    (cipherLap k { j with op := .ctrCrypt } Ctx.reset
      (cipherLap k { j with op := .ctrCrypt } Ctx.reset x true true e).2 true true e).2 = x
    ∧ (cipherLap k { j with op := .ofbCrypt } Ctx.reset
      (cipherLap k { j with op := .ofbCrypt } Ctx.reset x true true e).2 true true e).2 = x
    ∧ (Job.ivGen { j with op := .cfbEncrypt } = false →
      (cipherLap k { j with op := .cfbDecrypt } Ctx.reset
        (cipherLap k { j with op := .cfbEncrypt } Ctx.reset x true true e).2 true true e).2 = x)

/-- GCM and CCM: what encryption makes of additional data and a text is ciphertext and a tag of TAG_LEN bytes; decryption of the
same additional data, the ciphertext and a tag gives the text back when the tag is that one, and with any other tag sets the
flag and releases nothing. -/
def Obligations.AeadOpensItsSeal : Prop :=
  ∀ (k : KeyRegs) (j : Job) (a x e : Bytes) (enc dec : Op),
    ((enc = .gcmEncrypt ∧ dec = .gcmDecrypt) ∨ (enc = .ccmEncrypt ∧ dec = .ccmDecrypt)) →
    let je := { j with op := enc, total := (a ++ x).length }
    je.aadLen = a.length → je.ivGen = false → je.tagLen ≤ 16 → ∃ c t : Bytes,
      (cipherLap k je Ctx.reset (a ++ x) true true e).2 = c ++ t ∧ c.length = x.length ∧ t.length = je.tagLen
      ∧ ∀ g : Bytes, g.length = je.tagLen →
        let lap := cipherLap k { j with op := dec, total := (a ++ c ++ g).length } Ctx.reset (a ++ c ++ g) true true e
        (g = t → lap.2 = x ∧ lap.1.fail = false) ∧ (g ≠ t → lap.2 = [] ∧ lap.1.fail = true)

/-- The public-key operations: what each opcode ends with, for KEY_A or the public key that leads the input. -/
def Obligations.PublicKeyResults : Prop :=
  ∀ (j : Job) (x rnd : Bytes),
    let run (o : Op) : PkEnd := pkRun { j with op := o } x rnd
    let pub := if j.keyA.isSome then publicHalf j.alg j.key else x.take (pubLen j.pset)
    let y (o : Op) : Bytes := x.drop (Job.lead { j with op := o })
    let ps := j.pset
    let c := psetCurve ps
    let d := beNat (j.key.take c.size)
    (run .rsaSign).output = rsaSign j.scheme j.hashCode (rsaSize ps) j.key (y .rsaSign) rnd
    ∧ (∀ z, rsaDecrypt j.hashCode (rsaSize ps) j.key (y .rsaDecrypt) = some (some z) → run .rsaDecrypt = PkEnd.ok z)
    ∧ (rsaDecrypt j.hashCode (rsaSize ps) j.key (y .rsaDecrypt) = some none →
        (run .rsaDecrypt).status = Status.verifyFailed ∧ (run .rsaDecrypt).output = [])
    ∧ (run .ecdsaSign).output = c.sign d (c.secret (c.trim rnd)) (y .ecdsaSign)
    ∧ (c.verify pub ((y .ecdsaVerify).take (2 * c.size)) ((y .ecdsaVerify).drop (2 * c.size)) = some true ↔
        (run .ecdsaVerify).status = Status.ok)
    ∧ (c.verify pub ((y .ecdsaVerify).take (2 * c.size)) ((y .ecdsaVerify).drop (2 * c.size)) = some false ↔
        (run .ecdsaVerify).status = Status.verifyFailed)
    ∧ (∀ z, j.route ≠ 1 → c.ecdh d (y .ecdh) = some z → run .ecdh = PkEnd.ok z)
    ∧ (∀ z, j.route = 1 → c.ecdh d (y .ecdh) = some z → (run .ecdh).secret = z ∧ (run .ecdh).output = [])
    ∧ (c.ecdh d (y .ecdh) = none → (run .ecdh).status = Status.pkInputRejected)
    ∧ (allZero (x25519 (j.key.take 32) (y .x25519)) = true → (run .x25519).status = Status.pkInputRejected)
    ∧ (allZero (x25519 (j.key.take 32) (y .x25519)) = false → j.route ≠ 1 →
        run .x25519 = PkEnd.ok (x25519 (j.key.take 32) (y .x25519)))
    ∧ run .ed25519Sign = PkEnd.ok (edSign (j.key.take 32) (y .ed25519Sign))
    ∧ (kemEkOk (psetKem ps) pub = true → j.route ≠ 1 → run .mlkemEncaps =
        PkEnd.ok ((kemEncaps (psetKem ps) pub rnd).1 ++ (kemEncaps (psetKem ps) pub rnd).2))
    ∧ (kemEkOk (psetKem ps) pub = false → (run .mlkemEncaps).status = Status.pkInputRejected)
    ∧ (j.route ≠ 1 → run .mlkemDecaps = PkEnd.ok (kemDecaps (psetKem ps) j.key (y .mlkemDecaps)))
    ∧ ((run .mldsaVerify).status = Status.ok ∨ (run .mldsaVerify).status = Status.verifyFailed)

/-- The transaction functions: a PIN block that does not decode ends with VERIFY_FAILED, a PIN that does not match with
PIN_MISMATCH, and neither gives output; a DUKPT MAC is made of the data, or compared with its last bytes; a key block that does
not open ends with UNWRAP_FAILED. -/
def Obligations.TransactionResults : Prop :=
  ∀ (m : Msg) (a b : KeyRef) (rnd : Bytes),
    let key := if a.usage.getLsbD 14 then dukptWorking a.material (slice m.input 16 12) (txP m 3) 0x1000 else a.material
    let pan := panOf m.input (txP m 2)
    let pin := pinDecode (txP m 0) key (m.input.take 16) pan
    (pin = none → ∀ o, (o = .pinTranslate ∨ o = .pinVerify ∨ o = .pinReference) →
      txRun o m a b rnd = (Status.verifyFailed, []))
    ∧ (∀ p, pin = some p →
      txRun .pinTranslate m a b rnd = (Status.ok, pinEncode (txP m 1) b.material p pan rnd)
      ∧ txRun .pinReference m a b rnd = (Status.ok, pinReferenceValue b.alg b.material (pinString p pan))
      ∧ (txRun .pinVerify m a b rnd).2 = []
      ∧ ((txRun .pinVerify m a b rnd).1 = Status.ok ↔
          (if b.alg = 0x0600 then pinString p pan = b.material
           else pinReferenceValue b.alg b.material (pinString p pan) = slice m.input 56 8))
      ∧ ((txRun .pinVerify m a b rnd).1 = Status.ok ∨ (txRun .pinVerify m a b rnd).1 = Status.pinMismatch))
    ∧ (txP m 4 = 0 → txRun .dukptMac m a b rnd = (Status.ok,
        (cmac (dukptWorking a.material (m.input.take 12) (txP m 3) 0x2000) (m.input.drop 16)).take (macTag m)))
    ∧ (∀ d g, txP m 4 ≠ 0 → m.input.drop 16 = d ++ g → g.length = macTag m →
        (txRun .dukptMac m a b rnd).2 = []
        ∧ ((txRun .dukptMac m a b rnd).1 = Status.ok ↔
          (cmac (dukptWorking a.material (m.input.take 12) (txP m 3) (0x2000 + txP m 4)) d).take (macTag m) = g))
    ∧ (∀ l off, parseBlock m.input (isTdea a.alg) = .inr (l, off) → openBlock a.alg a.material m.input off = none →
        txRun .keyBlockCheck m a b rnd = (Status.unwrapFailed, [])
        ∧ txRun .keyBlockTranslate m a b rnd = (Status.unwrapFailed, []))
/-! Clusters, hubs, the control pair -/

/-- Freewheeling, faults of a cluster, a hub and a spoke, the restart of the control pair, and the scrub of a program store. A
cluster fault fences the cluster, and a corrected error is counted alone; a hub fault replays the work of its four clusters and keeps them; a closed spoke is counted
once, and not while both its hubs are being reset; the restart of the control pair ends the postings that are under way and itself ends with the parameter writes and the completions that waited. -/
def Obligations.FabricEvents : Prop :=
  ∀ s : State,
    (∀ c : Fin 16, s.pwr.booted = true → s.cluUsable c.val = true → s.cluParked c.val = false →
      (s.getClu c.val).state = .running → s.sch.fwIdle ≠ 0 → s.cluBusy c.val = false →
        exec (.freewheelEntry c) s = .next (s.settle
          (((List.range 12).foldl (fun t i => t.modEng (12 * c.val + i) Engine.clear) s).modClu c.val
            (fun x => { x with state := .freewheel }))))
    ∧ (∀ c : Fin 16, s.cluBusy c.val = true → exec (.freewheelEntry c) s = .next (s.settle s))
    ∧ (∀ (c : Fin 16) cause (e : Fin 192), cause ≠ .corrected → s.detects c.val (faultCode cause) = true →
        exec (.clusterFault c cause none) s = .next (s.settle (s.fence c.val (faultCode cause) 0xFF))
        ∧ (engCluster e.val = c.val →
            exec (.clusterFault c cause (some e)) s = .next (s.settle (s.fence c.val (faultCode cause) e.val))))
    ∧ (∀ (c : Fin 16) cause e, cause ≠ .corrected → s.detects c.val (faultCode cause) = false →
        exec (.clusterFault c cause e) s = .next (s.settle s))
    ∧ (∀ (c : Fin 16) e,
        (s.detects c.val 1 = true → exec (.clusterFault c .corrected e) s = .next (s.settle
          (s.modClu c.val (fun x => { x with ceStage := satAdd 16 x.ceStage 1 }))))
        ∧ (s.detects c.val 1 = false → exec (.clusterFault c .corrected e) s = .next (s.settle s)))
    ∧ (∀ q : Fin 4, s.pwr.booted = true → s.hubBusy q.val = false → ∃ t : State,
        t = (List.range 4).foldl (fun t i => t.replayCluster (4 * q.val + i)) s
        ∧ exec (.hubFault q) s = .next (s.settle ({ t with glb := { t.glb.contained with
            hubReset := t.glb.hubReset ||| (1 <<< q.val)
            hubResets := satAdd 16 t.glb.hubResets 1 } }.faultRecord 2 (src 3 (16 + q.val)) 0 0xFF)))
    ∧ (∀ q : Fin 4, exec (.hubResetComplete q) s = .next (s.settle { s with
        glb := { s.glb with hubReset := s.glb.hubReset &&& ~~~((1 : BitVec 4) <<< q.val) } }))
    ∧ (∀ a b : Fin 4, s.pwr.booted = true → a ≠ b →
        s.glb.spokesClosed.contains (min a.val b.val, max a.val b.val) = false →
        (s.hubBusy a.val = false ∨ s.hubBusy b.val = false) → exec (.spokeFault a b) s = .next (s.settle { s with glb := { s.glb.contained with
          spokesClosed := s.glb.spokesClosed ++ [(min a.val b.val, max a.val b.val)] } }))
    ∧ (∀ a b : Fin 4, (s.glb.spokesClosed.contains (min a.val b.val, max a.val b.val) = true
          ∨ (s.hubBusy a.val = true ∧ s.hubBusy b.val = true)) → exec (.spokeFault a b) s = .next (s.settle s))
    ∧ (s.pwr.booted = true → s.glb.ctrlRestart = false →
        exec .controlPairRestart s = .next (s.settle ({ s with glb := { s.glb with
          ctrlRestart := true, ctrlRestarts := satAdd 16 s.glb.ctrlRestarts 1 } }.abortPostings.faultRecord 3 0 0 0xFF)))
    ∧ (∀ t : State, t.abortPostings = t.abortAll (fun r => r.op == .ledgerPost && r.admitted))
    ∧ (s.glb.ctrlRestart = true → s.sch.heldWrites = [] → s.sch.heldEnds = [] → s.hlt.recompute = false →
        exec .controlRestartComplete s = .next (s.settle { s with glb := { s.glb with ctrlRestart := false } }))
    ∧ (∀ id x r, s.glb.ctrlRestart = true → s.sch.heldWrites = [] → s.sch.heldEnds = [(id, x)] → s.findMsg id = some r →
        s.hlt.recompute = false → exec .controlRestartComplete s = .next (s.settle
          ((State.endCommit { s with glb := { s.glb with ctrlRestart := false }, sch := { s.sch with heldEnds := [] } }
            r x).heldRecompute)))
    ∧ (∀ v, s.glb.ctrlRestart = true → s.sch.heldWrites = [(0xA0000, v)] → s.sch.heldEnds = [] →
        exec .controlRestartComplete s = .next (s.settle
          (({ s with glb := { s.glb with ctrlRestart := false }, sch := { s.sch with heldWrites := [] } }.writeSchCtl
            v).heldRecompute)))
    ∧ (∀ (c : Fin 16) n, s.detects c.val 2 = true →
        let t := s.modClu c.val (fun x => { x with scrub := satAdd 32 x.scrub 1, ceProg := satAdd 16 x.ceProg n })
        exec (.programStoreScrub c n false) s = .next (s.settle t)
        ∧ exec (.programStoreScrub c n true) s = .next (s.settle (t.fence c.val 2 0xFF)))

/-- The throttle, on the samples of the input stage: a die temperature of 100 °C or more parks one cluster and sets the temperature flag; power above 110 W sets
the power flag and gives up the bank's charging, and at the second evaluation in a row above it parks one; after ten evaluations below 95 °C and 100 W one cluster is
unparked. A voltage outside 36 to 75 V is an undervoltage event (R469). An unparked cluster that compares runs; one that does not is
fenced. -/
def Obligations.Throttling : Prop :=
  ∀ s : State,
    (∀ (f c : Int) (i : InputSample) (p : Nat) (v : State), p = i.power → v = s.sampleInput i →
      s.pwr.booted = true → f < 100 → c < 100 → p ≤ 11000 → s.pwr.charging = true →
      s.pwr.coolTicks < 9 →
        exec (.throttleEvaluation f c i) s = .next (s.settle { v with
          tmp := { s.tmp with tempFabric := tempByte f, tempControl := tempByte c }
          pwr := { v.pwr with
            throttleT := s.pwr.throttleT && s.pwr.parked != 0
            throttleP := s.pwr.throttleP && s.pwr.parked != 0
            overLast := false
            lowTicks := if p < 10000 then s.pwr.lowTicks + 1 else 0
            coolTicks := if f < 95 ∧ c < 95 ∧ p < 10000 then s.pwr.coolTicks + 1 else 0 } }))
    ∧ (∀ i : InputSample, ∃ l : List Nat, l = (i.power :: s.pwr.powers).take 6000 ∧ s.sampleInput i = { s with
        pwr := { s.pwr with powers := l, avg1S := meanPower l 100, avg1Min := meanPower l 6000, voltage := i.voltage
                            current := i.current, inputOk := 3600 ≤ i.voltage.toNat ∧ i.voltage.toNat ≤ 7500 }
        lcs := { s.lcs with unstableAt :=
          if 3600 ≤ i.voltage.toNat ∧ i.voltage.toNat ≤ 7500 then s.lcs.unstableAt else s.opTime } })
    ∧ (∀ (f c : Int) (i : InputSample), s.pwr.booted = true → (100 ≤ f ∨ 100 ≤ c) → i.power ≤ 11000 → s.pwr.charging = true →
        ∃ t u : State,
          t = State.parkOne { s.sampleInput i with
            tmp := { s.tmp with tempFabric := tempByte f, tempControl := tempByte c } }
          ∧ exec (.throttleEvaluation f c i) s = .next (s.settle u) ∧ u.pwr.throttleT = true ∧ u.pwr.coolTicks = 0
          ∧ u.pwr.parked = t.pwr.parked ∧ u.clu = t.clu ∧ u.sch = t.sch)
    ∧ (∀ (f c : Int) (i : InputSample), s.pwr.booted = true → f < 100 → c < 100 → 11000 < i.power → s.pwr.charging = true →
        ∃ u : State, exec (.throttleEvaluation f c i) s = .next (s.settle u) ∧ u.pwr.throttleP = true
          ∧ u.pwr.charging = false ∧ u.pwr.overLast = true ∧ u.clu = s.clu
          ∧ (s.pwr.overLast = false → u.pwr.parked = s.pwr.parked)
          ∧ (s.pwr.overLast = true → u.pwr.parked = s.parkOne.pwr.parked))
    ∧ (∀ c : Fin 16, s.pwr.unparking.getLsbD c.val = true →
        let t := State.modClu { s with pwr := { s.pwr with unparking := setBit16 s.pwr.unparking c.val false
                                                           gated := setBit16 s.pwr.gated c.val false } }
          c.val (fun x => { x with state := .running })
        exec (.unparkComplete c true) s = .next (s.settle t)
        ∧ exec (.unparkComplete c false) s = .next (s.settle (t.fence c.val 2 0xFF)))
    ∧ (∀ (c : Fin 16) pass, s.pwr.unparking.getLsbD c.val = false →
        exec (.unparkComplete c pass) s = .next (s.settle s))

/-! The random source -/

/-- Windows of the noise cells, the restart of the oscillators, conditioned blocks, reseeds that fall due and refills. -/
def Obligations.RandomSource : Prop :=
  ∀ s : State,
    (∀ cells kat, (s.rng.phase = 0 ∨ s.rng.stopped = true) →
        exec (.noiseWindow cells kat) s = .next (s.settle s))
    ∧ (∀ cells, s.rng.phase = 1 → s.rng.stopped = false → s.rng.kat = false →
        exec (.noiseWindow cells false) s = .next (s.settle s.sourceFailed))
    ∧ (∀ cells, s.rng.phase = 1 → s.rng.stopped = false → cellMask cells = 0 →
        exec (.noiseWindow cells true) s = .next (s.settle { s with
          rng := { s.rng.window cells with kat := true, phase := 2, testing := false } }))
    ∧ (∀ cells, (s.rng.phase = 2 ∨ s.rng.phase = 3) → s.rng.stopped = false → cellMask cells = 0 →
        exec (.noiseWindow cells true) s = .next (s.settle { s with rng := { s.rng.window cells with kat := true } }))
    ∧ (∀ cells, (s.rng.phase = 1 ∨ s.rng.phase = 2 ∨ s.rng.phase = 3) → s.rng.stopped = false → cellMask cells ≠ 0 →
        exec (.noiseWindow cells true) s = .next (s.settle
          (State.healthFailure { s with rng := { s.rng.window cells with kat := true } })))
    ∧ (∀ cells, s.rng.phase = 4 → s.rng.stopped = false → cellMask cells ≠ 0 → s.rng.retries < 2 →
        exec (.noiseWindow cells true) s = .next (s.settle { s with rng := { s.rng.window cells with
          kat := true, retries := s.rng.retries + 1, stopped := true, testing := false } }))
    ∧ (s.rng.phase = 4 → s.rng.stopped = true →
        exec .oscillatorRestart s = .next (s.settle { s with rng := { s.rng with
          stopped := false, testing := true, restarts := satAdd 16 s.rng.restarts 1 } }))
    ∧ ((s.rng.phase ≠ 4 ∨ s.rng.stopped = false) → exec .oscillatorRestart s = .next (s.settle s))
    ∧ (∀ raw g, s.mayseed = true → s.rng.stopped = false → (s.rng.phase = 2 ∨ s.rng.phase = 3) →
        s.nextGen = some g → s.blockRequest g = none →
        exec (.conditionedBlock raw) s = .next (s.settle ((s.seedGen g (sha256 raw) []).rngSettle)))
    ∧ (∀ raw, (s.mayseed = false ∨ s.rng.stopped = true) → exec (.conditionedBlock raw) s = .next (s.settle s))
    ∧ (∀ g : Fin 260, (s.rng.getGen g.val).seeded = true → (s.rng.getGen g.val).background = false →
        let t := s.modGen g.val (fun x => { x with background := true })
        (65536 ≤ (s.rng.getGen g.val).calls → exec (.drbgReseedDue g) s = .next (s.settle t))
        ∧ ((s.rng.getGen g.val).calls < 65536 →
            exec (.drbgReseedDue g) s = .next (s.settle (t.advance ((s.rng.getGen g.val).since + 60000)))))
    ∧ (∀ g : Fin 260, (s.rng.getGen g.val).seeded = true → (s.rng.getGen g.val).queue.length < 3072 →
        exec (.queueRefill g) s = .next (s.settle
          (((s.genBytes g.val 1024).2.modGen g.val (fun x => { x with
            queue := x.queue ++ (s.genBytes g.val 1024).1 })).rngSettle)))
    ∧ (∀ g : Fin 260, ((s.rng.getGen g.val).seeded = false ∨ 3072 ≤ (s.rng.getGen g.val).queue.length) →
        exec (.queueRefill g) s = .next (s.settle s))

/-- Messages that wait for the source: a held request ends at its wait limit with the status of its wait, after a restart of the control
pair if one runs and the message is the pair's, and a call made for one request serves it, where a pause does not hold its completion. -/
def Obligations.RandomWaits : Prop :=
  ∀ (s : State) (id : Nat) (r : MsgRec), s.findMsg id = some r →
    (s.heldRequest r = true → s.endIsHeld r = false → exec (.rngWaitExpiry id) s = .next (s.settle
        ((s.advance r.deadline).randomFails r (s.waitStatus r.gen))))
    ∧ (s.heldRequest r = true ↔
        r.phase = .rngWait ∧ (s.genSeeded r.gen = false ∨ (r.wantsBlock = true ∧ s.rng.phase ≠ 3)))
    ∧ (∀ st, ∃ (x : MsgRec) (t u : State), x = { r with engine := 0xFF }
        ∧ t = (if r.op = .lcTransition then s.lcFail s.lc (lcTarget r.m) st else s)
        ∧ u = t.modMsg r.id (fun y => { y with engine := 0xFF })
        ∧ ((u.glb.ctrlRestart = false ∨ r.op.needsControl = false ∨ r.op = .lcTransition) →
            s.randomFails r st = u.failMsg x (x.withCounts (Final.plain st)))
        ∧ (u.glb.ctrlRestart = true → r.op.needsControl = true → r.op ≠ .lcTransition → s.randomFails r st =
            { u with sch := { u.sch with heldEnds := u.sch.heldEnds ++ [(r.id, .failed (Final.plain st))] } }))
    ∧ ((s.heldRequest r = false ∨ s.endIsHeld r = true) → exec (.rngWaitExpiry id) s = .next (s.settle s))
    ∧ (r.phase = .genCall → exec (.generateCallComplete id) s = .next (s.settle
        ((s.genBytes r.gen r.want).2.gotRandom id (s.genBytes r.gen r.want).1)))
    ∧ (r.phase ≠ .genCall → exec (.generateCallComplete id) s = .next (s.settle s))
    ∧ (∀ b : Bytes, r.op = .randomGenerate → s.holdsBack r = false → ∃ y : MsgRec, y = { r with
          random := r.random ++ b, phase := .ready, want := 0 } ∧
        s.gotRandom id b = (s.setMsg y).complete y (Final.good (r.random ++ b)) false)
    ∧ (∀ b : Bytes, (r.op ≠ .randomGenerate ∨ s.holdsBack r = true) →
        s.gotRandom id b = s.setMsg { r with random := r.random ++ b, phase := .ready, want := 0 })

/-! The vault -/

/-- A read of the vault for a key-cache miss, the batches of commits and their switch, and the restart of the controller. A read
or its one retry whose digests, tag and handle are right fills the lines, and the messages that wait for no other object go on, and the
operations of the internal world; a read that fails ends them with VAULT_INTEGRITY; the handle's other candidate page is read beside
it; a batch that does not read back is programmed again, and given up the third time. -/
def Obligations.VaultReadsAndCommits : Prop :=
  ∀ s : State,
    (∀ (h : BitVec 40) (o : Obj) (x : VaultRead), s.mounted = true →
      (s.sch.msgs.filter (fun r => r.awaits h.toNat && !s.endIsHeld r) ≠ [] ∨ s.sch.internal.filter (fun y => y.awaits h.toNat) ≠ []) →
      s.findObj h.toNat = some o → s.vlt.badHandles.contains h.toNat = false →
      ((s.readPage o x.first).isSome = true ∨ (s.readPage o x.retry).isSome = true) → ∀ t : State,
      t = ((s.otherRead o x).cacheNodes o.page).kcTouch o →
        exec (.vaultReadComplete h x) s = .next (s.settle { t with sch := { t.sch with
          msgs := t.sch.msgs.map (fun r => r.keyRead h.toNat)
          internal := t.sch.internal.map (fun y => if y.awaits h.toNat then { y with reading := false } else y) } }))
    ∧ (∀ (o : Obj) (x : VaultRead), ∃ p, p = s.otherPage o
        ∧ ((s.pageSound p x.other = true ∨ s.pageSound p x.otherRetry = true) → s.otherRead o x = s.cacheNodes p)
        ∧ (s.pageSound p x.other = false → s.pageSound p x.otherRetry = false →
            s.otherRead o x = s.integrityFailure p o.handle (s.pagesLost p x.otherRetry)))
    ∧ (∀ (r : MsgRec) (h : Nat), (r.phase = .vaultRead [h] → r.keyRead h = { r with phase := r.back })
        ∧ (∀ g, g ≠ h → r.phase = .vaultRead [h, g] → r.keyRead h = { r with phase := .vaultRead [g] }))
    ∧ (∀ (h : BitVec 40) x, s.sch.msgs.filter (fun r => r.awaits h.toNat && !s.endIsHeld r) = [] →
        s.sch.internal.filter (fun y => y.awaits h.toNat) = [] → exec (.vaultReadComplete h x) s = .next (s.settle s))
    ∧ (∀ (h : BitVec 40) (o : Obj) (x : VaultRead) (t u : State) lost, s.mounted = true → s.findObj h.toNat = some o →
        ((s.vlt.badHandles.contains h.toNat = true ∧ t = s ∧ lost = [])
          ∨ (s.vlt.badHandles.contains h.toNat = false ∧ s.readPage o x.first = none ∧ s.readPage o x.retry = none
            ∧ t = s.otherRead o x ∧ lost = s.pagesLost o.page x.retry)) →
        u = t.integrityFailure o.page h.toNat lost →
        (∀ r, s.sch.msgs.filter (fun r => r.awaits h.toNat && !s.endIsHeld r) = [r] →
          s.sch.internal.filter (fun y => y.awaits h.toNat) = [] → u.findMsg r.id = some r →
          exec (.vaultReadComplete h x) s = .next (s.settle (u.endOrHold r (.failed (Final.plain Status.vaultIntegrity)))))
        ∧ (∀ y, s.sch.msgs.filter (fun r => r.awaits h.toNat && !s.endIsHeld r) = [] →
          s.sch.internal.filter (fun y => y.awaits h.toNat) = [y] →
          exec (.vaultReadComplete h x) s = .next (s.settle (u.opUnread y))))
    ∧ (∀ (t : State) r f, (t.glb.ctrlRestart = false → t.endOrHold r (.failed f) = t.failMsg r (r.withCounts f)))
    ∧ (s.vlt.batch ≠ [] → s.vlt.flight.length < 2 → s.vlt.throttled = false →
        exec .batchClose s = .next (s.settle { s with vlt := { s.vlt with
          flight := s.vlt.flight ++ [s.vlt.batch], batch := [], closeDue := false } }))
    ∧ (s.vlt.batch ≠ [] → (2 ≤ s.vlt.flight.length ∨ s.vlt.throttled = true) →
        exec .batchClose s = .next (s.settle { s with vlt := { s.vlt with closeDue := true } }))
    ∧ (s.vlt.batch = [] → exec .batchClose s = .next (s.settle s))
    ∧ (∀ batch rest failed, s.vlt.flight = batch :: rest →
        exec (.commitSwitch { readBack := true, failed := failed }) s = .next (s.settle
          (State.finishBatch { s with vlt := { s.vlt with flight := rest, tries := 0 } } failed batch).closeWaiting)
        ∧ (∀ t : State, t = s.spoilBatch batch failed →
          (t.vlt.tries < 2 → exec (.commitSwitch { readBack := false, failed := failed }) s = .next (s.settle { t with vlt := { t.vlt with
            tries := t.vlt.tries + 1, retried := satAdd 16 t.vlt.retried 1 } }))
          ∧ (2 ≤ t.vlt.tries → exec (.commitSwitch { readBack := false, failed := failed }) s = .next (s.settle
            (batch.foldl (State.failCommit · Status.vaultCommitFailed ·) { t with vlt := { t.vlt with
              flight := rest, tries := 0, failedBatches := satAdd 16 t.vlt.failedBatches 1 } }).closeWaiting))))
    ∧ (∀ (t : State) batch failed, t.finishBatch failed batch =
        ((batch.foldl State.finishCommit (t.switchBatch batch failed)).countCommits batch.length).checkEndurance)
    ∧ (∀ b failed, s.vlt.flight = [] → exec (.commitSwitch { readBack := b, failed := failed }) s = .next (s.settle s))
    ∧ ((s.mounted = true ∨ s.vlt.state = 1) → ∃ (n : Nat) (t : State),
        n = (s.vlt.flight ++ [s.vlt.batch]).countP (fun b => !b.isEmpty)
        ∧ t = (s.failCommits Status.vaultCommitFailed).abortPostings
        ∧ exec .vaultControllerRestart s = .next (s.settle { t with vlt := { t.vlt with
            state := 1, failedBatches := satAdd 16 t.vlt.failedBatches n } }))

/-- What a mount finds, garbage collection, erased blocks, an uncorrectable QDR error and the end of a scrub. A mount takes the
current BBRAM root record, tests the root node with the vault header, the nodes of levels 3 to 6 and the commit records, and names
the first that fails. One flipped bit of a QDR block is corrected and counted; more lose what the block held. -/
def Obligations.VaultMountAndQdr : Prop :=
  ∀ s : State, ∀ env : Bytes, env = s.isl.envelope.getD [] →
    (∀ (r : RootRec) (x : MountRead), s.vlt.state = 1 → s.mountRoot env = some r →
      (x.root = .unreadable → exec (.vaultMount x) s = .next (s.settle (s.mountFails 6)))
      ∧ (x.root ≠ .unreadable → s.rootOk env r x.root = false →
          exec (.vaultMount x) s = .next (s.settle (s.mountFails 4)))
      ∧ (x.root ≠ .unreadable → s.rootOk env r x.root = true → s.nodesOk x.nodes = false →
          exec (.vaultMount x) s = .next (s.settle (s.mountFails 6)))
      ∧ (x.root ≠ .unreadable → s.rootOk env r x.root = true → s.nodesOk x.nodes = true →
          s.recordsOk env r x.records = false → exec (.vaultMount x) s = .next (s.settle (s.mountFails 5)))
      ∧ (x.root ≠ .unreadable → s.rootOk env r x.root = true → s.nodesOk x.nodes = true →
          s.recordsOk env r x.records = true →
          (s.isl.rootSlots.isEmpty = false →
            exec (.vaultMount x) s = .next (s.settle (s.mountDone s.vlt.log.length)))
          ∧ (s.isl.rootSlots.isEmpty = true → exec (.vaultMount x) s = .next (s.settle
            (State.mountDone { s with isl := { s.isl with rootSlots := [r] } } s.vlt.log.length)))))
    ∧ (∀ x, s.vlt.state = 1 → s.mountRoot env = none → exec (.vaultMount x) s = .next (s.settle (s.mountFails 7)))
    ∧ (s.vlt.diaExit = false → s.mountRoot env = s.bbramRoot)
    ∧ (∀ x, s.vlt.state ≠ 1 → exec (.vaultMount x) s = .next (s.settle s))
    ∧ (∀ n, s.vlt.fresh = false → s.vlt.roCause = 0 → s.endurance = 0 →
        (s.mountDone n).vlt.state = 2 ∧ (s.mountDone n).vlt.rolled = min n 4095)
    ∧ (∀ l, s.pwr.booted = true → s.mounted = true → ∃ t : State, t = (s.reclaim s.vlt.passBlocks l).checkEndurance
        ∧ ((t.vlt.closeDue = true ∨ t.vlt.throttled = true) →
            exec (.garbageCollection l) s = .next (s.settle t.forceClose))
        ∧ (t.vlt.closeDue = false → t.vlt.throttled = false → exec (.garbageCollection l) s = .next (s.settle t)))
    ∧ (∀ l, s.mounted = false → exec (.garbageCollection l) s = .next (s.settle s))
    ∧ (∀ n, s.pwr.booted = true →
        exec (.supersededErase n) s = .next (s.settle (s.reclaim (s.vlt.deadBlocks.take n) []).checkEndurance))
    ∧ (∀ g flips, s.pwr.booted = true → correctable flips = true →
        exec (.qdrError { region := g, flips := flips }) s = .next (s.settle { s with
          vlt := { s.vlt with qdrCorr := satAdd 16 s.vlt.qdrCorr 1 }
          hlt := { s.hlt with qdrNow := s.hlt.qdrNow + 1 } }))
    ∧ (∀ flips, s.pwr.booted = true → correctable flips = false →
        (s.vlt.qdrTimes.filter (fun t => s.opTime < t + 1000)).length < 16 → ∀ t : State, t = { s with vlt := { s.vlt with
          qdrUncorr := satAdd 16 s.vlt.qdrUncorr 1
          qdrTimes := s.vlt.qdrTimes.filter (fun t => s.opTime < t + 1000) ++ [s.opTime] } } →
        (∀ l i, exec (.qdrError { region := (.treeNode l i), flips := flips }) s = .next (s.settle { t with vlt := { t.vlt with
            cache := t.vlt.cache.filter (fun k => k != (l, i)) } }))
        ∧ (∀ h : BitVec 40, exec (.qdrError { region := (.keyCache h), flips := flips }) s = .next (s.settle { t with vlt := { t.vlt with
            kc := t.vlt.kc.filter (fun k => k.handle != h.toNat) } }))
        ∧ exec (.qdrError { region := .derailleur, flips := flips }) s = .next (s.settle t)
        ∧ (∀ i, (t.sch.templates[i]?).any (·.building) = false →
          exec (.qdrError { region := (.template i), flips := flips }) s = .next (s.settle { t with sch := { t.sch with
            templates := t.sch.templates.eraseIdx i } }))
        ∧ (∀ i, (t.sch.templates[i]?).any (·.building) = true →
          exec (.qdrError { region := (.template i), flips := flips }) s = .next (s.settle t))
        ∧ (∀ (d : Fin 1024) (c : Fin 64), exec (.qdrError { region := (.chainHead d c), flips := flips }) s =
            .next (s.settle ((t.stopOwner (.chain d.val c.val)).modChain d.val c.val Chain.resume)))
        ∧ (∀ id r, t.findMsg id = some r → exec (.qdrError { region := (.message id), flips := flips }) s = .next (s.settle (t.loseMsg r))))
    ∧ exec .qdrScrubComplete s = .next (s.settle { s with vlt := { s.vlt with scrubbing := false } })

/-- The times of a tandem, of a component session, of the open batch of the recorder (1 s after its first record) and of a freeze
(10 s after it began, with vector 3) pass. -/
def Obligations.Expiries : Prop :=
  ∀ s : State,
    (∀ (tid : BitVec 32) (t : Tandem), s.dom.tandems.find? (fun t => t.tid == tid.toNat) = some t →
      exec (.tandemExpiry tid) s = .next (s.settle
        ((s.advance t.expires).discardTandems (fun x => x.expires ≤ (s.advance t.expires).opTime))))
    ∧ (∀ tid : BitVec 32, s.dom.tandems.find? (fun t => t.tid == tid.toNat) = none →
        exec (.tandemExpiry tid) s = .next (s.settle s))
    ∧ (∀ (n : Fin 256) c, (s.getInst n.val).compSession = some c →
        exec (.componentSessionExpiry n) s = .next (s.settle ((s.advance c.until_).endSession n.val)))
    ∧ (∀ n : Fin 256, (s.getInst n.val).compSession = none →
        exec (.componentSessionExpiry n) s = .next (s.settle s))
    ∧ (∀ r l, s.pwr.booted = true → s.evr.openBatch = r :: l → s.evr.state = 1 →
        exec .recorderBatchClose s = .next (s.settle (s.advance (r.time + 1000)).closeBatch))
    ∧ (s.evr.openBatch = [] → exec .recorderBatchClose s = .next (s.settle s))
    ∧ (∀ t, s.pwr.booted = true → s.evr.freezeEnd = some t →
        exec .freezeExpiry s = .next (s.settle (((s.advance t).endFreeze 3).raise 0 3)))
    ∧ (s.evr.freezeEnd = none → exec .freezeExpiry s = .next (s.settle s))

/-! Tamper -/

/-- A monitor that is sampled alarms, reads normal or its detectors disagree; an incident ends when its clear time has passed, with the
recovery that a response of class SHED or higher owes, but one of class SPEND never does (that its monitors are normal then is the
model's choice, log 78). -/
def Obligations.TamperEvents : Prop :=
  ∀ s : State,
    (∀ a : Alarm, s.samples a.monitor.val = true → (a.atlas = true ∨ a.luna = true) →
      exec (.tamperAlarm a) s = .next (s.settle (((s.pass a.after).alarmActs a).cellGone a.monitor.val)))
    ∧ (∀ a : Alarm, s.samples a.monitor.val = true → a.atlas = false → a.luna = false →
        exec (.tamperAlarm a) s = .next (s.settle ((s.pass a.after).readsNormal a.monitor.val)))
    ∧ (∀ a : Alarm, s.samples a.monitor.val = false → exec (.tamperAlarm a) s = .next (s.settle s))
    ∧ (∀ ms, (s.pwr.booted = true → s.pass ms = s.advance (s.opTime + ms))
        ∧ (s.pwr.booted = false → s.pass ms =
            { s with isl := { s.isl with tick := s.isl.tick + BitVec.ofNat 32 (edges ms) } }))
    ∧ (∀ m, (s.stillAlarms m = true → s.readsNormal m = s)
        ∧ (s.stillAlarms m = false → ∃ t : State, t = s.modMon m MonRec.normal
          ∧ ((s.tmp.open_ = true ∧ s.tmp.incMons.contains m = true) →
              s.readsNormal m = { t with tmp := { t.tmp with clearFrom := s.opTime } })
          ∧ ((s.tmp.open_ = false ∨ s.tmp.incMons.contains m = false) → s.readsNormal m = t)))
    ∧ (∀ (m : Fin 128) b, s.samples m.val = true → ∃ t : State,
        t = s.modMon m.val (fun r => { r with disagree := satAdd 8 r.disagree 1 })
        ∧ exec (.monitorDisagreement m b) s = .next (s.settle
          ({ t with tmp := { t.tmp with disagree := satAdd 16 t.tmp.disagree 1 } }.noteAlarm m.val 0 (if b then 1 else 2)
            (if t.tmp.open_ then 1 else 0))))
    ∧ (s.tmp.open_ = true → s.pwr.inputOn = true → s.tmp.cls < 4 → s.tmp.incMons.any s.stillAlarms = false →
        ∃ (v t u : State), v = (if s.pwr.booted then s.advance (s.tmp.clearFrom + clearTime s.tmp.cls) else s)
          ∧ t = v.tmp.incMons.foldl (fun t m => t.modMon m MonRec.normal) v
          ∧ u = State.raise { t with tmp := { t.tmp with open_ := false, incMons := [] } } 0 2
          ∧ (u.tmp.owed = true → exec .incidentEnd s = .next (s.settle { u with tmp := { u.tmp with state := 3 } }))
          ∧ (u.tmp.owed = false → exec .incidentEnd s = .next (s.settle (State.endResponse { u with tmp := { u.tmp with
              recomNeeded := u.tmp.recomNeeded || (u.tmp.zeroized && u.lc == 3 && !u.bbramValid), zeroized := false } }))))
    ∧ ((s.tmp.open_ = false ∨ s.pwr.inputOn = false ∨ 4 ≤ s.tmp.cls ∨ s.tmp.incMons.any s.stillAlarms = true) →
        exec .incidentEnd s = .next (s.settle s))
    ∧ (∀ n, clearTime n = if n ≤ 1 then 10 else 100)
/-! Messages -/

/-- A message that its ring does not hold whole is not fetched: the row leaves the state as it is. One that is refused at steps
1 to 3 or at step 4 takes its cells and ends with its refusal, and nothing else of it happens. CHAL and RESP on the UART come
from no ring, and are answered there (R405). -/
def Obligations.RefusedMessages : Prop :=
  ∀ (s : State) (o : Op) (m : Msg),
    (s.fetchable m = false → (m.uart = false ∨ o ≠ .debugAuthorize) → exec (messageRow o m) s = .next (s.settle s))
    ∧ (m.uart = true → exec (.debugAuthorize m) s = .next (s.settle (s.uartCommand m)))
    ∧ (m.uart = true → s.pwr.booted = true → s.pwr.holdup = false → s.lcs.busy = false → debugMode m = 1 → s.lc = 3 →
        ∃ (r : MsgRec) (t : State), r = s.newRec .debugAuthorize { m with cell := { m.cell with outCap := 128 } }
          ∧ t = { s with sch := { s.sch with nextId := s.sch.nextId + 1, msgs := s.sch.msgs ++ [r] } }
          ∧ exec (.debugAuthorize m) s = .next (s.settle (t.refuse r (Final.refuse Status.lcState 1))))
    ∧ (∀ (r : MsgRec) f b, r.m.uart = true → r.reply f = none →
        (s.complete r f b).uart = uartAnswer f.status ∧ (s.complete r f b).out = s.out)
    ∧ (∀ f, s.fetchable m = true → checkHeader m = some f →
        exec (messageRow o m) s = .next (s.settle ((s.take o m).refuse (s.newRec o m) f)))
    ∧ (s.fetchable m = true → checkHeader m = none → m.cell.opcode ≠ o.code →
        exec (messageRow o m) s = .next (s.settle
          ((s.take o m).refuse (s.newRec o m) (Final.plain Status.opcodeUnknown))))
    ∧ (s.fetchable m = true → checkHeader m = none → m.cell.opcode = o.code → o.isAdmin = true → m.instN ≠ 0 →
        exec (messageRow o m) s = .next (s.settle
          ((s.take o m).refuse (s.newRec o m) (Final.plain Status.adminOnly))))
    ∧ (∀ f, s.fetchable m = true → checkHeader m = none → checkOp o m = none →
        (s.take o m).check4 o m.instN = some f → f.status ≠ Status.instanceUnbound →
        exec (messageRow o m) s = .next (s.settle ((s.take o m).refuse4 (s.newRec o m) f)))

/-- Every message that passes steps 1 to 9 with no wait begins to execute, as the last of the admitted messages. A control-path
message whose draws are served acts, or first waits for the operations that the internal world makes for it, submitted at once;
with no engine left to make them it ends with BUSY_NO_ENGINE. One whose operations have ended acts as it would have at once. -/
def Obligations.MessagesExecute : Prop :=
  ∀ (s : State) (o : Op) (m : Msg) (u : State) (r : MsgRec),
    (s.admitted o m = some (u, r) →
      exec (messageRow o m) s = .next (s.settle (u.execute r)) ∧ u.findMsg r.id = some r
      ∧ (o ≠ .zrmRecord → r.op = o ∧ r.m = Msg.whole m ∧ r.phase = .ready))
    ∧ (s.acting o m = some (u, r) → exec (messageRow o m) s = .next (s.settle (u.actNow r)))
    ∧ (s.drawn o m = some (u, r) → u.workDone r = false → u.usableClusters ≠ [] →
        exec (messageRow o m) s = .next (s.settle (u.submit (.message r.id) (u.internalWork r))))
    ∧ (s.drawn o m = some (u, r) → u.workDone r = false → u.usableClusters = [] →
        exec (messageRow o m) s = .next (s.settle (u.failMsg r (Final.plain Status.busyNoEngine))))
    ∧ (∀ x, (s.beginRead x).drawnF 8 x.id = some (u, r) → u.workDone r = true →
        s.runControl x = (u.useServed (.message r.id)).actNow r)

/-- NOP completes with status OK; CANCEL ends the messages it names that may be cancelled and answers with their numbers, and
with no message to name is refused; a completion is written to the completion ring unless the ring is silenced, the message is a
transition whose instance is gone, or it came on the UART. -/
def Obligations.BasicMessages : Prop :=
  ∀ (s u : State) (m : Msg) (r : MsgRec),
    (s.admitted .nop m = some (u, r) → exec (.nop m) s = .next (s.settle (u.complete r (Final.good []) false)))
    ∧ (s.admitted .cancel m = some (u, r) → u.cancelTargets r ≠ [] →
        exec (.cancel m) s = .next (s.settle ((u.cancelAll (u.cancelTargets r)).complete r
          (Final.told (leBytes 4 ((u.cancelTargets r).length - ((u.cancelTargets r).filter u.notCancellable).length)
            ++ leBytes 4 ((u.cancelTargets r).filter u.notCancellable).length)) false)))
    ∧ (s.admitted .cancel m = some (u, r) → u.cancelTargets r = [] →
        exec (.cancel m) s = .next (s.settle (u.refuse r (Final.plain Status.tagNotFound))))
    ∧ (r.zrm = none → r.mute = false → r.m.uart = false → ((u.dropMsg r.id).getInst r.inst).rings.silenced = false →
      ∃ (a : BitVec 64) (c : Compl),
        .cell r.inst a c ∈ (u.complete r (Final.good []) false).out ∧ c.tag = r.m.cell.tag ∧ c.status = Status.ok
        ∧ c.detail = 0)

/-- FLOW_OPEN loads its keys and is installed when nothing holds it; FLOW_CLOSE closes its flow to later messages, cancels the
flow's messages and returns its entry, and ends once no other message of it is left; DIGEST_RESULT gives the kept result or says that
there is none, and with its flow gone ends ABORTED. A tamper response of class PAUSE holds the last two back, the flow closed already. -/
def Obligations.FlowMessages : Prop :=
  ∀ (s u : State) (m : Msg) (r : MsgRec),
    (∀ y, s.admitted .flowOpen m = some (u, r) → (u.loadKeys r).findMsg r.id = some y →
      ((u.loadKeys r).installable y = true →
        exec (.flowOpen m) s = .next (s.settle ((u.loadKeys r).installFlow y)))
      ∧ ((u.loadKeys r).installable y = false → exec (.flowOpen m) s = .next (s.settle (u.loadKeys r))))
    ∧ (∀ (w : State) (y : MsgRec), s.admitted .flowClose m = some (u, r) → u.holdsBack r = false →
        w = (u.beginClose r).closeFlow r → w.findMsg r.id = some y →
        (w.closeDone y = true → exec (.flowClose m) s = .next (s.settle (w.complete y (Final.good []) false)))
        ∧ (w.closeDone y = false → exec (.flowClose m) s = .next (s.settle w)))
    ∧ (r.op = .flowClose → u.holdsBack r = true → u.execute r = u.beginClose r)
    ∧ (r.op = .digestResult → u.holdsBack r = true → u.execute r = u)
    ∧ (u.closeFlow r).findFlow r.inst r.m.flowId = none
    ∧ (r.op = .digestResult → u.holdsBack r = false → u.findFlow r.inst r.m.flowId = none →
        u.execute r = u.abortMsg r)
    ∧ (∀ f b, s.admitted .digestResult m = some (u, r) → u.holdsBack r = false →
      u.findFlow r.inst r.m.flowId = some f → f.result = some b →
        exec (.digestResult m) s = .next (s.settle (u.complete r (Final.good b) false)))
    ∧ (∀ f, s.admitted .digestResult m = some (u, r) → u.holdsBack r = false →
      u.findFlow r.inst r.m.flowId = some f → f.result = none →
        exec (.digestResult m) s = .next (s.settle
          (u.complete r { Final.plain Status.digestNotReady with output := zeros f.resultLen } false)))

/-- Every cipher, digest, public-key and transaction message that is admitted counts the lines of its keys in the key cache,
and is ready for an engine when they are there, or else waits for the reads of the vault, issued together; a posting is ready at once; a record
is admitted as the message it stands for. -/
def Obligations.DataMessagesBecomeReady : Prop :=
  ∀ (s u : State) (o : Op) (m : Msg) (r : MsgRec), s.admitted o m = some (u, r) →
    let v := (u.useLine r.keyA).useLine r.keyB
    ((o ∈ [.ecbEncrypt, .ecbDecrypt, .cbcEncrypt, .cbcDecrypt, .cfbEncrypt, .cfbDecrypt, .ofbCrypt, .ctrCrypt,
        .xtsEncrypt, .xtsDecrypt, .gcmEncrypt, .gcmDecrypt, .ccmEncrypt, .ccmDecrypt, .dataWrap, .dataUnwrap,
        .cmacGenerate, .cmacVerify, .iso9797Generate, .iso9797Verify, .sha224, .sha256, .sha384, .sha512, .sha3_224,
        .sha3_256, .sha3_384, .sha3_512, .shake128, .shake256, .hmacGenerate, .hmacVerify, .rsaSign, .rsaVerify,
        .rsaEncrypt, .rsaDecrypt, .ecdsaSign, .ecdsaVerify, .ecdh, .x25519, .ed25519Sign, .ed25519Verify,
        .mlkemEncaps, .mlkemDecaps, .mldsaSign, .mldsaVerify, .pinTranslate, .pinVerify, .pinReference,
        .dukptInitialKey, .dukptMac, .dukptCrypt, .keyBlockWrap, .keyBlockCheck,
        .keyBlockTranslate] ∨ (o = .zrmRecord ∧ r.op.isData = true)) →
      (v.keysMissing r = [] → exec (messageRow o m) s =
        .next (s.settle (v.modMsg r.id (fun x => { x with phase := .ready }))))
      ∧ (v.keysMissing r ≠ [] → exec (messageRow o m) s =
        .next (s.settle (v.modMsg r.id (fun x => { x with phase := .vaultRead (v.keysMissing r), back := .ready })))))
    ∧ (o = .ledgerPost → exec (.ledgerPost m) s = .next (s.settle u))

/-- RANDOM_GENERATE gives the bytes of its instance's queue, or waits for a call or for a seed; RANDOM_RESEED and a RANDOM_GENERATE
with prediction resistance wait for a conditioned block of their own; with the source failed both end with RNG_FAULT. A tamper
response of class PAUSE holds both back. -/
def Obligations.RandomMessages : Prop :=
  ∀ (s u : State) (m : Msg) (r : MsgRec),
    (s.admitted .randomGenerate m = some (u, r) → u.holdsBack r = false →
      (u.rng.phase = 5 → exec (.randomGenerate m) s = .next (s.settle (u.randomFails r Status.rngFault)))
      ∧ (u.rng.phase ≠ 5 → r.random.length ≠ r.m.field 40 4 →
        (r.m.field 44 1 = 1 → exec (.randomGenerate m) s = .next (s.settle
          (u.modMsg r.id (fun x => { x with phase := .rngWait, gen := r.inst, want := r.m.field 40 4 }))))
        ∧ (r.m.field 44 1 ≠ 1 → u.genSeeded r.inst = false → exec (.randomGenerate m) s = .next (s.settle
          (u.modMsg r.id (fun x => { x with phase := .rngWait, gen := r.inst, want := r.m.field 40 4 }))))
        ∧ (∀ b t, r.m.field 44 1 ≠ 1 → u.genSeeded r.inst = true → u.takeQueue r.inst (r.m.field 40 4) = some (b, t) →
          exec (.randomGenerate m) s = .next (s.settle (t.complete r (Final.good b) false)))
        ∧ (r.m.field 44 1 ≠ 1 → u.genSeeded r.inst = true → u.takeQueue r.inst (r.m.field 40 4) = none →
          exec (.randomGenerate m) s = .next (s.settle
            (u.modMsg r.id (fun x => { x with phase := .genCall, gen := r.inst, want := r.m.field 40 4 }))))))
    ∧ (s.admitted .randomReseed m = some (u, r) → u.holdsBack r = false →
      (u.rng.phase = 5 → exec (.randomReseed m) s = .next (s.settle (u.randomFails r Status.rngFault)))
      ∧ (u.rng.phase ≠ 5 → exec (.randomReseed m) s = .next (s.settle
        (u.modMsg r.id (fun x => { x with phase := .rngWait, gen := r.inst, want := r.m.field 40 4 })))))
    ∧ ((r.op = .randomGenerate ∨ r.op = .randomReseed) → u.holdsBack r = true → u.execute r = u)

/-- The frame of messages: the intake of a message, its keys, its acceptance for a commit, its refusal and its end, well or not,
leave everything as it is but the messages themselves, flows, the rings and counters of instances, engines, the recorder, what
was sent to the host, and of the vault the key cache, the commits that wait and the reserved numbers. -/
def Obligations.EndsKeepTheRest : Prop :=
  ∀ (s : State) (o : Op) (m : Msg) (r : MsgRec) (f : Final) (b : Bool) (i : Option Nat) (l : List Change),
    s.keeps (s.take o m) ∧ s.keeps (s.loadKeys r) ∧ s.keeps (s.accept i l f) ∧ s.keeps (s.complete r f b)
    ∧ s.keeps (s.refuse r f) ∧ s.keeps (s.endAct r f) ∧ s.keeps (s.failMsg r f)

/-- R81: a refusal with a status from 0x0101 to 0x0131 (one that no reply of a record takes up, of a message of a ring) is a violation of the kind AMP
of its instance, with the address of its first cell, and no ring stops for it. -/
def Obligations.RefusalsRecorded : Prop :=
  ∀ (s : State) (r : MsgRec) (f : Final), 0x0101 ≤ f.status.toNat → f.status.toNat ≤ 0x0131 →
    r.reply f = none → r.m.uart = false →
    s.refuse r f = (s.complete r f true).violation r.inst violAmp r.addr
    ∧ ∀ n, ((s.refuse r f).getInst n).rings.en = (s.getInst n).rings.en
        ∧ ((s.refuse r f).getInst n).rings.ringFault = (s.getInst n).rings.ringFault
        ∧ ((s.refuse r f).getInst n).rings.tail = (s.getInst n).rings.tail

/-- R117: a message that needs an engine, a FLOW_OPEN among them, and that would pass step 9 with some cluster enabled and not
fenced, is refused with BUSY_NO_ENGINE when there is none; with one it never is; and whether clusters are parked or freewheel
does not count. -/
def Obligations.NoEngineLeft : Prop :=
  ∀ (s : State) (r : MsgRec),
    (∀ e v : BitVec 16, (admitKind r).isSome = true → r.m.uart = false → s.usableClusters = [] →
      State.check9 { s with glb := { s.glb with enabled := e, fenced := v } } r = none →
        s.check9 r = some (Final.plain Status.busyNoEngine))
    ∧ (s.usableClusters ≠ [] → ∀ f, s.check9 r = some f → f.status ≠ Status.busyNoEngine)
    ∧ (∀ p c, State.check9 { s with pwr := p, clu := c } r = s.check9 r)
    ∧ (∀ c, c ∈ s.usableClusters ↔ c < 16 ∧ s.glb.enabled.getLsbD c = true ∧ s.glb.fenced.getLsbD c = false)
    ∧ (∀ o, r.op = .flowOpen → flowOp r.m = some o → admitKind r = o.kind)
/-! Control-path messages -/

/-- The readers answer what they read, and nothing else is changed than by the end of a message (EndsKeepTheRest): OBJECT_INFO,
PUBLIC_KEY_GET and LABEL_LOOKUP answer what they find; VAULT_USAGE, IDENTITY_GET, DOMAIN_INFO, HEALTH_READ and RECORDER_READ
answer always, RECORDER_READ with the batches that were held as it began (R453). -/
def Obligations.ReadersAnswer : Prop :=
  ∀ (s v : State) (m : Msg) (x : MsgRec),
    (∀ o, s.acting .objectInfo m = some (v, x) → v.readObj x.m.keyA = .inr o →
      exec (.objectInfo m) s = .next (s.settle (v.endAct x (Final.good o.info))))
    ∧ (∀ o, s.acting .publicKeyGet m = some (v, x) → v.readObj x.m.keyA = .inr o →
        exec (.publicKeyGet m) s = .next (s.settle (v.endAct x (Final.good o.publicKey))))
    ∧ (s.acting .vaultUsage m = some (v, x) → exec (.vaultUsage m) s = .next (s.settle (v.endAct x (Final.good
        (leBytes 8 (v.domainObjs (v.dom' x)).length ++ leBytes 8 (v.domainUnits (v.dom' x)) ++ leBytes 8 v.vaultUnits
          ++ leBytes 8 (2 ^ 33))))))
    ∧ (s.acting .identityGet m = some (v, x) → exec (.identityGet m) s = .next (s.settle (v.endAct x (Final.good
        (v.identDigest ++ leBytes 4 v.certChain.length ++ zeros 12 ++ v.idMldsa.1 ++ v.idPoint ++ v.certChain)))))
    ∧ (s.acting .domainInfo m = some (v, x) →
        exec (.domainInfo m) s = .next (s.settle (v.endAct x (Final.good (v.domainInfo (v.infoDomain x))))))
    ∧ (s.acting .healthRead m = some (v, x) → exec (.healthRead m) s = .next (s.settle (v.endAct x (Final.good v.healthBytes))))
    ∧ (∀ h, s.acting .labelLookup m = some (v, x) → v.lookupLabel (v.dom' x) x.m.input = some h →
        exec (.labelLookup m) s = .next (s.settle (v.endAct x (Final.good
          (leBytes 5 h ++ ((v.findObj h).map Obj.check).getD (zeros 3))))))
    ∧ (s.acting .recorderRead m = some (v, x) →
        exec (.recorderRead m) s = .next (s.settle (v.endAct x
          (v.recorderRead (x.read.getD (v.recorderTake x.m)) (recorderSigned x.m) x.random))))
    ∧ (∀ (u : State) (r y : MsgRec), r.op = .recorderRead → r.read = none → u.findMsg r.id = some r →
        (u.beginRead r).findMsg r.id = some y → y.read = some (u.recorderTake r.m))

/-- Objects, labels and domains are changed by a commit alone: the message is accepted with the changes it makes, and its
completion follows the switch of its batch. -/
def Obligations.CommitsAccepted : Prop :=
  ∀ (s v : State) (m : Msg) (x : MsgRec),
    let commit (l : List Change) : Host.Outcome State Fault Refusal := .next (s.settle (v.accept (some x.id) l (Final.good [])))
    (s.acting .objectDelete m = some (v, x) → exec (.objectDelete m) s = commit [.delete x.m.keyA (x.m.field 40 4)])
    ∧ (s.acting .objectRestrict m = some (v, x) →
        exec (.objectRestrict m) s = commit [.restrict x.m.keyA (x.m.field 40 4) x.m.input])
    ∧ (s.acting .labelSet m = some (v, x) → exec (.labelSet m) s = commit
        [.label (v.dom' x) x.m.input (some x.m.keyA) x.inst (x.m.field 40 1 == 1)])
    ∧ (s.acting .labelDelete m = some (v, x) → exec (.labelDelete m) s = commit [.label (v.dom' x) x.m.input none x.inst true])
    ∧ (s.acting .domainPurge m = some (v, x) → exec (.domainPurge m) s = commit [.purge (v.dom' x)])
    ∧ (s.acting .domainCreate m = some (v, x) → exec (.domainCreate m) s =
        commit [.domPut (x.m.field 40 2) { DomRec.reset with roster := parseRoster x.m.input }])
    ∧ (s.acting .domainDelete m = some (v, x) → exec (.domainDelete m) s = commit [.domDelete (x.m.field 40 2)])
    ∧ (s.acting .domainQuota m = some (v, x) → x.m.field 40 2 ≠ 0 → exec (.domainQuota m) s =
        commit [.quota (x.m.field 40 2) (x.m.field 48 8) (x.m.field 56 2)])
    ∧ (s.acting .domainQuota m = some (v, x) → x.m.field 40 2 = 0 → exec (.domainQuota m) s = .next (s.settle
        ((v.setDomRec 0 { v.dom.rec0 with unitQuota := x.m.field 48 8, flowLimit := x.m.field 56 2 }).endAct x
          (Final.good []))))
    ∧ (s.acting .policySet m = some (v, x) → v.dom' x ≠ 0 → exec (.policySet m) s =
        commit [.policy (v.dom' x) (BitVec.ofNat 32 (leAt x.m.input 0 4)) (byteAt x.m.input 4) (x.m.input.drop 64)])
    ∧ (s.acting .policySet m = some (v, x) → v.dom' x = 0 → (v.setPolicy0 x.m.input).1.status = Status.ok →
        exec (.policySet m) s = .next (s.settle
          (((v.setPolicy0 x.m.input).2.domainRecord .policySet 0 x.inst).endAct x (v.setPolicy0 x.m.input).1)))
    ∧ (s.acting .rosterSet m = some (v, x) → v.dom' x ≠ 0 →
        exec (.rosterSet m) s = commit [.roster (v.dom' x) (parseRoster x.m.input)])
    ∧ (s.acting .rosterSet m = some (v, x) → v.dom' x = 0 → (v.prfWrite prfRoster).1 = true → ∃ t : State,
        t = { (v.prfWrite prfRoster).2 with prf := { (v.prfWrite prfRoster).2.prf with roster0 := parseRoster x.m.input } }
        ∧ exec (.rosterSet m) s = .next (s.settle (((t.discardTandems (fun y => y.domain == 0)).domainRecord .rosterSet 0
            x.inst).endAct x (Final.good []))))

/-- Keys: a generation, an update message, the receive key, components, an export and a restore. -/
def Obligations.KeyManagement : Prop :=
  ∀ (s v : State) (m : Msg) (x : MsgRec),
    (s.admitted .keyGenerate m = some (v, x) → x.makesPair = true →
      (v.keyGenFault 259 = true → v.holdsBack x = false →
        exec (.keyGenerate m) s = .next (s.settle (v.randomFails x Status.rngFault)))
      ∧ (v.keyGenFault 259 = false ∨ v.holdsBack x = true → exec (.keyGenerate m) s = .next (s.settle v)))
    ∧ (s.acting .keyGenerate m = some (v, x) → x.attrAlg / 256 ≠ 4 → x.attrAlg / 256 ≠ 2 →
        exec (.keyGenerate m) s = .next (s.settle (v.accept (some x.id)
          [.create (attrObj x.m.input (x.reserved.getD 0) x.random false 1 v.seconds)] (Final.good []))))
    ∧ (s.acting .keyGenerate m = some (v, x) → x.attrAlg / 256 = 2 →
        let t := redrawF x.random.length 64 v x.random
        exec (.keyGenerate m) s = .next (s.settle (t.2.accept (some x.id)
          [.create (attrObj x.m.input (x.reserved.getD 0) t.1 false 1 v.seconds)] (Final.good []))))
    ∧ (s.acting .keyUpdate m = some (v, x) → ∃ (w t : State) (o : Obj), w = v.mendAuth (v.dom' x) ∧
        exec (.keyUpdate m) s = .next (s.settle (t.accept (some x.id)
          [if byteAt x.m.input 7 = 1 then .create o else .replace o (leAt x.m.input 72 4)] (Final.good [])))
        ∧ o = attrObj (slice x.m.input 80 72) (leAt x.m.input 64 5)
            (if byteAt x.m.input 7 = 3 then [] else (w.kumMaterial (v.dom' x) x.m.input).getD []) (w.kumPair x.m.input) 2
            w.seconds
        ∧ t.prf.kumCounters =
            assign (w.prfWrite (prfKum (v.dom' x))).2.prf.kumCounters (v.dom' x) (leAt x.m.input 8 8))
    ∧ (x.op = .receiveKeyGet →
        let b := [0x44, 0x52, 0x4B, 0x31] ++ leBytes 2 (v.dom' x) ++ zeros 2 ++ leBytes 4 (v.epoch (v.dom' x)) ++ zeros 4
          ++ leBytes 8 (v.kumCounter (v.dom' x)) ++ v.identDigest ++ (v.drk (v.dom' x)).1
        v.actNow x = v.endAct x (Final.good (b ++ v.idSign b x.random)))
    ∧ (s.acting .receiveKeyGet m = some (v, x) →
        let b := [0x44, 0x52, 0x4B, 0x31] ++ leBytes 2 (v.dom' x) ++ zeros 2 ++ leBytes 4 (v.epoch (v.dom' x)) ++ zeros 4
          ++ leBytes 8 (v.kumCounter (v.dom' x)) ++ v.identDigest ++ (v.drk (v.dom' x)).1
        exec (.receiveKeyGet m) s = .next (s.settle (v.endAct x (Final.good (b ++ v.idSign b x.random)))))
    ∧ (s.acting .keyComponent m = some (v, x) → x.m.field 44 1 = 1 →
        exec (.keyComponent m) s = .next (s.settle ((v.modInst x.inst (fun i => { i with
          compSession := some { object := x.m.field 40 4, parts := x.m.field 45 1, attr := x.m.input.take 72, comps := [x.m.input.drop 72],
                                   until_ := v.opTime + 120000 } })).endAct x
          (Final.good (zeros 5 ++ checkValue (BitVec.ofNat 16 x.attrAlg) (x.m.input.drop 72) [])))))
    ∧ (∀ c : CompSession, s.acting .keyComponent m = some (v, x) → x.m.field 44 1 ≠ 1 → v.sessionFor x = some c →
        (x.m.field 44 1 ≠ c.parts →
          exec (.keyComponent m) s = .next (s.settle ((v.modInst x.inst (fun i => { i with
            compSession := some { c with comps := c.comps ++ [x.m.input] } })).endAct x
            (Final.good (zeros 5 ++ checkValue (BitVec.ofNat 16 (leAt c.attr 0 2)) x.m.input [])))))
        ∧ (∀ key, x.m.field 44 1 = c.parts →
          key = (c.comps ++ [x.m.input]).foldl xorB (zeros ((fixedLen (leAt c.attr 0 2)).getD 0)) →
          (leAt c.attr 0 2 / 256 = 2 → tdeaDistinct key = false →
            exec (.keyComponent m) s = .next (s.settle
              ((v.endSession x.inst).endAct x (Final.plain Status.keyAlgorithm))))
          ∧ ((leAt c.attr 0 2 / 256 ≠ 2 ∨ tdeaDistinct key = true) →
          (checkValue (BitVec.ofNat 16 (leAt c.attr 0 2)) key [] ≠ attrKcv c.attr →
            exec (.keyComponent m) s = .next (s.settle
              ((v.endSession x.inst).endAct x (Final.plain Status.keyCheckMismatch))))
          ∧ (checkValue (BitVec.ofNat 16 (leAt c.attr 0 2)) key [] = attrKcv c.attr →
            exec (.keyComponent m) s = .next (s.settle ((v.endSession x.inst).accept (some x.id)
              [.create (attrObj c.attr (x.reserved.getD 0) key false 4 v.seconds)] (Final.good [])))))))
    ∧ (∀ k, s.acting .keyExport m = some (v, x) → v.readObj x.m.keyB = .inr k →
        (v.exportable (v.dom' x) (exportFirst x.m) (exportCount x.m)).any (fun o => v.vlt.badHandles.contains o.handle)
          = false →
        ∃ head body : Bytes, exec (.keyExport m) s = .next (s.settle (v.endAct x (Final.good
            (head ++ body ++ v.idSign (head ++ body) (x.random.drop 44)))))
          ∧ body = (gcmSeal (bodyKey (kemEncaps mlkem1024 k.publicKey (slice x.random 12 32)).2 (exportFirst x.m)
                (exportCount x.m) v.seconds) (x.random.take 12) head
                ((v.exportable (v.dom' x) (exportFirst x.m) (exportCount x.m)).flatMap exportEntry)).1
              ++ (gcmSeal (bodyKey (kemEncaps mlkem1024 k.publicKey (slice x.random 12 32)).2 (exportFirst x.m)
                (exportCount x.m) v.seconds) (x.random.take 12) head
                ((v.exportable (v.dom' x) (exportFirst x.m) (exportCount x.m)).flatMap exportEntry)).2)
    ∧ (∀ k st, s.acting .keyRestore m = some (v, x) → v.readObj x.m.keyA = .inr k →
        restoreEntries (v.dom' x) k x.m.input = .inl st → exec (.keyRestore m) s = .next (s.settle
          (v.endAct x { Final.plain st with output := restoreCounts x })))
    ∧ (∀ k l, s.acting .keyRestore m = some (v, x) → v.readObj x.m.keyA = .inr k →
        restoreEntries (v.dom' x) k x.m.input = .inr l →
        (l.drop x.done_ = [] → exec (.keyRestore m) s = .next (s.settle
          (v.endAct x { Final.good [] with output := restoreCounts x })))
        ∧ (l.drop x.done_ ≠ [] → ∃ (t : State) (free : List Obj),
          free = ((l.drop x.done_).take 32).filter (fun o => !v.numberTaken o.handle
            || (v.vlt.badHandles.contains o.handle && !o.internal))
          ∧ exec (.keyRestore m) s = .next (s.settle (t.accept (some x.id) (free.map .create) (Final.good [])))
          ∧ t.vlt.reserved = v.vlt.reserved ++ free.map (·.handle)))

/-- Tandems: a challenge, for which a ninth in a domain gives up an older one; a signature; a status. -/
def Obligations.TandemMessages : Prop :=
  ∀ (s v : State) (m : Msg) (x : MsgRec),
    (s.acting .tandemBegin m = some (v, x) → (v.openTandems (v.dom' x)).length < 8 → ∃ (c : Bytes) (t : Tandem),
        c = challengeOf (v.dom' x) (x.m.field 40 1) v.dom.nextTid (v.opTime + 120000) x.random v.identDigest x.m.input
        ∧ t = { Tandem.reset with tid := v.dom.nextTid, domain := v.dom' x, act := x.m.field 40 1, digest := x.m.input
                                  challenge := c, expires := v.opTime + 120000 }
        ∧ exec (.tandemBegin m) s = .next (s.settle ({ v with dom := { v.dom with
            tandems := v.dom.tandems ++ [t], nextTid := (v.dom.nextTid + 1) % 2 ^ 32 } }.endAct x (Final.good c))))
    ∧ (∀ w, s.acting .tandemBegin m = some (v, x) → 8 ≤ (v.openTandems (v.dom' x)).length → v.victim (v.dom' x) = some w →
        ∃ (u : State) (c : Bytes) (t : Tandem), u = v.discardTandems (fun y => y.tid == w)
        ∧ c = challengeOf (v.dom' x) (x.m.field 40 1) u.dom.nextTid (u.opTime + 120000) x.random u.identDigest x.m.input
        ∧ t = { Tandem.reset with tid := u.dom.nextTid, domain := v.dom' x, act := x.m.field 40 1, digest := x.m.input
                                  challenge := c, expires := u.opTime + 120000 }
        ∧ exec (.tandemBegin m) s = .next (s.settle ({ u with dom := { u.dom with
            tandems := u.dom.tandems ++ [t], nextTid := (u.dom.nextTid + 1) % 2 ^ 32 } }.endAct x (Final.good c))))
    ∧ (∀ (u : State) (t : Tandem), s.acting .tandemSign m = some (v, x) →
        u = v.modTandem (leAt x.m.input 8 4) (fun t => t.accept (byteAt x.m.input 4)
          ((v.dom.tandems.map (·.doneAt)).foldl max 0 + 1)) →
        u.dom.tandems.find? (fun t => t.tid == leAt x.m.input 8 4) = some t →
        exec (.tandemSign m) s = .next (s.settle (u.endAct x (Final.good (t.status v.opTime)))))
    ∧ (∀ t : Tandem, s.acting .tandemStatus m = some (v, x) →
        (v.openTandems (v.dom' x)).find? (fun t => t.tid == x.m.field 40 4) = some t →
        exec (.tandemStatus m) s = .next (s.settle (v.endAct x (Final.good (t.status v.opTime)))))

/-- Ledger chains: opening, checkpoint, status, the last checkpoint again, and close, which in a read-only vault answers its checkpoint
and commits nothing (that the record stays is the model's choice, log 75). -/
def Obligations.LedgerMessages : Prop :=
  ∀ (s v : State) (m : Msg) (x : MsgRec),
    (s.acting .ledgerChainOpen m = some (v, x) → linkedPart x.m ≠ [] →
      v.linkOk (v.dom' x) (ledgerChain x.m) (linkedPart x.m) = false →
        exec (.ledgerChainOpen m) s = .next (s.settle (v.endAct x (Final.plain Status.verifyFailed))))
    ∧ (∀ o, s.acting .ledgerChainOpen m = some (v, x) →
      (linkedPart x.m = [] ∨ v.linkOk (v.dom' x) (ledgerChain x.m) (linkedPart x.m) = true) → v.readObj x.m.keyA = .inr o →
      let c := v.ledgerSeal (v.dom' x) (v.ledgerStart x) 0 o
        ((x.random.drop (if linkedPart x.m = [] then 32 else 0)).take (sealRandom o))
      exec (.ledgerChainOpen m) s = .next (s.settle (v.accept (some x.id) [.chain (v.dom' x) c]
        (Final.good (v.ledgerCheckpoint c.body c.sealVal (x.random.drop (x.random.length - 56)))))))
    ∧ (∀ c o, s.acting .ledgerCheckpoint m = some (v, x) → v.ledgerFind x = .inr c → v.sealKeyOf c = .inr o →
        let c' := v.ledgerSeal (v.dom' x) c 2 o (x.random.take (sealRandom o))
        exec (.ledgerCheckpoint m) s = .next (s.settle (v.accept (some x.id) [.chain (v.dom' x) c']
          (Final.good (v.ledgerCheckpoint c'.body c'.sealVal (x.random.drop (x.random.length - 56)))))))
    ∧ (∀ c, s.acting .ledgerStatus m = some (v, x) → v.ledgerFind x = .inr c →
        exec (.ledgerStatus m) s = .next (s.settle (v.endAct x (Final.good c.status))))
    ∧ (∀ c, s.acting .ledgerCheckpointGet m = some (v, x) → v.ledgerFind x = .inr c →
        exec (.ledgerCheckpointGet m) s = .next (s.settle (v.endAct x
          (Final.good (v.ledgerCheckpoint c.body c.sealVal x.random)))))
    ∧ (∀ c o, s.acting .ledgerChainClose m = some (v, x) → v.vlt.state ≠ 3 → v.ledgerFind x = .inr c → v.closeKey c = some o →
        let c' := v.ledgerSeal (v.dom' x) c 4 o (x.random.take (sealRandom o))
        exec (.ledgerChainClose m) s = .next (s.settle (v.accept (some x.id) [.chainClose (v.dom' x) c.num]
          (Final.good (v.ledgerCheckpoint c'.body c'.sealVal (x.random.drop (x.random.length - 56)))))))
    ∧ (∀ c, s.acting .ledgerChainClose m = some (v, x) → v.vlt.state = 3 → v.ledgerFind x = .inr c → v.closeKey c = none →
        let c' := c.checkpointed (v.ledgerBody (v.dom' x) c 4 none) []
        exec (.ledgerChainClose m) s = .next (s.settle (v.endAct x
          (Final.good (v.ledgerCheckpoint c'.body c'.sealVal (x.random.drop (x.random.length - 56)))))))
    ∧ (∀ c, v.vlt.state = 3 → v.closeKey c = none)
    ∧ (∀ c, s.acting .ledgerChainClose m = some (v, x) → v.vlt.state ≠ 3 → v.ledgerFind x = .inr c → v.closeKey c = none →
        let c' := c.checkpointed (v.ledgerBody (v.dom' x) c 4 none) []
        exec (.ledgerChainClose m) s = .next (s.settle (v.accept (some x.id) [.chainClose (v.dom' x) c.num]
          (Final.good (v.ledgerCheckpoint c'.body c'.sealVal (x.random.drop (x.random.length - 56)))))))

/-- Administration: bindings, quotas, image chunks, acceptance, the freeze of the recorder and debug authorization. A PRF write
that is refused refuses the act. A chunk that reads back otherwise ends with VERIFY_FAILED and the bank dirty, and one still being
programmed is under way (R380, R381). -/
def Obligations.AdministrationMessages : Prop :=
  ∀ (s v : State) (m : Msg) (x : MsgRec),
    (s.acting .instanceBind m = some (v, x) → (v.prfWrite (prfBinding (x.m.field 40 1))).1 = true →
      exec (.instanceBind m) s = .next (s.settle
        ((((v.prfWrite (prfBinding (x.m.field 40 1))).2.modInst (x.m.field 40 1) (fun i =>
          { i with domain := some (x.m.field 42 2) })).domainRecord .instanceBind (x.m.field 42 2) (x.m.field 40 1)).endAct x
          (Final.good []))))
    ∧ (s.acting .instanceBind m = some (v, x) → (v.prfWrite (prfBinding (x.m.field 40 1))).1 = false →
        exec (.instanceBind m) s = .next (s.settle ((v.prfWrite (prfBinding (x.m.field 40 1))).2.endAct x prfRefusal)))
    ∧ (s.acting .instanceUnbind m = some (v, x) → (v.prfWrite (prfBinding (x.m.field 40 1))).1 = true →
        exec (.instanceUnbind m) s = .next (s.settle
          ((((v.prfWrite (prfBinding (x.m.field 40 1))).2.unbind (x.m.field 40 1)).domainRecord .instanceUnbind
            ((v.domainOf (x.m.field 40 1)).getD 0) (x.m.field 40 1)).endAct x (Final.good []))))
    ∧ (s.acting .instanceUnbind m = some (v, x) → (v.prfWrite (prfBinding (x.m.field 40 1))).1 = false →
        exec (.instanceUnbind m) s = .next (s.settle ((v.prfWrite (prfBinding (x.m.field 40 1))).2.endAct x prfRefusal)))
    ∧ (s.acting .instanceQuota m = some (v, x) → exec (.instanceQuota m) s = .next (s.settle
        ((v.modInst (x.m.field 40 1) (fun i => { i with
          weight := x.m.field 41 1, guarCipher := x.m.field 42 1, guarDigest := x.m.field 43 1, guarPk := x.m.field 44 1
          flowLimit := x.m.field 46 2, outLimit := x.m.field 48 4 })).endAct x (Final.good []))))
    ∧ (s.acting .imageWrite m = some (v, x) → x.m.field 41 1 = 1 → v.prf.pend = some (x.m.field 40 1) →
        (v.prfWrite prfBank).1 = false →
        exec (.imageWrite m) s = .next (s.settle ((v.prfWrite prfBank).2.endAct x prfRefusal)))
    ∧ (∀ (w t : State) (b : Bank), s.acting .imageWrite m = some (v, x) →
        ((x.m.field 41 1 = 1 ∧ v.prf.pend = some (x.m.field 40 1) ∧ (v.prfWrite prfBank).1 = true ∧ b = Bank.reset
            ∧ w = { (v.prfWrite prfBank).2 with prf := { (v.prfWrite prfBank).2.prf with pend := none } })
          ∨ (x.m.field 41 1 = 1 ∧ v.prf.pend ≠ some (x.m.field 40 1) ∧ b = Bank.reset ∧ w = v)
          ∨ (x.m.field 41 1 ≠ 1 ∧ b = v.bank (x.m.field 40 1) ∧ w = v)) →
        t = { w with cfg := { w.cfg with writeBank := x.m.field 40 1 } } →
        ((x.m.nor = .kept ∨ (∃ l, x.m.nor = .reads l ∧ firstDiff x.m.input l 0 = none)) →
          exec (.imageWrite m) s = .next (s.settle ((t.setBank (x.m.field 40 1) { b with
            bytes := b.bytes ++ x.m.input, next := b.next + x.m.input.length / 256, dirty := false }).endAct x (Final.good []))))
        ∧ (∀ l i, x.m.nor = .reads l → firstDiff x.m.input l 0 = some i →
          exec (.imageWrite m) s = .next (s.settle ((t.setBank (x.m.field 40 1) { b with
            bytes := b.bytes ++ fit x.m.input.length l, dirty := true }).endAct x
            (Final.refuse Status.verifyFailed (x.m.field 44 4 + i)))))
        ∧ (x.m.nor = .lasts → exec (.imageWrite m) s = .next (s.settle
          ((t.setBank (x.m.field 40 1) { b with dirty := true }).modMsg x.id (fun y => { y with phase := .flash t.opTime })))))
    ∧ (s.acting .imageAccept m = some (v, x) → v.prf.pend = some (x.m.field 40 1) →
        exec (.imageAccept m) s = .next (s.settle (v.endAct x (Final.good []))))
    ∧ (s.acting .imageAccept m = some (v, x) → v.prf.pend ≠ some (x.m.field 40 1) → (v.prfWrite prfBank).1 = true →
        ∃ t, t = (v.prfWrite prfBank).2 ∧ exec (.imageAccept m) s = .next (s.settle
          ({ t with prf := { t.prf with pend := some (x.m.field 40 1) } }.endAct x (Final.good []))))
    ∧ (s.acting .imageAccept m = some (v, x) → v.prf.pend ≠ some (x.m.field 40 1) → (v.prfWrite prfBank).1 = false →
        exec (.imageAccept m) s = .next (s.settle ((v.prfWrite prfBank).2.endAct x prfRefusal)))
    ∧ (s.acting .recorderFreeze m = some (v, x) → exec (.recorderFreeze m) s = .next (s.settle
        ((if x.m.field 40 1 = 1 then v.freeze else v.endFreeze 2).endAct x (Final.good []))))
    ∧ (s.acting .debugAuthorize m = some (v, x) → debugMode x.m = 0 → ∃ c,
        c = v.debugChallenge (x.m.field 41 1) (x.random.take 32) ∧ exec (.debugAuthorize m) s = .next (s.settle
          ({ v with lcs := { v.lcs with challenge := some c } }.endAct x (Final.good c))))
    ∧ (s.acting .debugAuthorize m = some (v, x) → debugMode x.m ≠ 0 → (v.prfWrite prfReopen).1 = true →
        ∃ t, t = (v.prfWrite prfReopen).2 ∧ exec (.debugAuthorize m) s = .next (s.settle
          ((State.openDebug { t with prf := { t.prf with dbgCount := t.prf.dbgCount + 1 }
                                     lcs := { t.lcs with challenge := none } } (byteAt x.m.input 4)).endAct x
            (Final.good []))))
    ∧ (s.acting .debugAuthorize m = some (v, x) → debugMode x.m ≠ 0 → (v.prfWrite prfReopen).1 = false →
        exec (.debugAuthorize m) s = .next (s.settle ((v.prfWrite prfReopen).2.endAct x prfRefusal)))

/-- LC_TRANSITION runs on the custody pair, in the state that its steps 1 and 2 leave: a move that the table allows programs its
row and goes on; entry into DIAPAUSE first writes the transport record, where there is an envelope key to write one of, and
one whose record cannot be written ends, with the access-control units open again (the model's choice, log 80); exit opens the
record, or with none formats the vault. -/
def Obligations.LifeCycleMoves : Prop :=
  ∀ (s v u : State) (m : Msg) (x : MsgRec), s.acting .lcTransition m = some (v, x) →
    u = v.modMsg x.id (fun r => { r with phase := .custody }) →
    ∀ row, moveRow u.lc (lcTarget x.m) u.otp.trips = some row →
    (u.lc ≠ 2 → u.lc ≠ 3 → u.lc ≠ 4 →
        exec (.lcTransition m) s = .next (s.settle (u.moveOn row (lcTarget x.m) none none)))
    ∧ (lcTarget x.m = 5 → exec (.lcTransition m) s = .next (s.settle (u.moveOn row 5 none none)))
    ∧ (u.lc = 2 → lcTarget x.m = 3 → exec (.lcTransition m) s = .next (s.settle
          (u.moveOn row 3 (some (x.random.take 32, slice x.random 32 32)) none)))
    ∧ (u.lc = 3 → lcTarget x.m = 4 → ∀ (t w : State) (e : TransportRec × Bytes),
        t = u.finishCommits.checkpoint.writeLedgerJournal → e = t.buildEntry x.m.input x.random →
        w = (t.prfWrite prfTransport).2 →
        (t.bbramValid = true → (t.prfWrite prfTransport).1 = true →
          exec (.lcTransition m) s = .next (s.settle (State.moveOn
            (State.modMsg { w with prf := { w.prf with transport := some e.1 } } x.id (fun r => { r with output := e.2 }))
            row 4 none none)))
        ∧ (t.bbramValid = true → (t.prfWrite prfTransport).1 = false →
          exec (.lcTransition m) s = .next (s.settle
            ((w.lcFail 3 4 prfRefusal.status).endAct x prfRefusal)))
        ∧ (t.bbramValid = false → exec (.lcTransition m) s = .next (s.settle
            ((t.modMsg x.id (fun r => { r with output := e.2 })).moveOn row 4 none none))))
    ∧ (u.lc = 4 → lcTarget x.m = 3 →
        (x.m.inLen = 0 → exec (.lcTransition m) s = .next (s.settle
          (u.moveOn row 3 (some (x.random.take 32, slice x.random 32 32)) none)))
        ∧ (∀ e, x.m.inLen ≠ 0 → u.openTransport x.m.input = .inr e →
          exec (.lcTransition m) s = .next (s.settle (u.moveOn row 3 none (some e))))
        ∧ (∀ f, x.m.inLen ≠ 0 → u.openTransport x.m.input = .inl f →
          exec (.lcTransition m) s = .next (s.settle ((u.lcFail 4 3 f.status).endAct x f))))

/-- R401: a trip uses two spare rows, of which the entry leaves the second as it was; an entry when TRIPS is 8 or more is refused
with LC_TRIPS_EXHAUSTED; exit has its row after every entry. -/
def Obligations.TripRows : Prop :=
  ∀ (s : State) (k : Nat),
    moveRow 3 4 k = some (1 + 2 * (k + 1)) ∧ moveRow 4 3 (k + 1) = some (2 + 2 * (k + 1))
    ∧ (∀ i, i ≠ 1 + 2 * (k + 1) → (s.programRow (1 + 2 * (k + 1)) 4).otp.row i = s.otp.row i)
    ∧ (∀ r : MsgRec, r.op = .lcTransition → lcTarget r.m = 4 → s.lc = 3 → 8 ≤ s.otp.trips →
        s.step8 r = .no (Final.plain Status.lcTripsExhausted) s)
end

