-- ==== Sys2Proof/Laws/State.lean ====
section
/-! SUPPORT. What each update of a part of State leaves as it was. -/

namespace Sys2Proof.Machine

@[simp] theorem State.modInst_pending (s : State) (n : Nat) (f : InstRec → InstRec) : (s.modInst n f).pending = s.pending := rfl
@[simp] theorem State.modInst_opTime (s : State) (n : Nat) (f : InstRec → InstRec) : (s.modInst n f).opTime = s.opTime := rfl
@[simp] theorem State.modInst_glb (s : State) (n : Nat) (f : InstRec → InstRec) : (s.modInst n f).glb = s.glb := rfl
@[simp] theorem State.modInst_isl (s : State) (n : Nat) (f : InstRec → InstRec) : (s.modInst n f).isl = s.isl := rfl
@[simp] theorem State.modInst_otp (s : State) (n : Nat) (f : InstRec → InstRec) : (s.modInst n f).otp = s.otp := rfl
@[simp] theorem State.modInst_nor (s : State) (n : Nat) (f : InstRec → InstRec) : (s.modInst n f).nor = s.nor := rfl
@[simp] theorem State.modInst_prf (s : State) (n : Nat) (f : InstRec → InstRec) : (s.modInst n f).prf = s.prf := rfl
@[simp] theorem State.modInst_cfg (s : State) (n : Nat) (f : InstRec → InstRec) : (s.modInst n f).cfg = s.cfg := rfl
@[simp] theorem State.modInst_lcs (s : State) (n : Nat) (f : InstRec → InstRec) : (s.modInst n f).lcs = s.lcs := rfl
@[simp] theorem State.modInst_tmp (s : State) (n : Nat) (f : InstRec → InstRec) : (s.modInst n f).tmp = s.tmp := rfl
@[simp] theorem State.modInst_evr (s : State) (n : Nat) (f : InstRec → InstRec) : (s.modInst n f).evr = s.evr := rfl
@[simp] theorem State.modInst_hlt (s : State) (n : Nat) (f : InstRec → InstRec) : (s.modInst n f).hlt = s.hlt := rfl
@[simp] theorem State.modInst_pwr (s : State) (n : Nat) (f : InstRec → InstRec) : (s.modInst n f).pwr = s.pwr := rfl
@[simp] theorem State.modInst_rng (s : State) (n : Nat) (f : InstRec → InstRec) : (s.modInst n f).rng = s.rng := rfl
@[simp] theorem State.modInst_vlt (s : State) (n : Nat) (f : InstRec → InstRec) : (s.modInst n f).vlt = s.vlt := rfl
@[simp] theorem State.modInst_dom (s : State) (n : Nat) (f : InstRec → InstRec) : (s.modInst n f).dom = s.dom := rfl
@[simp] theorem State.modInst_eng (s : State) (n : Nat) (f : InstRec → InstRec) : (s.modInst n f).eng = s.eng := rfl
@[simp] theorem State.modInst_clu (s : State) (n : Nat) (f : InstRec → InstRec) : (s.modInst n f).clu = s.clu := rfl
@[simp] theorem State.modInst_sch (s : State) (n : Nat) (f : InstRec → InstRec) : (s.modInst n f).sch = s.sch := rfl
@[simp] theorem State.modInst_acu (s : State) (n : Nat) (f : InstRec → InstRec) : (s.modInst n f).acu = s.acu := rfl
@[simp] theorem State.modInst_lnk (s : State) (n : Nat) (f : InstRec → InstRec) : (s.modInst n f).lnk = s.lnk := rfl
@[simp] theorem State.modInst_ident (s : State) (n : Nat) (f : InstRec → InstRec) : (s.modInst n f).ident = s.ident := rfl
@[simp] theorem State.modInst_out (s : State) (n : Nat) (f : InstRec → InstRec) : (s.modInst n f).out = s.out := rfl
@[simp] theorem State.modInst_irqs (s : State) (n : Nat) (f : InstRec → InstRec) : (s.modInst n f).irqs = s.irqs := rfl
@[simp] theorem State.modInst_reply (s : State) (n : Nat) (f : InstRec → InstRec) : (s.modInst n f).reply = s.reply := rfl
@[simp] theorem State.modInst_draw (s : State) (n : Nat) (f : InstRec → InstRec) : (s.modInst n f).draw = s.draw := rfl
@[simp] theorem State.modInst_uart (s : State) (n : Nat) (f : InstRec → InstRec) : (s.modInst n f).uart = s.uart := rfl
@[simp] theorem State.modInst_setAgain (s : State) (n : Nat) (f : InstRec → InstRec) : (s.modInst n f).setAgain = s.setAgain := rfl

@[simp] theorem State.mapInst_pending (s : State) (f : InstRec → InstRec) : (s.mapInst f).pending = s.pending := rfl
@[simp] theorem State.mapInst_opTime (s : State) (f : InstRec → InstRec) : (s.mapInst f).opTime = s.opTime := rfl
@[simp] theorem State.mapInst_glb (s : State) (f : InstRec → InstRec) : (s.mapInst f).glb = s.glb := rfl
@[simp] theorem State.mapInst_isl (s : State) (f : InstRec → InstRec) : (s.mapInst f).isl = s.isl := rfl
@[simp] theorem State.mapInst_otp (s : State) (f : InstRec → InstRec) : (s.mapInst f).otp = s.otp := rfl
@[simp] theorem State.mapInst_nor (s : State) (f : InstRec → InstRec) : (s.mapInst f).nor = s.nor := rfl
@[simp] theorem State.mapInst_prf (s : State) (f : InstRec → InstRec) : (s.mapInst f).prf = s.prf := rfl
@[simp] theorem State.mapInst_cfg (s : State) (f : InstRec → InstRec) : (s.mapInst f).cfg = s.cfg := rfl
@[simp] theorem State.mapInst_lcs (s : State) (f : InstRec → InstRec) : (s.mapInst f).lcs = s.lcs := rfl
@[simp] theorem State.mapInst_tmp (s : State) (f : InstRec → InstRec) : (s.mapInst f).tmp = s.tmp := rfl
@[simp] theorem State.mapInst_evr (s : State) (f : InstRec → InstRec) : (s.mapInst f).evr = s.evr := rfl
@[simp] theorem State.mapInst_hlt (s : State) (f : InstRec → InstRec) : (s.mapInst f).hlt = s.hlt := rfl
@[simp] theorem State.mapInst_pwr (s : State) (f : InstRec → InstRec) : (s.mapInst f).pwr = s.pwr := rfl
@[simp] theorem State.mapInst_rng (s : State) (f : InstRec → InstRec) : (s.mapInst f).rng = s.rng := rfl
@[simp] theorem State.mapInst_vlt (s : State) (f : InstRec → InstRec) : (s.mapInst f).vlt = s.vlt := rfl
@[simp] theorem State.mapInst_dom (s : State) (f : InstRec → InstRec) : (s.mapInst f).dom = s.dom := rfl
@[simp] theorem State.mapInst_eng (s : State) (f : InstRec → InstRec) : (s.mapInst f).eng = s.eng := rfl
@[simp] theorem State.mapInst_clu (s : State) (f : InstRec → InstRec) : (s.mapInst f).clu = s.clu := rfl
@[simp] theorem State.mapInst_sch (s : State) (f : InstRec → InstRec) : (s.mapInst f).sch = s.sch := rfl
@[simp] theorem State.mapInst_acu (s : State) (f : InstRec → InstRec) : (s.mapInst f).acu = s.acu := rfl
@[simp] theorem State.mapInst_lnk (s : State) (f : InstRec → InstRec) : (s.mapInst f).lnk = s.lnk := rfl
@[simp] theorem State.mapInst_ident (s : State) (f : InstRec → InstRec) : (s.mapInst f).ident = s.ident := rfl
@[simp] theorem State.mapInst_out (s : State) (f : InstRec → InstRec) : (s.mapInst f).out = s.out := rfl
@[simp] theorem State.mapInst_irqs (s : State) (f : InstRec → InstRec) : (s.mapInst f).irqs = s.irqs := rfl
@[simp] theorem State.mapInst_reply (s : State) (f : InstRec → InstRec) : (s.mapInst f).reply = s.reply := rfl
@[simp] theorem State.mapInst_draw (s : State) (f : InstRec → InstRec) : (s.mapInst f).draw = s.draw := rfl
@[simp] theorem State.mapInst_uart (s : State) (f : InstRec → InstRec) : (s.mapInst f).uart = s.uart := rfl
@[simp] theorem State.mapInst_setAgain (s : State) (f : InstRec → InstRec) : (s.mapInst f).setAgain = s.setAgain := rfl

@[simp] theorem State.modRings_pending (s : State) (n : Nat) (f : Rings → Rings) : (s.modRings n f).pending = s.pending := rfl
@[simp] theorem State.modRings_opTime (s : State) (n : Nat) (f : Rings → Rings) : (s.modRings n f).opTime = s.opTime := rfl
@[simp] theorem State.modRings_glb (s : State) (n : Nat) (f : Rings → Rings) : (s.modRings n f).glb = s.glb := rfl
@[simp] theorem State.modRings_isl (s : State) (n : Nat) (f : Rings → Rings) : (s.modRings n f).isl = s.isl := rfl
@[simp] theorem State.modRings_otp (s : State) (n : Nat) (f : Rings → Rings) : (s.modRings n f).otp = s.otp := rfl
@[simp] theorem State.modRings_nor (s : State) (n : Nat) (f : Rings → Rings) : (s.modRings n f).nor = s.nor := rfl
@[simp] theorem State.modRings_prf (s : State) (n : Nat) (f : Rings → Rings) : (s.modRings n f).prf = s.prf := rfl
@[simp] theorem State.modRings_cfg (s : State) (n : Nat) (f : Rings → Rings) : (s.modRings n f).cfg = s.cfg := rfl
@[simp] theorem State.modRings_lcs (s : State) (n : Nat) (f : Rings → Rings) : (s.modRings n f).lcs = s.lcs := rfl
@[simp] theorem State.modRings_tmp (s : State) (n : Nat) (f : Rings → Rings) : (s.modRings n f).tmp = s.tmp := rfl
@[simp] theorem State.modRings_evr (s : State) (n : Nat) (f : Rings → Rings) : (s.modRings n f).evr = s.evr := rfl
@[simp] theorem State.modRings_hlt (s : State) (n : Nat) (f : Rings → Rings) : (s.modRings n f).hlt = s.hlt := rfl
@[simp] theorem State.modRings_pwr (s : State) (n : Nat) (f : Rings → Rings) : (s.modRings n f).pwr = s.pwr := rfl
@[simp] theorem State.modRings_rng (s : State) (n : Nat) (f : Rings → Rings) : (s.modRings n f).rng = s.rng := rfl
@[simp] theorem State.modRings_vlt (s : State) (n : Nat) (f : Rings → Rings) : (s.modRings n f).vlt = s.vlt := rfl
@[simp] theorem State.modRings_dom (s : State) (n : Nat) (f : Rings → Rings) : (s.modRings n f).dom = s.dom := rfl
@[simp] theorem State.modRings_eng (s : State) (n : Nat) (f : Rings → Rings) : (s.modRings n f).eng = s.eng := rfl
@[simp] theorem State.modRings_clu (s : State) (n : Nat) (f : Rings → Rings) : (s.modRings n f).clu = s.clu := rfl
@[simp] theorem State.modRings_sch (s : State) (n : Nat) (f : Rings → Rings) : (s.modRings n f).sch = s.sch := rfl
@[simp] theorem State.modRings_acu (s : State) (n : Nat) (f : Rings → Rings) : (s.modRings n f).acu = s.acu := rfl
@[simp] theorem State.modRings_lnk (s : State) (n : Nat) (f : Rings → Rings) : (s.modRings n f).lnk = s.lnk := rfl
@[simp] theorem State.modRings_ident (s : State) (n : Nat) (f : Rings → Rings) : (s.modRings n f).ident = s.ident := rfl
@[simp] theorem State.modRings_out (s : State) (n : Nat) (f : Rings → Rings) : (s.modRings n f).out = s.out := rfl
@[simp] theorem State.modRings_irqs (s : State) (n : Nat) (f : Rings → Rings) : (s.modRings n f).irqs = s.irqs := rfl
@[simp] theorem State.modRings_reply (s : State) (n : Nat) (f : Rings → Rings) : (s.modRings n f).reply = s.reply := rfl
@[simp] theorem State.modRings_draw (s : State) (n : Nat) (f : Rings → Rings) : (s.modRings n f).draw = s.draw := rfl
@[simp] theorem State.modRings_uart (s : State) (n : Nat) (f : Rings → Rings) : (s.modRings n f).uart = s.uart := rfl
@[simp] theorem State.modRings_setAgain (s : State) (n : Nat) (f : Rings → Rings) : (s.modRings n f).setAgain = s.setAgain := rfl

@[simp] theorem State.modEng_pending (s : State) (e : Nat) (f : Engine → Engine) : (s.modEng e f).pending = s.pending := rfl
@[simp] theorem State.modEng_opTime (s : State) (e : Nat) (f : Engine → Engine) : (s.modEng e f).opTime = s.opTime := rfl
@[simp] theorem State.modEng_inst (s : State) (e : Nat) (f : Engine → Engine) : (s.modEng e f).inst = s.inst := rfl
@[simp] theorem State.modEng_glb (s : State) (e : Nat) (f : Engine → Engine) : (s.modEng e f).glb = s.glb := rfl
@[simp] theorem State.modEng_isl (s : State) (e : Nat) (f : Engine → Engine) : (s.modEng e f).isl = s.isl := rfl
@[simp] theorem State.modEng_otp (s : State) (e : Nat) (f : Engine → Engine) : (s.modEng e f).otp = s.otp := rfl
@[simp] theorem State.modEng_nor (s : State) (e : Nat) (f : Engine → Engine) : (s.modEng e f).nor = s.nor := rfl
@[simp] theorem State.modEng_prf (s : State) (e : Nat) (f : Engine → Engine) : (s.modEng e f).prf = s.prf := rfl
@[simp] theorem State.modEng_cfg (s : State) (e : Nat) (f : Engine → Engine) : (s.modEng e f).cfg = s.cfg := rfl
@[simp] theorem State.modEng_lcs (s : State) (e : Nat) (f : Engine → Engine) : (s.modEng e f).lcs = s.lcs := rfl
@[simp] theorem State.modEng_tmp (s : State) (e : Nat) (f : Engine → Engine) : (s.modEng e f).tmp = s.tmp := rfl
@[simp] theorem State.modEng_evr (s : State) (e : Nat) (f : Engine → Engine) : (s.modEng e f).evr = s.evr := rfl
@[simp] theorem State.modEng_hlt (s : State) (e : Nat) (f : Engine → Engine) : (s.modEng e f).hlt = s.hlt := rfl
@[simp] theorem State.modEng_pwr (s : State) (e : Nat) (f : Engine → Engine) : (s.modEng e f).pwr = s.pwr := rfl
@[simp] theorem State.modEng_rng (s : State) (e : Nat) (f : Engine → Engine) : (s.modEng e f).rng = s.rng := rfl
@[simp] theorem State.modEng_vlt (s : State) (e : Nat) (f : Engine → Engine) : (s.modEng e f).vlt = s.vlt := rfl
@[simp] theorem State.modEng_dom (s : State) (e : Nat) (f : Engine → Engine) : (s.modEng e f).dom = s.dom := rfl
@[simp] theorem State.modEng_clu (s : State) (e : Nat) (f : Engine → Engine) : (s.modEng e f).clu = s.clu := rfl
@[simp] theorem State.modEng_sch (s : State) (e : Nat) (f : Engine → Engine) : (s.modEng e f).sch = s.sch := rfl
@[simp] theorem State.modEng_acu (s : State) (e : Nat) (f : Engine → Engine) : (s.modEng e f).acu = s.acu := rfl
@[simp] theorem State.modEng_lnk (s : State) (e : Nat) (f : Engine → Engine) : (s.modEng e f).lnk = s.lnk := rfl
@[simp] theorem State.modEng_ident (s : State) (e : Nat) (f : Engine → Engine) : (s.modEng e f).ident = s.ident := rfl
@[simp] theorem State.modEng_out (s : State) (e : Nat) (f : Engine → Engine) : (s.modEng e f).out = s.out := rfl
@[simp] theorem State.modEng_irqs (s : State) (e : Nat) (f : Engine → Engine) : (s.modEng e f).irqs = s.irqs := rfl
@[simp] theorem State.modEng_reply (s : State) (e : Nat) (f : Engine → Engine) : (s.modEng e f).reply = s.reply := rfl
@[simp] theorem State.modEng_draw (s : State) (e : Nat) (f : Engine → Engine) : (s.modEng e f).draw = s.draw := rfl
@[simp] theorem State.modEng_uart (s : State) (e : Nat) (f : Engine → Engine) : (s.modEng e f).uart = s.uart := rfl
@[simp] theorem State.modEng_setAgain (s : State) (e : Nat) (f : Engine → Engine) : (s.modEng e f).setAgain = s.setAgain := rfl

@[simp] theorem State.modClu_pending (s : State) (c : Nat) (f : Cluster → Cluster) : (s.modClu c f).pending = s.pending := rfl
@[simp] theorem State.modClu_opTime (s : State) (c : Nat) (f : Cluster → Cluster) : (s.modClu c f).opTime = s.opTime := rfl
@[simp] theorem State.modClu_inst (s : State) (c : Nat) (f : Cluster → Cluster) : (s.modClu c f).inst = s.inst := rfl
@[simp] theorem State.modClu_glb (s : State) (c : Nat) (f : Cluster → Cluster) : (s.modClu c f).glb = s.glb := rfl
@[simp] theorem State.modClu_isl (s : State) (c : Nat) (f : Cluster → Cluster) : (s.modClu c f).isl = s.isl := rfl
@[simp] theorem State.modClu_otp (s : State) (c : Nat) (f : Cluster → Cluster) : (s.modClu c f).otp = s.otp := rfl
@[simp] theorem State.modClu_nor (s : State) (c : Nat) (f : Cluster → Cluster) : (s.modClu c f).nor = s.nor := rfl
@[simp] theorem State.modClu_prf (s : State) (c : Nat) (f : Cluster → Cluster) : (s.modClu c f).prf = s.prf := rfl
@[simp] theorem State.modClu_cfg (s : State) (c : Nat) (f : Cluster → Cluster) : (s.modClu c f).cfg = s.cfg := rfl
@[simp] theorem State.modClu_lcs (s : State) (c : Nat) (f : Cluster → Cluster) : (s.modClu c f).lcs = s.lcs := rfl
@[simp] theorem State.modClu_tmp (s : State) (c : Nat) (f : Cluster → Cluster) : (s.modClu c f).tmp = s.tmp := rfl
@[simp] theorem State.modClu_evr (s : State) (c : Nat) (f : Cluster → Cluster) : (s.modClu c f).evr = s.evr := rfl
@[simp] theorem State.modClu_hlt (s : State) (c : Nat) (f : Cluster → Cluster) : (s.modClu c f).hlt = s.hlt := rfl
@[simp] theorem State.modClu_pwr (s : State) (c : Nat) (f : Cluster → Cluster) : (s.modClu c f).pwr = s.pwr := rfl
@[simp] theorem State.modClu_rng (s : State) (c : Nat) (f : Cluster → Cluster) : (s.modClu c f).rng = s.rng := rfl
@[simp] theorem State.modClu_vlt (s : State) (c : Nat) (f : Cluster → Cluster) : (s.modClu c f).vlt = s.vlt := rfl
@[simp] theorem State.modClu_dom (s : State) (c : Nat) (f : Cluster → Cluster) : (s.modClu c f).dom = s.dom := rfl
@[simp] theorem State.modClu_eng (s : State) (c : Nat) (f : Cluster → Cluster) : (s.modClu c f).eng = s.eng := rfl
@[simp] theorem State.modClu_sch (s : State) (c : Nat) (f : Cluster → Cluster) : (s.modClu c f).sch = s.sch := rfl
@[simp] theorem State.modClu_acu (s : State) (c : Nat) (f : Cluster → Cluster) : (s.modClu c f).acu = s.acu := rfl
@[simp] theorem State.modClu_lnk (s : State) (c : Nat) (f : Cluster → Cluster) : (s.modClu c f).lnk = s.lnk := rfl
@[simp] theorem State.modClu_ident (s : State) (c : Nat) (f : Cluster → Cluster) : (s.modClu c f).ident = s.ident := rfl
@[simp] theorem State.modClu_out (s : State) (c : Nat) (f : Cluster → Cluster) : (s.modClu c f).out = s.out := rfl
@[simp] theorem State.modClu_irqs (s : State) (c : Nat) (f : Cluster → Cluster) : (s.modClu c f).irqs = s.irqs := rfl
@[simp] theorem State.modClu_reply (s : State) (c : Nat) (f : Cluster → Cluster) : (s.modClu c f).reply = s.reply := rfl
@[simp] theorem State.modClu_draw (s : State) (c : Nat) (f : Cluster → Cluster) : (s.modClu c f).draw = s.draw := rfl
@[simp] theorem State.modClu_uart (s : State) (c : Nat) (f : Cluster → Cluster) : (s.modClu c f).uart = s.uart := rfl
@[simp] theorem State.modClu_setAgain (s : State) (c : Nat) (f : Cluster → Cluster) : (s.modClu c f).setAgain = s.setAgain := rfl

@[simp] theorem State.modAcu_pending (s : State) (u : Nat) (f : AcuUnit → AcuUnit) : (s.modAcu u f).pending = s.pending := rfl
@[simp] theorem State.modAcu_opTime (s : State) (u : Nat) (f : AcuUnit → AcuUnit) : (s.modAcu u f).opTime = s.opTime := rfl
@[simp] theorem State.modAcu_inst (s : State) (u : Nat) (f : AcuUnit → AcuUnit) : (s.modAcu u f).inst = s.inst := rfl
@[simp] theorem State.modAcu_glb (s : State) (u : Nat) (f : AcuUnit → AcuUnit) : (s.modAcu u f).glb = s.glb := rfl
@[simp] theorem State.modAcu_isl (s : State) (u : Nat) (f : AcuUnit → AcuUnit) : (s.modAcu u f).isl = s.isl := rfl
@[simp] theorem State.modAcu_otp (s : State) (u : Nat) (f : AcuUnit → AcuUnit) : (s.modAcu u f).otp = s.otp := rfl
@[simp] theorem State.modAcu_nor (s : State) (u : Nat) (f : AcuUnit → AcuUnit) : (s.modAcu u f).nor = s.nor := rfl
@[simp] theorem State.modAcu_prf (s : State) (u : Nat) (f : AcuUnit → AcuUnit) : (s.modAcu u f).prf = s.prf := rfl
@[simp] theorem State.modAcu_cfg (s : State) (u : Nat) (f : AcuUnit → AcuUnit) : (s.modAcu u f).cfg = s.cfg := rfl
@[simp] theorem State.modAcu_lcs (s : State) (u : Nat) (f : AcuUnit → AcuUnit) : (s.modAcu u f).lcs = s.lcs := rfl
@[simp] theorem State.modAcu_tmp (s : State) (u : Nat) (f : AcuUnit → AcuUnit) : (s.modAcu u f).tmp = s.tmp := rfl
@[simp] theorem State.modAcu_evr (s : State) (u : Nat) (f : AcuUnit → AcuUnit) : (s.modAcu u f).evr = s.evr := rfl
@[simp] theorem State.modAcu_hlt (s : State) (u : Nat) (f : AcuUnit → AcuUnit) : (s.modAcu u f).hlt = s.hlt := rfl
@[simp] theorem State.modAcu_pwr (s : State) (u : Nat) (f : AcuUnit → AcuUnit) : (s.modAcu u f).pwr = s.pwr := rfl
@[simp] theorem State.modAcu_rng (s : State) (u : Nat) (f : AcuUnit → AcuUnit) : (s.modAcu u f).rng = s.rng := rfl
@[simp] theorem State.modAcu_vlt (s : State) (u : Nat) (f : AcuUnit → AcuUnit) : (s.modAcu u f).vlt = s.vlt := rfl
@[simp] theorem State.modAcu_dom (s : State) (u : Nat) (f : AcuUnit → AcuUnit) : (s.modAcu u f).dom = s.dom := rfl
@[simp] theorem State.modAcu_eng (s : State) (u : Nat) (f : AcuUnit → AcuUnit) : (s.modAcu u f).eng = s.eng := rfl
@[simp] theorem State.modAcu_clu (s : State) (u : Nat) (f : AcuUnit → AcuUnit) : (s.modAcu u f).clu = s.clu := rfl
@[simp] theorem State.modAcu_sch (s : State) (u : Nat) (f : AcuUnit → AcuUnit) : (s.modAcu u f).sch = s.sch := rfl
@[simp] theorem State.modAcu_lnk (s : State) (u : Nat) (f : AcuUnit → AcuUnit) : (s.modAcu u f).lnk = s.lnk := rfl
@[simp] theorem State.modAcu_ident (s : State) (u : Nat) (f : AcuUnit → AcuUnit) : (s.modAcu u f).ident = s.ident := rfl
@[simp] theorem State.modAcu_out (s : State) (u : Nat) (f : AcuUnit → AcuUnit) : (s.modAcu u f).out = s.out := rfl
@[simp] theorem State.modAcu_irqs (s : State) (u : Nat) (f : AcuUnit → AcuUnit) : (s.modAcu u f).irqs = s.irqs := rfl
@[simp] theorem State.modAcu_reply (s : State) (u : Nat) (f : AcuUnit → AcuUnit) : (s.modAcu u f).reply = s.reply := rfl
@[simp] theorem State.modAcu_draw (s : State) (u : Nat) (f : AcuUnit → AcuUnit) : (s.modAcu u f).draw = s.draw := rfl
@[simp] theorem State.modAcu_uart (s : State) (u : Nat) (f : AcuUnit → AcuUnit) : (s.modAcu u f).uart = s.uart := rfl
@[simp] theorem State.modAcu_setAgain (s : State) (u : Nat) (f : AcuUnit → AcuUnit) : (s.modAcu u f).setAgain = s.setAgain := rfl

@[simp] theorem State.modGen_pending (s : State) (g : Nat) (f : Gen → Gen) : (s.modGen g f).pending = s.pending := rfl
@[simp] theorem State.modGen_opTime (s : State) (g : Nat) (f : Gen → Gen) : (s.modGen g f).opTime = s.opTime := rfl
@[simp] theorem State.modGen_inst (s : State) (g : Nat) (f : Gen → Gen) : (s.modGen g f).inst = s.inst := rfl
@[simp] theorem State.modGen_glb (s : State) (g : Nat) (f : Gen → Gen) : (s.modGen g f).glb = s.glb := rfl
@[simp] theorem State.modGen_isl (s : State) (g : Nat) (f : Gen → Gen) : (s.modGen g f).isl = s.isl := rfl
@[simp] theorem State.modGen_otp (s : State) (g : Nat) (f : Gen → Gen) : (s.modGen g f).otp = s.otp := rfl
@[simp] theorem State.modGen_nor (s : State) (g : Nat) (f : Gen → Gen) : (s.modGen g f).nor = s.nor := rfl
@[simp] theorem State.modGen_prf (s : State) (g : Nat) (f : Gen → Gen) : (s.modGen g f).prf = s.prf := rfl
@[simp] theorem State.modGen_cfg (s : State) (g : Nat) (f : Gen → Gen) : (s.modGen g f).cfg = s.cfg := rfl
@[simp] theorem State.modGen_lcs (s : State) (g : Nat) (f : Gen → Gen) : (s.modGen g f).lcs = s.lcs := rfl
@[simp] theorem State.modGen_tmp (s : State) (g : Nat) (f : Gen → Gen) : (s.modGen g f).tmp = s.tmp := rfl
@[simp] theorem State.modGen_evr (s : State) (g : Nat) (f : Gen → Gen) : (s.modGen g f).evr = s.evr := rfl
@[simp] theorem State.modGen_hlt (s : State) (g : Nat) (f : Gen → Gen) : (s.modGen g f).hlt = s.hlt := rfl
@[simp] theorem State.modGen_pwr (s : State) (g : Nat) (f : Gen → Gen) : (s.modGen g f).pwr = s.pwr := rfl
@[simp] theorem State.modGen_vlt (s : State) (g : Nat) (f : Gen → Gen) : (s.modGen g f).vlt = s.vlt := rfl
@[simp] theorem State.modGen_dom (s : State) (g : Nat) (f : Gen → Gen) : (s.modGen g f).dom = s.dom := rfl
@[simp] theorem State.modGen_eng (s : State) (g : Nat) (f : Gen → Gen) : (s.modGen g f).eng = s.eng := rfl
@[simp] theorem State.modGen_clu (s : State) (g : Nat) (f : Gen → Gen) : (s.modGen g f).clu = s.clu := rfl
@[simp] theorem State.modGen_sch (s : State) (g : Nat) (f : Gen → Gen) : (s.modGen g f).sch = s.sch := rfl
@[simp] theorem State.modGen_acu (s : State) (g : Nat) (f : Gen → Gen) : (s.modGen g f).acu = s.acu := rfl
@[simp] theorem State.modGen_lnk (s : State) (g : Nat) (f : Gen → Gen) : (s.modGen g f).lnk = s.lnk := rfl
@[simp] theorem State.modGen_ident (s : State) (g : Nat) (f : Gen → Gen) : (s.modGen g f).ident = s.ident := rfl
@[simp] theorem State.modGen_out (s : State) (g : Nat) (f : Gen → Gen) : (s.modGen g f).out = s.out := rfl
@[simp] theorem State.modGen_irqs (s : State) (g : Nat) (f : Gen → Gen) : (s.modGen g f).irqs = s.irqs := rfl
@[simp] theorem State.modGen_reply (s : State) (g : Nat) (f : Gen → Gen) : (s.modGen g f).reply = s.reply := rfl
@[simp] theorem State.modGen_draw (s : State) (g : Nat) (f : Gen → Gen) : (s.modGen g f).draw = s.draw := rfl
@[simp] theorem State.modGen_uart (s : State) (g : Nat) (f : Gen → Gen) : (s.modGen g f).uart = s.uart := rfl
@[simp] theorem State.modGen_setAgain (s : State) (g : Nat) (f : Gen → Gen) : (s.modGen g f).setAgain = s.setAgain := rfl

@[simp] theorem State.modMon_pending (s : State) (m : Nat) (f : MonRec → MonRec) : (s.modMon m f).pending = s.pending := rfl
@[simp] theorem State.modMon_opTime (s : State) (m : Nat) (f : MonRec → MonRec) : (s.modMon m f).opTime = s.opTime := rfl
@[simp] theorem State.modMon_inst (s : State) (m : Nat) (f : MonRec → MonRec) : (s.modMon m f).inst = s.inst := rfl
@[simp] theorem State.modMon_glb (s : State) (m : Nat) (f : MonRec → MonRec) : (s.modMon m f).glb = s.glb := rfl
@[simp] theorem State.modMon_isl (s : State) (m : Nat) (f : MonRec → MonRec) : (s.modMon m f).isl = s.isl := rfl
@[simp] theorem State.modMon_otp (s : State) (m : Nat) (f : MonRec → MonRec) : (s.modMon m f).otp = s.otp := rfl
@[simp] theorem State.modMon_nor (s : State) (m : Nat) (f : MonRec → MonRec) : (s.modMon m f).nor = s.nor := rfl
@[simp] theorem State.modMon_prf (s : State) (m : Nat) (f : MonRec → MonRec) : (s.modMon m f).prf = s.prf := rfl
@[simp] theorem State.modMon_cfg (s : State) (m : Nat) (f : MonRec → MonRec) : (s.modMon m f).cfg = s.cfg := rfl
@[simp] theorem State.modMon_lcs (s : State) (m : Nat) (f : MonRec → MonRec) : (s.modMon m f).lcs = s.lcs := rfl
@[simp] theorem State.modMon_evr (s : State) (m : Nat) (f : MonRec → MonRec) : (s.modMon m f).evr = s.evr := rfl
@[simp] theorem State.modMon_hlt (s : State) (m : Nat) (f : MonRec → MonRec) : (s.modMon m f).hlt = s.hlt := rfl
@[simp] theorem State.modMon_pwr (s : State) (m : Nat) (f : MonRec → MonRec) : (s.modMon m f).pwr = s.pwr := rfl
@[simp] theorem State.modMon_rng (s : State) (m : Nat) (f : MonRec → MonRec) : (s.modMon m f).rng = s.rng := rfl
@[simp] theorem State.modMon_vlt (s : State) (m : Nat) (f : MonRec → MonRec) : (s.modMon m f).vlt = s.vlt := rfl
@[simp] theorem State.modMon_dom (s : State) (m : Nat) (f : MonRec → MonRec) : (s.modMon m f).dom = s.dom := rfl
@[simp] theorem State.modMon_eng (s : State) (m : Nat) (f : MonRec → MonRec) : (s.modMon m f).eng = s.eng := rfl
@[simp] theorem State.modMon_clu (s : State) (m : Nat) (f : MonRec → MonRec) : (s.modMon m f).clu = s.clu := rfl
@[simp] theorem State.modMon_sch (s : State) (m : Nat) (f : MonRec → MonRec) : (s.modMon m f).sch = s.sch := rfl
@[simp] theorem State.modMon_acu (s : State) (m : Nat) (f : MonRec → MonRec) : (s.modMon m f).acu = s.acu := rfl
@[simp] theorem State.modMon_lnk (s : State) (m : Nat) (f : MonRec → MonRec) : (s.modMon m f).lnk = s.lnk := rfl
@[simp] theorem State.modMon_ident (s : State) (m : Nat) (f : MonRec → MonRec) : (s.modMon m f).ident = s.ident := rfl
@[simp] theorem State.modMon_out (s : State) (m : Nat) (f : MonRec → MonRec) : (s.modMon m f).out = s.out := rfl
@[simp] theorem State.modMon_irqs (s : State) (m : Nat) (f : MonRec → MonRec) : (s.modMon m f).irqs = s.irqs := rfl
@[simp] theorem State.modMon_reply (s : State) (m : Nat) (f : MonRec → MonRec) : (s.modMon m f).reply = s.reply := rfl
@[simp] theorem State.modMon_draw (s : State) (m : Nat) (f : MonRec → MonRec) : (s.modMon m f).draw = s.draw := rfl
@[simp] theorem State.modMon_uart (s : State) (m : Nat) (f : MonRec → MonRec) : (s.modMon m f).uart = s.uart := rfl
@[simp] theorem State.modMon_setAgain (s : State) (m : Nat) (f : MonRec → MonRec) : (s.modMon m f).setAgain = s.setAgain := rfl

@[simp] theorem State.modMsg_pending (s : State) (id : Nat) (f : MsgRec → MsgRec) : (s.modMsg id f).pending = s.pending := rfl
@[simp] theorem State.modMsg_opTime (s : State) (id : Nat) (f : MsgRec → MsgRec) : (s.modMsg id f).opTime = s.opTime := rfl
@[simp] theorem State.modMsg_inst (s : State) (id : Nat) (f : MsgRec → MsgRec) : (s.modMsg id f).inst = s.inst := rfl
@[simp] theorem State.modMsg_glb (s : State) (id : Nat) (f : MsgRec → MsgRec) : (s.modMsg id f).glb = s.glb := rfl
@[simp] theorem State.modMsg_isl (s : State) (id : Nat) (f : MsgRec → MsgRec) : (s.modMsg id f).isl = s.isl := rfl
@[simp] theorem State.modMsg_otp (s : State) (id : Nat) (f : MsgRec → MsgRec) : (s.modMsg id f).otp = s.otp := rfl
@[simp] theorem State.modMsg_nor (s : State) (id : Nat) (f : MsgRec → MsgRec) : (s.modMsg id f).nor = s.nor := rfl
@[simp] theorem State.modMsg_prf (s : State) (id : Nat) (f : MsgRec → MsgRec) : (s.modMsg id f).prf = s.prf := rfl
@[simp] theorem State.modMsg_cfg (s : State) (id : Nat) (f : MsgRec → MsgRec) : (s.modMsg id f).cfg = s.cfg := rfl
@[simp] theorem State.modMsg_lcs (s : State) (id : Nat) (f : MsgRec → MsgRec) : (s.modMsg id f).lcs = s.lcs := rfl
@[simp] theorem State.modMsg_tmp (s : State) (id : Nat) (f : MsgRec → MsgRec) : (s.modMsg id f).tmp = s.tmp := rfl
@[simp] theorem State.modMsg_evr (s : State) (id : Nat) (f : MsgRec → MsgRec) : (s.modMsg id f).evr = s.evr := rfl
@[simp] theorem State.modMsg_hlt (s : State) (id : Nat) (f : MsgRec → MsgRec) : (s.modMsg id f).hlt = s.hlt := rfl
@[simp] theorem State.modMsg_pwr (s : State) (id : Nat) (f : MsgRec → MsgRec) : (s.modMsg id f).pwr = s.pwr := rfl
@[simp] theorem State.modMsg_rng (s : State) (id : Nat) (f : MsgRec → MsgRec) : (s.modMsg id f).rng = s.rng := rfl
@[simp] theorem State.modMsg_vlt (s : State) (id : Nat) (f : MsgRec → MsgRec) : (s.modMsg id f).vlt = s.vlt := rfl
@[simp] theorem State.modMsg_dom (s : State) (id : Nat) (f : MsgRec → MsgRec) : (s.modMsg id f).dom = s.dom := rfl
@[simp] theorem State.modMsg_eng (s : State) (id : Nat) (f : MsgRec → MsgRec) : (s.modMsg id f).eng = s.eng := rfl
@[simp] theorem State.modMsg_clu (s : State) (id : Nat) (f : MsgRec → MsgRec) : (s.modMsg id f).clu = s.clu := rfl
@[simp] theorem State.modMsg_acu (s : State) (id : Nat) (f : MsgRec → MsgRec) : (s.modMsg id f).acu = s.acu := rfl
@[simp] theorem State.modMsg_lnk (s : State) (id : Nat) (f : MsgRec → MsgRec) : (s.modMsg id f).lnk = s.lnk := rfl
@[simp] theorem State.modMsg_ident (s : State) (id : Nat) (f : MsgRec → MsgRec) : (s.modMsg id f).ident = s.ident := rfl
@[simp] theorem State.modMsg_out (s : State) (id : Nat) (f : MsgRec → MsgRec) : (s.modMsg id f).out = s.out := rfl
@[simp] theorem State.modMsg_irqs (s : State) (id : Nat) (f : MsgRec → MsgRec) : (s.modMsg id f).irqs = s.irqs := rfl
@[simp] theorem State.modMsg_reply (s : State) (id : Nat) (f : MsgRec → MsgRec) : (s.modMsg id f).reply = s.reply := rfl
@[simp] theorem State.modMsg_draw (s : State) (id : Nat) (f : MsgRec → MsgRec) : (s.modMsg id f).draw = s.draw := rfl
@[simp] theorem State.modMsg_uart (s : State) (id : Nat) (f : MsgRec → MsgRec) : (s.modMsg id f).uart = s.uart := rfl
@[simp] theorem State.modMsg_setAgain (s : State) (id : Nat) (f : MsgRec → MsgRec) : (s.modMsg id f).setAgain = s.setAgain := rfl

@[simp] theorem State.setMsg_pending (s : State) (r : MsgRec) : (s.setMsg r).pending = s.pending := rfl
@[simp] theorem State.setMsg_opTime (s : State) (r : MsgRec) : (s.setMsg r).opTime = s.opTime := rfl
@[simp] theorem State.setMsg_inst (s : State) (r : MsgRec) : (s.setMsg r).inst = s.inst := rfl
@[simp] theorem State.setMsg_glb (s : State) (r : MsgRec) : (s.setMsg r).glb = s.glb := rfl
@[simp] theorem State.setMsg_isl (s : State) (r : MsgRec) : (s.setMsg r).isl = s.isl := rfl
@[simp] theorem State.setMsg_otp (s : State) (r : MsgRec) : (s.setMsg r).otp = s.otp := rfl
@[simp] theorem State.setMsg_nor (s : State) (r : MsgRec) : (s.setMsg r).nor = s.nor := rfl
@[simp] theorem State.setMsg_prf (s : State) (r : MsgRec) : (s.setMsg r).prf = s.prf := rfl
@[simp] theorem State.setMsg_cfg (s : State) (r : MsgRec) : (s.setMsg r).cfg = s.cfg := rfl
@[simp] theorem State.setMsg_lcs (s : State) (r : MsgRec) : (s.setMsg r).lcs = s.lcs := rfl
@[simp] theorem State.setMsg_tmp (s : State) (r : MsgRec) : (s.setMsg r).tmp = s.tmp := rfl
@[simp] theorem State.setMsg_evr (s : State) (r : MsgRec) : (s.setMsg r).evr = s.evr := rfl
@[simp] theorem State.setMsg_hlt (s : State) (r : MsgRec) : (s.setMsg r).hlt = s.hlt := rfl
@[simp] theorem State.setMsg_pwr (s : State) (r : MsgRec) : (s.setMsg r).pwr = s.pwr := rfl
@[simp] theorem State.setMsg_rng (s : State) (r : MsgRec) : (s.setMsg r).rng = s.rng := rfl
@[simp] theorem State.setMsg_vlt (s : State) (r : MsgRec) : (s.setMsg r).vlt = s.vlt := rfl
@[simp] theorem State.setMsg_dom (s : State) (r : MsgRec) : (s.setMsg r).dom = s.dom := rfl
@[simp] theorem State.setMsg_eng (s : State) (r : MsgRec) : (s.setMsg r).eng = s.eng := rfl
@[simp] theorem State.setMsg_clu (s : State) (r : MsgRec) : (s.setMsg r).clu = s.clu := rfl
@[simp] theorem State.setMsg_acu (s : State) (r : MsgRec) : (s.setMsg r).acu = s.acu := rfl
@[simp] theorem State.setMsg_lnk (s : State) (r : MsgRec) : (s.setMsg r).lnk = s.lnk := rfl
@[simp] theorem State.setMsg_ident (s : State) (r : MsgRec) : (s.setMsg r).ident = s.ident := rfl
@[simp] theorem State.setMsg_out (s : State) (r : MsgRec) : (s.setMsg r).out = s.out := rfl
@[simp] theorem State.setMsg_irqs (s : State) (r : MsgRec) : (s.setMsg r).irqs = s.irqs := rfl
@[simp] theorem State.setMsg_reply (s : State) (r : MsgRec) : (s.setMsg r).reply = s.reply := rfl
@[simp] theorem State.setMsg_draw (s : State) (r : MsgRec) : (s.setMsg r).draw = s.draw := rfl
@[simp] theorem State.setMsg_uart (s : State) (r : MsgRec) : (s.setMsg r).uart = s.uart := rfl
@[simp] theorem State.setMsg_setAgain (s : State) (r : MsgRec) : (s.setMsg r).setAgain = s.setAgain := rfl

@[simp] theorem State.dropMsg_pending (s : State) (id : Nat) : (s.dropMsg id).pending = s.pending := rfl
@[simp] theorem State.dropMsg_opTime (s : State) (id : Nat) : (s.dropMsg id).opTime = s.opTime := rfl
@[simp] theorem State.dropMsg_inst (s : State) (id : Nat) : (s.dropMsg id).inst = s.inst := rfl
@[simp] theorem State.dropMsg_glb (s : State) (id : Nat) : (s.dropMsg id).glb = s.glb := rfl
@[simp] theorem State.dropMsg_isl (s : State) (id : Nat) : (s.dropMsg id).isl = s.isl := rfl
@[simp] theorem State.dropMsg_otp (s : State) (id : Nat) : (s.dropMsg id).otp = s.otp := rfl
@[simp] theorem State.dropMsg_nor (s : State) (id : Nat) : (s.dropMsg id).nor = s.nor := rfl
@[simp] theorem State.dropMsg_prf (s : State) (id : Nat) : (s.dropMsg id).prf = s.prf := rfl
@[simp] theorem State.dropMsg_cfg (s : State) (id : Nat) : (s.dropMsg id).cfg = s.cfg := rfl
@[simp] theorem State.dropMsg_lcs (s : State) (id : Nat) : (s.dropMsg id).lcs = s.lcs := rfl
@[simp] theorem State.dropMsg_tmp (s : State) (id : Nat) : (s.dropMsg id).tmp = s.tmp := rfl
@[simp] theorem State.dropMsg_evr (s : State) (id : Nat) : (s.dropMsg id).evr = s.evr := rfl
@[simp] theorem State.dropMsg_hlt (s : State) (id : Nat) : (s.dropMsg id).hlt = s.hlt := rfl
@[simp] theorem State.dropMsg_pwr (s : State) (id : Nat) : (s.dropMsg id).pwr = s.pwr := rfl
@[simp] theorem State.dropMsg_rng (s : State) (id : Nat) : (s.dropMsg id).rng = s.rng := rfl
@[simp] theorem State.dropMsg_vlt (s : State) (id : Nat) : (s.dropMsg id).vlt = s.vlt := rfl
@[simp] theorem State.dropMsg_dom (s : State) (id : Nat) : (s.dropMsg id).dom = s.dom := rfl
@[simp] theorem State.dropMsg_eng (s : State) (id : Nat) : (s.dropMsg id).eng = s.eng := rfl
@[simp] theorem State.dropMsg_clu (s : State) (id : Nat) : (s.dropMsg id).clu = s.clu := rfl
@[simp] theorem State.dropMsg_acu (s : State) (id : Nat) : (s.dropMsg id).acu = s.acu := rfl
@[simp] theorem State.dropMsg_lnk (s : State) (id : Nat) : (s.dropMsg id).lnk = s.lnk := rfl
@[simp] theorem State.dropMsg_ident (s : State) (id : Nat) : (s.dropMsg id).ident = s.ident := rfl
@[simp] theorem State.dropMsg_out (s : State) (id : Nat) : (s.dropMsg id).out = s.out := rfl
@[simp] theorem State.dropMsg_irqs (s : State) (id : Nat) : (s.dropMsg id).irqs = s.irqs := rfl
@[simp] theorem State.dropMsg_reply (s : State) (id : Nat) : (s.dropMsg id).reply = s.reply := rfl
@[simp] theorem State.dropMsg_draw (s : State) (id : Nat) : (s.dropMsg id).draw = s.draw := rfl
@[simp] theorem State.dropMsg_uart (s : State) (id : Nat) : (s.dropMsg id).uart = s.uart := rfl
@[simp] theorem State.dropMsg_setAgain (s : State) (id : Nat) : (s.dropMsg id).setAgain = s.setAgain := rfl

@[simp] theorem State.modFlow_pending (s : State) (n id : Nat) (g : Flow → Flow) : (s.modFlow n id g).pending = s.pending := rfl
@[simp] theorem State.modFlow_opTime (s : State) (n id : Nat) (g : Flow → Flow) : (s.modFlow n id g).opTime = s.opTime := rfl
@[simp] theorem State.modFlow_inst (s : State) (n id : Nat) (g : Flow → Flow) : (s.modFlow n id g).inst = s.inst := rfl
@[simp] theorem State.modFlow_glb (s : State) (n id : Nat) (g : Flow → Flow) : (s.modFlow n id g).glb = s.glb := rfl
@[simp] theorem State.modFlow_isl (s : State) (n id : Nat) (g : Flow → Flow) : (s.modFlow n id g).isl = s.isl := rfl
@[simp] theorem State.modFlow_otp (s : State) (n id : Nat) (g : Flow → Flow) : (s.modFlow n id g).otp = s.otp := rfl
@[simp] theorem State.modFlow_nor (s : State) (n id : Nat) (g : Flow → Flow) : (s.modFlow n id g).nor = s.nor := rfl
@[simp] theorem State.modFlow_prf (s : State) (n id : Nat) (g : Flow → Flow) : (s.modFlow n id g).prf = s.prf := rfl
@[simp] theorem State.modFlow_cfg (s : State) (n id : Nat) (g : Flow → Flow) : (s.modFlow n id g).cfg = s.cfg := rfl
@[simp] theorem State.modFlow_lcs (s : State) (n id : Nat) (g : Flow → Flow) : (s.modFlow n id g).lcs = s.lcs := rfl
@[simp] theorem State.modFlow_tmp (s : State) (n id : Nat) (g : Flow → Flow) : (s.modFlow n id g).tmp = s.tmp := rfl
@[simp] theorem State.modFlow_evr (s : State) (n id : Nat) (g : Flow → Flow) : (s.modFlow n id g).evr = s.evr := rfl
@[simp] theorem State.modFlow_hlt (s : State) (n id : Nat) (g : Flow → Flow) : (s.modFlow n id g).hlt = s.hlt := rfl
@[simp] theorem State.modFlow_pwr (s : State) (n id : Nat) (g : Flow → Flow) : (s.modFlow n id g).pwr = s.pwr := rfl
@[simp] theorem State.modFlow_rng (s : State) (n id : Nat) (g : Flow → Flow) : (s.modFlow n id g).rng = s.rng := rfl
@[simp] theorem State.modFlow_vlt (s : State) (n id : Nat) (g : Flow → Flow) : (s.modFlow n id g).vlt = s.vlt := rfl
@[simp] theorem State.modFlow_dom (s : State) (n id : Nat) (g : Flow → Flow) : (s.modFlow n id g).dom = s.dom := rfl
@[simp] theorem State.modFlow_eng (s : State) (n id : Nat) (g : Flow → Flow) : (s.modFlow n id g).eng = s.eng := rfl
@[simp] theorem State.modFlow_clu (s : State) (n id : Nat) (g : Flow → Flow) : (s.modFlow n id g).clu = s.clu := rfl
@[simp] theorem State.modFlow_acu (s : State) (n id : Nat) (g : Flow → Flow) : (s.modFlow n id g).acu = s.acu := rfl
@[simp] theorem State.modFlow_lnk (s : State) (n id : Nat) (g : Flow → Flow) : (s.modFlow n id g).lnk = s.lnk := rfl
@[simp] theorem State.modFlow_ident (s : State) (n id : Nat) (g : Flow → Flow) : (s.modFlow n id g).ident = s.ident := rfl
@[simp] theorem State.modFlow_out (s : State) (n id : Nat) (g : Flow → Flow) : (s.modFlow n id g).out = s.out := rfl
@[simp] theorem State.modFlow_irqs (s : State) (n id : Nat) (g : Flow → Flow) : (s.modFlow n id g).irqs = s.irqs := rfl
@[simp] theorem State.modFlow_reply (s : State) (n id : Nat) (g : Flow → Flow) : (s.modFlow n id g).reply = s.reply := rfl
@[simp] theorem State.modFlow_draw (s : State) (n id : Nat) (g : Flow → Flow) : (s.modFlow n id g).draw = s.draw := rfl
@[simp] theorem State.modFlow_uart (s : State) (n id : Nat) (g : Flow → Flow) : (s.modFlow n id g).uart = s.uart := rfl
@[simp] theorem State.modFlow_setAgain (s : State) (n id : Nat) (g : Flow → Flow) : (s.modFlow n id g).setAgain = s.setAgain := rfl

@[simp] theorem State.dropTemplates_pending (s : State) (p : Template → Bool) : (s.dropTemplates p).pending = s.pending := rfl
@[simp] theorem State.dropTemplates_opTime (s : State) (p : Template → Bool) : (s.dropTemplates p).opTime = s.opTime := rfl
@[simp] theorem State.dropTemplates_inst (s : State) (p : Template → Bool) : (s.dropTemplates p).inst = s.inst := rfl
@[simp] theorem State.dropTemplates_glb (s : State) (p : Template → Bool) : (s.dropTemplates p).glb = s.glb := rfl
@[simp] theorem State.dropTemplates_isl (s : State) (p : Template → Bool) : (s.dropTemplates p).isl = s.isl := rfl
@[simp] theorem State.dropTemplates_otp (s : State) (p : Template → Bool) : (s.dropTemplates p).otp = s.otp := rfl
@[simp] theorem State.dropTemplates_nor (s : State) (p : Template → Bool) : (s.dropTemplates p).nor = s.nor := rfl
@[simp] theorem State.dropTemplates_prf (s : State) (p : Template → Bool) : (s.dropTemplates p).prf = s.prf := rfl
@[simp] theorem State.dropTemplates_cfg (s : State) (p : Template → Bool) : (s.dropTemplates p).cfg = s.cfg := rfl
@[simp] theorem State.dropTemplates_lcs (s : State) (p : Template → Bool) : (s.dropTemplates p).lcs = s.lcs := rfl
@[simp] theorem State.dropTemplates_tmp (s : State) (p : Template → Bool) : (s.dropTemplates p).tmp = s.tmp := rfl
@[simp] theorem State.dropTemplates_evr (s : State) (p : Template → Bool) : (s.dropTemplates p).evr = s.evr := rfl
@[simp] theorem State.dropTemplates_hlt (s : State) (p : Template → Bool) : (s.dropTemplates p).hlt = s.hlt := rfl
@[simp] theorem State.dropTemplates_pwr (s : State) (p : Template → Bool) : (s.dropTemplates p).pwr = s.pwr := rfl
@[simp] theorem State.dropTemplates_rng (s : State) (p : Template → Bool) : (s.dropTemplates p).rng = s.rng := rfl
@[simp] theorem State.dropTemplates_vlt (s : State) (p : Template → Bool) : (s.dropTemplates p).vlt = s.vlt := rfl
@[simp] theorem State.dropTemplates_dom (s : State) (p : Template → Bool) : (s.dropTemplates p).dom = s.dom := rfl
@[simp] theorem State.dropTemplates_eng (s : State) (p : Template → Bool) : (s.dropTemplates p).eng = s.eng := rfl
@[simp] theorem State.dropTemplates_clu (s : State) (p : Template → Bool) : (s.dropTemplates p).clu = s.clu := rfl
@[simp] theorem State.dropTemplates_acu (s : State) (p : Template → Bool) : (s.dropTemplates p).acu = s.acu := rfl
@[simp] theorem State.dropTemplates_lnk (s : State) (p : Template → Bool) : (s.dropTemplates p).lnk = s.lnk := rfl
@[simp] theorem State.dropTemplates_ident (s : State) (p : Template → Bool) : (s.dropTemplates p).ident = s.ident := rfl
@[simp] theorem State.dropTemplates_out (s : State) (p : Template → Bool) : (s.dropTemplates p).out = s.out := rfl
@[simp] theorem State.dropTemplates_irqs (s : State) (p : Template → Bool) : (s.dropTemplates p).irqs = s.irqs := rfl
@[simp] theorem State.dropTemplates_reply (s : State) (p : Template → Bool) : (s.dropTemplates p).reply = s.reply := rfl
@[simp] theorem State.dropTemplates_draw (s : State) (p : Template → Bool) : (s.dropTemplates p).draw = s.draw := rfl
@[simp] theorem State.dropTemplates_uart (s : State) (p : Template → Bool) : (s.dropTemplates p).uart = s.uart := rfl
@[simp] theorem State.dropTemplates_setAgain (s : State) (p : Template → Bool) : (s.dropTemplates p).setAgain = s.setAgain := rfl

@[simp] theorem State.modInd_pending (s : State) (i : Nat) (f : Indicator → Indicator) : (s.modInd i f).pending = s.pending := rfl
@[simp] theorem State.modInd_opTime (s : State) (i : Nat) (f : Indicator → Indicator) : (s.modInd i f).opTime = s.opTime := rfl
@[simp] theorem State.modInd_inst (s : State) (i : Nat) (f : Indicator → Indicator) : (s.modInd i f).inst = s.inst := rfl
@[simp] theorem State.modInd_glb (s : State) (i : Nat) (f : Indicator → Indicator) : (s.modInd i f).glb = s.glb := rfl
@[simp] theorem State.modInd_isl (s : State) (i : Nat) (f : Indicator → Indicator) : (s.modInd i f).isl = s.isl := rfl
@[simp] theorem State.modInd_otp (s : State) (i : Nat) (f : Indicator → Indicator) : (s.modInd i f).otp = s.otp := rfl
@[simp] theorem State.modInd_nor (s : State) (i : Nat) (f : Indicator → Indicator) : (s.modInd i f).nor = s.nor := rfl
@[simp] theorem State.modInd_prf (s : State) (i : Nat) (f : Indicator → Indicator) : (s.modInd i f).prf = s.prf := rfl
@[simp] theorem State.modInd_cfg (s : State) (i : Nat) (f : Indicator → Indicator) : (s.modInd i f).cfg = s.cfg := rfl
@[simp] theorem State.modInd_lcs (s : State) (i : Nat) (f : Indicator → Indicator) : (s.modInd i f).lcs = s.lcs := rfl
@[simp] theorem State.modInd_tmp (s : State) (i : Nat) (f : Indicator → Indicator) : (s.modInd i f).tmp = s.tmp := rfl
@[simp] theorem State.modInd_evr (s : State) (i : Nat) (f : Indicator → Indicator) : (s.modInd i f).evr = s.evr := rfl
@[simp] theorem State.modInd_pwr (s : State) (i : Nat) (f : Indicator → Indicator) : (s.modInd i f).pwr = s.pwr := rfl
@[simp] theorem State.modInd_rng (s : State) (i : Nat) (f : Indicator → Indicator) : (s.modInd i f).rng = s.rng := rfl
@[simp] theorem State.modInd_vlt (s : State) (i : Nat) (f : Indicator → Indicator) : (s.modInd i f).vlt = s.vlt := rfl
@[simp] theorem State.modInd_dom (s : State) (i : Nat) (f : Indicator → Indicator) : (s.modInd i f).dom = s.dom := rfl
@[simp] theorem State.modInd_eng (s : State) (i : Nat) (f : Indicator → Indicator) : (s.modInd i f).eng = s.eng := rfl
@[simp] theorem State.modInd_clu (s : State) (i : Nat) (f : Indicator → Indicator) : (s.modInd i f).clu = s.clu := rfl
@[simp] theorem State.modInd_sch (s : State) (i : Nat) (f : Indicator → Indicator) : (s.modInd i f).sch = s.sch := rfl
@[simp] theorem State.modInd_acu (s : State) (i : Nat) (f : Indicator → Indicator) : (s.modInd i f).acu = s.acu := rfl
@[simp] theorem State.modInd_lnk (s : State) (i : Nat) (f : Indicator → Indicator) : (s.modInd i f).lnk = s.lnk := rfl
@[simp] theorem State.modInd_ident (s : State) (i : Nat) (f : Indicator → Indicator) : (s.modInd i f).ident = s.ident := rfl
@[simp] theorem State.modInd_out (s : State) (i : Nat) (f : Indicator → Indicator) : (s.modInd i f).out = s.out := rfl
@[simp] theorem State.modInd_irqs (s : State) (i : Nat) (f : Indicator → Indicator) : (s.modInd i f).irqs = s.irqs := rfl
@[simp] theorem State.modInd_reply (s : State) (i : Nat) (f : Indicator → Indicator) : (s.modInd i f).reply = s.reply := rfl
@[simp] theorem State.modInd_draw (s : State) (i : Nat) (f : Indicator → Indicator) : (s.modInd i f).draw = s.draw := rfl
@[simp] theorem State.modInd_uart (s : State) (i : Nat) (f : Indicator → Indicator) : (s.modInd i f).uart = s.uart := rfl
@[simp] theorem State.modInd_setAgain (s : State) (i : Nat) (f : Indicator → Indicator) : (s.modInd i f).setAgain = s.setAgain := rfl

@[simp] theorem State.modTandem_pending (s : State) (tid : Nat) (f : Tandem → Tandem) : (s.modTandem tid f).pending = s.pending := rfl
@[simp] theorem State.modTandem_opTime (s : State) (tid : Nat) (f : Tandem → Tandem) : (s.modTandem tid f).opTime = s.opTime := rfl
@[simp] theorem State.modTandem_inst (s : State) (tid : Nat) (f : Tandem → Tandem) : (s.modTandem tid f).inst = s.inst := rfl
@[simp] theorem State.modTandem_glb (s : State) (tid : Nat) (f : Tandem → Tandem) : (s.modTandem tid f).glb = s.glb := rfl
@[simp] theorem State.modTandem_isl (s : State) (tid : Nat) (f : Tandem → Tandem) : (s.modTandem tid f).isl = s.isl := rfl
@[simp] theorem State.modTandem_otp (s : State) (tid : Nat) (f : Tandem → Tandem) : (s.modTandem tid f).otp = s.otp := rfl
@[simp] theorem State.modTandem_nor (s : State) (tid : Nat) (f : Tandem → Tandem) : (s.modTandem tid f).nor = s.nor := rfl
@[simp] theorem State.modTandem_prf (s : State) (tid : Nat) (f : Tandem → Tandem) : (s.modTandem tid f).prf = s.prf := rfl
@[simp] theorem State.modTandem_cfg (s : State) (tid : Nat) (f : Tandem → Tandem) : (s.modTandem tid f).cfg = s.cfg := rfl
@[simp] theorem State.modTandem_lcs (s : State) (tid : Nat) (f : Tandem → Tandem) : (s.modTandem tid f).lcs = s.lcs := rfl
@[simp] theorem State.modTandem_tmp (s : State) (tid : Nat) (f : Tandem → Tandem) : (s.modTandem tid f).tmp = s.tmp := rfl
@[simp] theorem State.modTandem_evr (s : State) (tid : Nat) (f : Tandem → Tandem) : (s.modTandem tid f).evr = s.evr := rfl
@[simp] theorem State.modTandem_hlt (s : State) (tid : Nat) (f : Tandem → Tandem) : (s.modTandem tid f).hlt = s.hlt := rfl
@[simp] theorem State.modTandem_pwr (s : State) (tid : Nat) (f : Tandem → Tandem) : (s.modTandem tid f).pwr = s.pwr := rfl
@[simp] theorem State.modTandem_rng (s : State) (tid : Nat) (f : Tandem → Tandem) : (s.modTandem tid f).rng = s.rng := rfl
@[simp] theorem State.modTandem_vlt (s : State) (tid : Nat) (f : Tandem → Tandem) : (s.modTandem tid f).vlt = s.vlt := rfl
@[simp] theorem State.modTandem_eng (s : State) (tid : Nat) (f : Tandem → Tandem) : (s.modTandem tid f).eng = s.eng := rfl
@[simp] theorem State.modTandem_clu (s : State) (tid : Nat) (f : Tandem → Tandem) : (s.modTandem tid f).clu = s.clu := rfl
@[simp] theorem State.modTandem_sch (s : State) (tid : Nat) (f : Tandem → Tandem) : (s.modTandem tid f).sch = s.sch := rfl
@[simp] theorem State.modTandem_acu (s : State) (tid : Nat) (f : Tandem → Tandem) : (s.modTandem tid f).acu = s.acu := rfl
@[simp] theorem State.modTandem_lnk (s : State) (tid : Nat) (f : Tandem → Tandem) : (s.modTandem tid f).lnk = s.lnk := rfl
@[simp] theorem State.modTandem_ident (s : State) (tid : Nat) (f : Tandem → Tandem) : (s.modTandem tid f).ident = s.ident := rfl
@[simp] theorem State.modTandem_out (s : State) (tid : Nat) (f : Tandem → Tandem) : (s.modTandem tid f).out = s.out := rfl
@[simp] theorem State.modTandem_irqs (s : State) (tid : Nat) (f : Tandem → Tandem) : (s.modTandem tid f).irqs = s.irqs := rfl
@[simp] theorem State.modTandem_reply (s : State) (tid : Nat) (f : Tandem → Tandem) : (s.modTandem tid f).reply = s.reply := rfl
@[simp] theorem State.modTandem_draw (s : State) (tid : Nat) (f : Tandem → Tandem) : (s.modTandem tid f).draw = s.draw := rfl
@[simp] theorem State.modTandem_uart (s : State) (tid : Nat) (f : Tandem → Tandem) : (s.modTandem tid f).uart = s.uart := rfl
@[simp] theorem State.modTandem_setAgain (s : State) (tid : Nat) (f : Tandem → Tandem) : (s.modTandem tid f).setAgain = s.setAgain := rfl

end Sys2Proof.Machine
end

