-- ==== Sys2Proof/Laws/Crypto.lean ====
section
/-! SUPPORT. Lengths, and parts of byte strings, in the ciphers and digests. -/

namespace Sys2Proof.Machine

/-- A block has bytes. -/
theorem Hash.block_pos (h : Hash) : 0 < h.block := by cases h <;> decide

/-- Enough fuel is as good as any. -/
theorem Hash.absorbF_fuel (h : Hash) (f g : Nat) (st : List (BitVec 64)) (b : Bytes) (hf : b.length / h.block ≤ f) (hg : b.length / h.block ≤ g) :
    h.absorbF f st b = h.absorbF g st b := by
  have hb := Hash.block_pos h
  have key : ∀ (b : Bytes) (st : List (BitVec 64)), b.length < h.block → ∀ f, h.absorbF f st b = (st, b) := by
    intro b st hl f; cases f <;> simp [Hash.absorbF, hl]
  induction f generalizing g st b with
  | zero =>
    have : b.length < h.block := by
      rcases Nat.lt_or_ge b.length h.block with hc | hc
      · exact hc
      · have := Nat.div_pos hc hb; omega
    rw [key b st this, key b st this]
  | succ f ih =>
    rcases Nat.lt_or_ge b.length h.block with hc | hc
    · rw [key b st hc, key b st hc]
    · cases g with
      | zero => have := Nat.div_pos hc hb; omega
      | succ g =>
        have hd : (b.drop h.block).length / h.block = b.length / h.block - 1 := by
          rw [List.length_drop]; have := Nat.div_eq_sub_div hb hc; rw [this, Nat.add_sub_cancel]
        simp only [Hash.absorbF, Nat.not_lt.mpr hc, if_false]
        exact ih _ _ _ (by rw [hd]; omega) (by rw [hd]; omega)

theorem Hash.absorbF_append (h : Hash) (f : Nat) (st : List (BitVec 64)) (b y : Bytes) (hf : b.length / h.block ≤ f) (g : Nat) (hg : (b.length + y.length) / h.block ≤ g) :
    h.absorbF g st (b ++ y) = h.absorbF (((h.absorbF f st b).2.length + y.length) / h.block) (h.absorbF f st b).1 ((h.absorbF f st b).2 ++ y) := by
  have hb := Hash.block_pos h
  induction f generalizing g st b with
  | zero =>
    simp only [Hash.absorbF]
    apply Hash.absorbF_fuel <;> simp [hg]
  | succ f ih =>
    rcases Nat.lt_or_ge b.length h.block with hc | hc
    · simp only [Hash.absorbF, hc, if_true]
      apply Hash.absorbF_fuel <;> simp [hg]
    · simp only [Hash.absorbF, Nat.not_lt.mpr hc, if_false]
      cases g with
      | zero =>
        have : 0 < (b.length + y.length) / h.block := Nat.div_pos (by omega) hb
        omega
      | succ g =>
        have hd : (b.drop h.block).length / h.block = b.length / h.block - 1 := by
          rw [List.length_drop]; have := Nat.div_eq_sub_div hb hc; rw [this, Nat.add_sub_cancel]
        have hd2 : ((b.drop h.block).length + y.length) / h.block = (b.length + y.length) / h.block - 1 := by
          rw [List.length_drop]; have := Nat.div_eq_sub_div hb (show h.block ≤ b.length + y.length by omega)
          rw [show b.length - h.block + y.length = b.length + y.length - h.block by omega, this, Nat.add_sub_cancel]
        rw [← ih (h.step st (b.take h.block)) (b.drop h.block) (by rw [hd]; omega) g (by rw [hd2]; omega)]
        rw [Hash.absorbF, if_neg (by simp; omega), List.take_append_of_le_length hc, List.drop_append_of_le_length hc]

/-- Bytes taken in two parts leave what they leave together. -/
theorem Hash.absorb_append (h : Hash) (st : List (BitVec 64)) (held x y : Bytes) :
    h.absorb st held (x ++ y) = h.absorb (h.absorb st held x).1 (h.absorb st held x).2 y := by
  unfold Hash.absorb
  rw [← List.append_assoc]
  exact Hash.absorbF_append h _ st (held ++ x) y (by simp) _ (by simp [Nat.add_assoc])

/-- A whole block is one step. -/
theorem Hash.absorb_pad (h : Hash) (p x : Bytes) (hp : p.length = h.block) (st : List (BitVec 64)) :
    h.absorb st [] (p ++ x) = h.absorb (h.step st p) [] x := by
  have hb := Hash.block_pos h
  rw [Hash.absorb_append]
  have : h.absorb st [] p = (h.step st p, []) := by
    unfold Hash.absorb
    simp [hp, Nat.div_self hb, Hash.absorbF]
    rw [List.take_of_length_le (by omega)]
  rw [this]

/-- The part of two chunks is the parts of each. -/
theorem part_append (x y : Bytes) (p a b : Nat) : part (x ++ y) p a b = part x p a b ++ part y (p + x.length) a b := by
  unfold part
  dsimp only
  apply List.ext_getElem?
  intro i
  rw [List.getElem?_append]
  simp only [List.getElem?_take, List.getElem?_drop, List.length_take, List.length_drop, List.length_append]
  rw [List.getElem?_append]
  split <;> split <;> split <;> first
    | (exfalso; omega)
    | rfl
    | (split <;> first | (exfalso; omega) | rfl | (congr 1; omega) | (rw [List.getElem?_eq_none]; omega))

theorem part_whole (x : Bytes) : part x 0 0 x.length = x := by simp [part]

theorem fit_length (n : Nat) (b : Bytes) : (fit n b).length = n := by simp [fit, zeros]; omega

/-- A block enciphered is a block. -/
theorem aesEnc_length (key blk : Bytes) : (aesEnc key blk).length = 16 := rfl

/-- Exclusive or with the same bytes again. -/
theorem xorB_xorB (x k : Bytes) (h : x.length ≤ k.length) : xorB (xorB x k) k = x := by
  unfold xorB
  apply List.ext_getElem
  · simp; omega
  · intro i h1 h2
    simp [BitVec.xor_assoc]

theorem xorB_length (x k : Bytes) (h : x.length ≤ k.length) : (xorB x k).length = x.length := by
  simp [xorB]; omega

theorem keystream_blocks_length (l : List Nat) (key : Bytes) (c : Nat → Bytes) : (l.flatMap (fun i => aesEnc key (c i))).length = 16 * l.length := by
  induction l with
  | nil => rfl
  | cons a l ih => simp [List.flatMap_cons, ih, aesEnc_length]; omega

/-- A keystream has the length asked for. -/
theorem keystream_length (key : Bytes) (c : Nat → Bytes) (o n : Nat) : (keystream key c o n).length = n := by
  unfold keystream
  dsimp only
  rw [List.length_take, List.length_drop, keystream_blocks_length _ key (fun i => c (o / 16 + i))]
  simp [ceilDiv]; omega

/-- Enough fuel is as good as any. -/
theorem chunksF_fuel (n : Nat) (hn : 0 < n) (f : Nat) (b : Bytes) (hf : b.length ≤ f) : chunksF n f b = chunks n b := by
  induction f using Nat.strongRecOn generalizing b with
  | _ f ih =>
    cases b with
    | nil => cases f <;> rfl
    | cons a b =>
      cases f with
      | zero => simp at hf
      | succ f =>
        simp only [chunks, chunksF, List.length_cons]
        simp only [List.isEmpty_cons, Bool.false_eq_true, if_false]
        congr 1
        have hd : ((a :: b).drop n).length ≤ b.length := by simp; omega
        simp at hf
        rw [ih f (by omega) _ (by omega)]
        rcases Nat.lt_or_ge b.length (f+1) with hc | hc
        · exact (ih b.length (by omega) _ hd).symm
        · omega

/-- The first chunk, and the chunks of the rest. -/
theorem chunks_cons (n : Nat) (hn : 0 < n) (x : Bytes) (hx : x ≠ []) : chunks n x = x.take n :: chunks n (x.drop n) := by
  cases x with
  | nil => exact absurd rfl hx
  | cons a b =>
    simp only [chunks, List.length_cons, chunksF]
    simp only [List.isEmpty_cons, Bool.false_eq_true, if_false]
    congr 1
    exact chunksF_fuel n hn _ _ (by simp; omega)

/-- Induction over chunks of 16 bytes. -/
theorem chunks_induction {P : Bytes → Prop} (h0 : P []) (h1 : ∀ x, x ≠ [] → P (x.drop 16) → P x) (x : Bytes) : P x := by
  generalize hn : x.length = n
  induction n using Nat.strongRecOn generalizing x with
  | _ n ih =>
    rcases x with _ | ⟨a, b⟩
    · exact h0
    · exact h1 _ (by simp) (ih _ (by simp at hn; simp; omega) _ rfl)

end Sys2Proof.Machine
end

