-- ==== Sys2Proof/Laws/Frame.lean ====
section
/-! SUPPORT. What the shared operations of messages leave as it is. -/

namespace Sys2Proof.Machine

theorem State.keeps_refl (s : State) : s.keeps s := by
  unfold State.keeps
  refine ⟨rfl, rfl, rfl, rfl, rfl, rfl, rfl, rfl, rfl, rfl, rfl, rfl, rfl, rfl, rfl, rfl, rfl, rfl, rfl, rfl, rfl, rfl, rfl,
    rfl, rfl, rfl⟩

theorem State.keeps_trans {s t u : State} (h : s.keeps t) (k : t.keeps u) : s.keeps u := by
  unfold State.keeps at h k ⊢
  obtain ⟨h1, h2, h3, h4, h5, h6, h7, h8, h9, h10, h11, h12, h13, h14, h15, h16, h17, h18, h19, h20, h21, h22, h23, h24, h25,
    h26⟩ := h
  obtain ⟨k1, k2, k3, k4, k5, k6, k7, k8, k9, k10, k11, k12, k13, k14, k15, k16, k17, k18, k19, k20, k21, k22, k23, k24, k25,
    k26⟩ := k
  exact ⟨k1.trans h1, k2.trans h2, k3.trans h3, k4.trans h4, k5.trans h5, k6.trans h6, k7.trans h7, k8.trans h8,
    k9.trans h9, k10.trans h10, k11.trans h11, k12.trans h12, k13.trans h13, k14.trans h14, k15.trans h15, k16.trans h16,
    k17.trans h17, k18.trans h18, k19.trans h19, k20.trans h20, k21.trans h21, k22.trans h22, k23.trans h23, k24.trans h24,
    k25.trans h25, k26.trans h26⟩

/-- A fold of acts that keep the rest keeps it. -/
theorem State.keeps_foldl {α : Type} (f : State → α → State) (hf : ∀ (t : State) (a : α), t.keeps (f t a)) (l : List α) (s : State) :
    s.keeps (l.foldl f s) := by
  induction l generalizing s with
  | nil => exact State.keeps_refl s
  | cons a l ih => exact State.keeps_trans (hf s a) (ih (f s a))

theorem State.keeps_modInst (s : State) (n : Nat) (f : InstRec → InstRec) : s.keeps (s.modInst n f) := s.keeps_refl

theorem State.keeps_modMsg (s : State) (id : Nat) (f : MsgRec → MsgRec) : s.keeps (s.modMsg id f) := s.keeps_refl

theorem State.keeps_dropMsg (s : State) (id : Nat) : s.keeps (s.dropMsg id) := s.keeps_refl

theorem State.keeps_modFlow (s : State) (n f : Nat) (g : Flow → Flow) : s.keeps (s.modFlow n f g) := s.keeps_refl

theorem State.keeps_stopEngine (s : State) (id : Nat) : s.keeps (s.stopEngine id) := s.keeps_refl

theorem State.keeps_setPending (s : State) (n v : Nat) (b : Bool) : s.keeps (s.setPending n v b) := by
  unfold State.setPending
  split
  · unfold State.keeps
    refine ⟨rfl, rfl, rfl, rfl, rfl, rfl, rfl, rfl, rfl, rfl, rfl, rfl, rfl, rfl, rfl, rfl, rfl, rfl, rfl, rfl, rfl, rfl, rfl,
      rfl, rfl, rfl⟩
  · exact s.keeps_modInst _ _

theorem State.keeps_raise (s : State) (n v : Nat) : s.keeps (s.raise n v) := by
  unfold State.raise
  split
  · exact s.keeps_refl
  · split
    · exact s.keeps_setPending n v true
    · exact s.keeps_refl

theorem State.keeps_markPage (s : State) (n p : Nat) : s.keeps (s.markPage n p) := by
  unfold State.markPage
  dsimp only
  split
  · exact s.keeps_modInst _ _
  · repeat' split
    all_goals exact s.keeps_refl

/-- A write to the host. -/
theorem State.keeps_hostWrite (s : State) (w : HostWrite) : s.keeps (s.hostWrite w) := by
  unfold State.hostWrite
  dsimp only
  split
  · exact State.keeps_trans s.keeps_refl (State.keeps_foldl _ (fun t i => t.keeps_markPage _ _) _ _)
  · exact s.keeps_refl

theorem State.keeps_holdRecord (s : State) (r : EvRecord) : s.keeps (s.holdRecord r) := by
  have h : s.keeps (if s.evr.lostNow.isEmpty then s.raise 0 3 else s) := by
    split
    · exact s.keeps_raise 0 3
    · exact s.keeps_refl
  unfold State.holdRecord
  dsimp only
  split
  · exact s.keeps_refl
  · split <;> exact h

theorem State.keeps_recorderStop (s : State) : s.keeps s.recorderStop := by
  unfold State.recorderStop
  generalize (if s.lc == 5 || s.lcs.lostCause == 4 then 1 else if s.evr.wearAvg ≥ 3000 then 2 else 0) = c
  dsimp only
  split <;> exact s.keeps_refl

theorem State.keeps_storeBatch (s : State) : s.keeps s.storeBatch := s.keeps_refl

theorem State.keeps_closeBatch (s : State) : s.keeps s.closeBatch := by
  unfold State.closeBatch
  split
  · exact s.keeps_refl
  · exact State.keeps_trans s.keeps_storeBatch (State.keeps_recorderStop _)

theorem State.keeps_appendRecord (s : State) (r : EvRecord) : s.keeps (s.appendRecord r) := by
  unfold State.appendRecord
  dsimp only
  split
  · exact s.keeps_refl
  · split
    · exact State.keeps_trans s.keeps_refl (State.keeps_closeBatch _)
    · exact s.keeps_refl

/-- A record. -/
theorem State.keeps_record (s : State) (t c v : Nat) (p : Bytes) : s.keeps (s.record t c v p) := by
  unfold State.record State.recordWith
  dsimp only
  split
  · exact s.keeps_refl
  · split
    · exact State.keeps_trans s.keeps_refl (State.keeps_appendRecord _ _)
    · exact State.keeps_trans s.keeps_refl (State.keeps_holdRecord _ _)

/-- A violation of an instance. -/
theorem State.keeps_violation (s : State) (n k a : Nat) : s.keeps (s.violation n k a) := by
  unfold State.violation
  dsimp only
  split
  · exact s.keeps_refl
  · exact State.keeps_trans (s.keeps_modInst _ _) (State.keeps_record _ _ _ _ _)

theorem State.keeps_countRefusal (s : State) (n a : Nat) (st : BitVec 16) : s.keeps (s.countRefusal n a st) := by
  have h : s.keeps (match busyClass st with
    | 1 => { s.modInst n (fun i => { i with busyQuota := satAdd 16 i.busyQuota 1 }) with
             sch := { s.sch with busyQuota := satAdd 16 s.sch.busyQuota 1 } }
    | 2 => { s.modInst n (fun i => { i with busyDevice := satAdd 16 i.busyDevice 1 }) with
             sch := { s.sch with busyDevice := satAdd 16 s.sch.busyDevice 1 } }
    | 3 => { s with sch := { s.sch with busyFlows := satAdd 16 s.sch.busyFlows 1 } }
    | 4 => { s with sch := { s.sch with busyNoEngine := satAdd 16 s.sch.busyNoEngine 1 } }
    | _ => s) := by
    split <;> exact s.keeps_refl
  unfold State.countRefusal
  dsimp only
  split
  · exact State.keeps_trans h (State.keeps_violation _ _ _ _)
  · exact h

theorem State.keeps_releaseHeld (s : State) (r : MsgRec) : s.keeps (s.releaseHeld r) := by
  unfold State.releaseHeld
  dsimp only
  cases r.reserved <;> cases r.tandem <;> exact s.keeps_refl

theorem State.keeps_release (s : State) (r : MsgRec) (b : Bytes) : s.keeps (s.release r b).1 := by
  unfold State.release
  split
  · exact s.keeps_refl
  · exact State.keeps_foldl _ (fun t w => t.keeps_hostWrite _) _ _

theorem State.keeps_closeStream (s : State) (n f : Nat) : s.keeps (s.closeStream n f) := by
  unfold State.closeStream
  dsimp only
  split <;> exact s.keeps_refl

theorem State.keeps_batchClose (s : State) : s.keeps s.batchClose := by
  unfold State.batchClose
  split
  · exact s.keeps_refl
  · dsimp only
    split <;> exact s.keeps_refl

theorem State.keeps_useLine (s : State) (k : Option KeyRef) : s.keeps (s.useLine k) := by
  unfold State.useLine
  split
  · split <;> exact s.keeps_refl
  · exact s.keeps_refl

theorem State.keeps_writeLine (s : State) (n : Nat) : s.keeps (s.writeLine n) := by
  unfold State.writeLine
  exact s.keeps_hostWrite _

end Sys2Proof.Machine
end

