-- ==== Sys2Proof/Laws/Run.lean ====
section
/-! SUPPORT. What a command, the end of a command and the admission of a message can do. -/

namespace Sys2Proof.Machine

/-! The end of a command -/

@[simp] theorem State.settle_pending (old s : State) : (old.settle s).pending = old.pending := by
  unfold State.settle
  rfl

@[simp] theorem State.settle_otp (old s : State) :
    (old.settle s).otp = ((s.carryOut old).pump.alertFrom old).otp.over old.otp := by
  unfold State.settle
  rfl

/-- A row after a command holds what it held, and the bits that were programmed. -/
theorem Otp.over_row (new old : Otp) (i : Nat) (h : i < 20) : (new.over old).row i = old.row i ||| new.row i := by
  simp [Otp.row, Otp.over, h]

/-- No bit of an antifuse row is cleared. -/
theorem Otp.over_holds (new old : Otp) : (new.over old).holds old = true := by
  simp only [Otp.holds, Bool.and_eq_true, List.all_eq_true, List.mem_range, beq_iff_eq]
  refine ⟨fun i hi => ?_, ?_⟩
  · rw [Otp.over_row new old i hi]
    ext j hj
    simp
    intro h
    simp [h]
  · simp only [Otp.over]
    ext j hj
    simp
    intro h
    simp [h]

/-- Every meaning ends by settling what its own effect leaves. -/
theorem exec_settles (c : Instr) (s : State) : ∃ t, exec c s = .next (s.settle t) := by
  cases c <;> exact ⟨_, rfl⟩

/-- A step leaves an idle module as it is, or settles an effect on the state with its front command taken. -/
theorem step_settles (s t : State) (h : step s = .next t) :
    t = s ∨ ∃ u, t = State.settle { s with pending := s.pending.tail } u := by
  unfold step at h
  split at h
  · rename_i hp
    cases h
    unfold State.tick
    split
    · refine Or.inr ⟨s.advance (s.opTime + 1), ?_⟩
      have : ({ s with pending := s.pending.tail } : State) = s := by rw [hp]; cases s; simp_all
      rw [this]
    · exact Or.inl rfl
  · rename_i c rest hp
    obtain ⟨u, hu⟩ := exec_settles c { s with pending := rest }
    rw [hu] at h
    cases h
    exact Or.inr ⟨u, by rw [hp]; rfl⟩

/-- Work that has its place keeps it. -/
theorem State.stampReady_of_placed (s : State) (h : s.sch.msgs.all (fun r => !(r.stamp == 0 && s.lapReady r)) = true) :
    s.stampReady = s := by
  have key : ∀ (l : List MsgRec) (n : Nat) (acc : List MsgRec), l.all (fun r => !(r.stamp == 0 && s.lapReady r)) = true →
      l.foldl (fun (a : Nat × List MsgRec) r =>
        if r.stamp == 0 && s.lapReady r then (a.1 + 1, { r with stamp := a.1 } :: a.2) else (a.1, r :: a.2)) (n, acc)
        = (n, l.reverse ++ acc) := by
    intro l
    induction l with
    | nil => intro n acc _; rfl
    | cons r l ih =>
      intro n acc hl
      simp only [List.all_cons, Bool.and_eq_true, Bool.not_eq_true'] at hl
      rw [List.foldl_cons, hl.1]
      simp only [Bool.false_eq_true, if_false]
      rw [ih n (r :: acc) hl.2]
      simp
  unfold State.stampReady
  rw [key _ _ _ h]
  simp

/-- A state that nothing follows is left as it is. -/
theorem State.pump_of_quiet (s : State) (h : s.quiet = true) : s.pump = s := by
  unfold State.pump
  unfold State.quiet at h
  by_cases hb : s.pwr.booted
  · simp [hb] at h
    obtain ⟨⟨⟨⟨hs, hd⟩, hl⟩, hp⟩, hr⟩ := h
    have hv : s.voteFields = s := by simp [State.voteFields, hs, hd]
    simp only [hb, hv, Bool.not_true, hl, Bool.false_eq_true, if_false]
    rw [show 64 + 32 * s.sch.msgs.length = (63 + 32 * s.sch.msgs.length) + 1 by omega, State.pumpF, hp]
    exact s.stampReady_of_placed (by simpa using hr)
  · simp [hb]

/-! The admission of a message -/

/-- A message that passes steps 8 and 9 is admitted. -/
theorem State.afterStep8_of_passed8 (s : State) (r : MsgRec) (p : State × MsgRec) (h : s.passed8 r = some p) :
    s.afterStep8 r (s.step8 r) = p.1.admitMsg p.2 := by
  unfold State.passed8 at h
  cases hs : s.step8 r with
  | ok t x =>
    simp only [hs] at h
    cases hc : t.check9 x with
    | some f => simp [hc] at h
    | none =>
      simp only [hc, Option.isSome_none, Bool.false_eq_true, if_false, Option.some.injEq] at h
      subst h
      simp [State.afterStep8, State.step9, hc]
  | no f t => simp [hs] at h
  | build t => simp [hs] at h
  | hold => simp [hs] at h
  | work l => simp [hs] at h

theorem State.proceed8_of_passed7 (s : State) (r : MsgRec) (p : State × MsgRec) (h : s.passed7 r = some p) :
    s.proceed8 r = p.1.admitMsg p.2 := by
  unfold State.passed7 at h
  unfold State.proceed8
  by_cases hb : s.blocked8 r
  · simp [hb] at h
  · simp only [hb, Bool.false_eq_true, if_false] at h ⊢
    by_cases hz : r.op == Op.zrmRecord
    · simp only [hz, if_true] at h ⊢
      cases hc : s.zrmConvert r with
      | inl y => simp [hc] at h
      | inr x =>
        simp only [hc] at h ⊢
        by_cases hx : s.blocked8 x
        · simp [hx] at h
        · simp only [hx, Bool.false_eq_true, if_false] at h ⊢
          exact State.afterStep8_of_passed8 s x p h
    · simp only [hz, Bool.false_eq_true, if_false] at h ⊢
      exact State.afterStep8_of_passed8 s r p h

theorem State.proceed5_of_passed5 (s : State) (r : MsgRec) (p : State × MsgRec) (h : s.passed5 r = some p) :
    s.proceed5 r = p.1.admitMsg p.2 := by
  unfold State.passed5 at h
  unfold State.proceed5
  cases h5 : s.check5 r.op r.m with
  | some f => simp [h5] at h
  | none =>
    simp only [h5, Option.isSome_none, Bool.false_eq_true, if_false] at h
    dsimp only at h ⊢
    generalize (if r.op.isData && r.m.flowId != 0 then some r.m.flowId else none) = fl at h ⊢
    split at h
    · cases h
    · rename_i h6
      split at h
      · cases h
      · rename_i h7
        simp only [Bool.not_eq_true, Option.isSome_eq_false_iff, Option.isNone_iff_eq_none] at h6 h7
        simp only [h6, h7]
        exact State.proceed8_of_passed7 _ _ p h

/-- A message that passes steps 1 to 9 begins to execute. -/
theorem State.message_of_passed (s : State) (o : Op) (m : Msg) (p : State × MsgRec) (h : s.passed o m = some p) :
    s.message o m = p.1.admitMsg p.2 := by
  unfold State.passed at h
  split at h
  · cases h
  · rename_i hc
    simp only [Bool.or_eq_true, not_or, Bool.not_eq_true, Bool.not_eq_false', Option.isSome_eq_false_iff,
      Option.isNone_iff_eq_none] at hc
    obtain ⟨⟨⟨hf, h12⟩, h4⟩, hb⟩ := hc
    have := State.proceed5_of_passed5 _ _ p h
    simp [State.message, hf, State.intake, h12, h4, hb, this]

/-- The same, in the state and with the record of its execution. -/
theorem State.message_of_admitted (s : State) (o : Op) (m : Msg) (p : State × MsgRec) (h : s.admitted o m = some p) :
    s.message o m = p.1.execute p.2 := by
  unfold State.admitted at h
  cases hp : s.passed o m with
  | none => simp [hp] at h
  | some q =>
    simp [hp] at h
    subst h
    exact State.message_of_passed s o m q hp

/-- What step 8 leaves of a message's record: all but its keys, its tandem and its reserved number. -/
theorem State.step8_ok (s : State) (r : MsgRec) (t : State) (x : MsgRec) (h : s.step8 r = .ok t x) :
    x = { r with keyA := x.keyA, keyB := x.keyB, tandem := x.tandem, reserved := x.reserved } := by
  have hd : ∀ (s : State) (r : MsgRec), s.dataEnd8 r = .ok t x →
      x = { r with keyA := x.keyA, keyB := x.keyB, tandem := x.tandem, reserved := x.reserved } := by
    intro s r h
    unfold State.dataEnd8 at h
    split at h
    · cases h
    · split at h
      · cases h; rfl
      · dsimp only at h
        split at h
        · cases h
        · split at h <;> (cases h; rfl)
  unfold State.step8 at h
  split at h
  · unfold State.flowOpen8 at h
    split at h
    · cases h
    · split at h
      · cases h
      · split at h
        · cases h
        · cases h; rfl
  · split at h
    · split at h
      · unfold State.flow8 at h
        split at h
        · cases h
        · split at h
          · cases h
          · have := hd _ _ h
            rw [this]
      · unfold State.template8 at h
        dsimp only at h
        split at h
        · split at h
          · cases h
          · split at h
            · cases h
            · split at h
              · cases h
              · have := hd _ _ h
                rw [this]
        · split at h <;> cases h
    · split at h
      · cases h
      · cases h
      · cases h
      · unfold State.controlOk at h
        dsimp only at h
        split at h
        all_goals
          repeat' split at h
          all_goals (cases h; rfl)

theorem State.passed8_record (s : State) (r : MsgRec) (p : State × MsgRec) (h : s.passed8 r = some p) :
    p.2 = { r with keyA := p.2.keyA, keyB := p.2.keyB, tandem := p.2.tandem, reserved := p.2.reserved } := by
  unfold State.passed8 at h
  split at h
  · rename_i t x hs
    split at h
    · cases h
    · cases h
      exact State.step8_ok s r t x hs
  · cases h

/-- The record of a message outside record mode that passes steps 1 to 9. -/
theorem State.passed_record (s : State) (o : Op) (m : Msg) (p : State × MsgRec) (ho : o ≠ .zrmRecord)
    (h : s.passed o m = some p) :
    p.2 = { s.newRec o m with m := Msg.whole m, flow := p.2.flow, keyA := p.2.keyA, keyB := p.2.keyB,
                              tandem := p.2.tandem, reserved := p.2.reserved } := by
  unfold State.passed at h
  split at h
  · cases h
  · unfold State.passed5 at h
    split at h
    · cases h
    · dsimp only at h
      generalize (if (s.newRec o m).op.isData && (s.newRec o m).m.flowId != 0 then some (s.newRec o m).m.flowId
        else none) = fl at h
      split at h
      · cases h
      · split at h
        · cases h
        · unfold State.passed7 at h
          split at h
          · cases h
          · have hz : ((s.newRec o m).op == Op.zrmRecord) = false := by simpa [State.newRec] using ho
            simp only [hz, Bool.false_eq_true, if_false] at h
            have := State.passed8_record _ _ p h
            rw [this]
            rfl

/-- The record with which a message outside record mode begins to execute. -/
theorem State.admitted_record (s : State) (o : Op) (m : Msg) (p : State × MsgRec) (ho : o ≠ .zrmRecord)
    (h : s.admitted o m = some p) :
    p.2 = { s.newRec o m with m := Msg.whole m, flow := p.2.flow, keyA := p.2.keyA, keyB := p.2.keyB, phase := .ready,
                              tandem := none, reserved := p.2.reserved } := by
  unfold State.admitted at h
  cases hp : s.passed o m with
  | none => simp [hp] at h
  | some q =>
    simp [hp] at h
    subst h
    have := State.passed_record s o m q ho hp
    simp only [MsgRec.entered]
    rw [this]

theorem State.admitted_op (s : State) (o : Op) (m : Msg) (p : State × MsgRec) (ho : o ≠ .zrmRecord)
    (h : s.admitted o m = some p) : p.2.op = o := by
  rw [State.admitted_record s o m p ho h]; rfl

/-- A message that passes step 9 is found among the messages. -/
theorem State.findMsg_enter (s : State) (r : MsgRec) : (s.enter r).findMsg r.id = some r.entered := by
  have hn (l : List MsgRec) : ((l.filter (fun x => x.id != r.id)) ++ [r.entered]).find? (fun x => x.id == r.id)
      = some r.entered := by
    rw [List.find?_append]
    have : (l.filter (fun x => x.id != r.id)).find? (fun x => x.id == r.id) = none := by simp
    rw [this]
    simp [MsgRec.entered]
  unfold State.enter State.findMsg State.dropMsg
  exact hn _

theorem State.admitted_find (s : State) (o : Op) (m : Msg) (p : State × MsgRec) (h : s.admitted o m = some p) :
    p.1.findMsg p.2.id = some p.2 := by
  unfold State.admitted at h
  cases hp : s.passed o m with
  | none => simp [hp] at h
  | some q =>
    simp [hp] at h
    subst h
    exact State.findMsg_enter q.1 q.2

/-! Control-path messages -/

/-- Once its draws are served, a control-path message acts, or waits for the work of the internal world. -/
theorem State.runControlF_of_drawnF (f : Nat) (s : State) (id : Nat) (p : State × MsgRec) (h : s.drawnF f id = some p) :
    s.runControlF f id = if p.1.workDone p.2 then (p.1.useServed (.message p.2.id)).actNow p.2
      else p.1.askInternal p.2 (p.1.internalWork p.2) := by
  induction f generalizing s with
  | zero => simp [State.drawnF] at h
  | succ f ih =>
    unfold State.drawnF at h
    unfold State.runControlF
    cases hm : s.findMsg id with
    | none => simp [hm] at h
    | some r =>
      simp only [hm] at h ⊢
      split at h
      · cases h
      · rename_i hr
        simp only [hr, Bool.false_eq_true, if_false]
        cases hd : nextDraw (s.controlDraws r) r.random.length with
        | none =>
          simp only [hd] at h ⊢
          cases h
          rfl
        | some d =>
          simp only [hd] at h ⊢
          split at h
          · cases h
          · rename_i hk
            simp only [hk, Bool.false_eq_true, if_false]
            unfold State.drawFor
            split at h
            · rename_i b t hq
              simp only [hq]
              exact ih _ h
            · cases h

/-- A message whose record is changed, but not its number, is found with the change. -/
theorem State.findMsg_modMsg (s : State) (id : Nat) (f : MsgRec → MsgRec) (r : MsgRec) (hf : ∀ x, (f x).id = x.id)
    (h : s.findMsg id = some r) : (s.modMsg id f).findMsg id = some (f r) := by
  have key : ∀ l : List MsgRec, l.find? (fun x => x.id == id) = some r →
      (l.map (fun x => if x.id == id then f x else x)).find? (fun x => x.id == id) = some (f r) := by
    intro l
    induction l with
    | nil => intro h; simp at h
    | cons a l ih =>
      intro h
      by_cases ha : a.id = id
      · rw [List.find?_cons_of_pos (by simpa using ha)] at h
        cases h
        simp [ha, hf]
      · rw [List.find?_cons_of_neg (by simpa using ha)] at h
        rw [List.map_cons, List.find?_cons_of_neg (by simp [ha])]
        exact ih h
  exact key _ h

/-- What the queue of a generator gives changes no message. -/
theorem State.request_msgs (s t : State) (g n : Nat) (b : Bytes) (h : s.request g n = .bytes b t) :
    t.sch = s.sch := by
  unfold State.request at h
  split at h
  · cases h
  · split at h
    · cases h
    · split at h
      · rename_i q hq
        cases h
        unfold State.takeQueue at hq
        dsimp only at hq
        split at hq
        · cases hq; rfl
        · cases hq
      · cases h

/-- The draws of a message change its random bytes alone. -/
theorem State.drawnF_record (f : Nat) (s : State) (id : Nat) (r : MsgRec) (p : State × MsgRec)
    (hr : s.findMsg id = some r) (h : s.drawnF f id = some p) :
    p.1.findMsg id = some p.2 ∧ p.2 = { r with random := p.2.random } := by
  induction f generalizing s r with
  | zero => simp [State.drawnF] at h
  | succ f ih =>
    unfold State.drawnF at h
    simp only [hr] at h
    split at h
    · cases h
    · rename_i hph
      split at h
      · rename_i d hd
        split at h
        · cases h
        · have hid : r.id = id := by
            have := List.find?_some hr
            simpa using this
          split at h
          · rename_i b t hq
            have ht : t.findMsg id = some r := by
              unfold State.findMsg; rw [State.request_msgs s t _ _ _ hq]; exact hr
            have hm := State.findMsg_modMsg t id (fun x => { x with random := x.random ++ b }) r (fun _ => rfl) ht
            rw [hid] at h
            have := ih _ _ hm h
            refine ⟨this.1, ?_⟩
            rw [this.2]
          · cases h
      · cases h
        exact ⟨hr, rfl⟩

/-- A message is found under its own number. -/
theorem State.findMsg_id (s : State) (id : Nat) (r : MsgRec) (h : s.findMsg id = some r) : r.id = id := by
  have := List.find?_some h
  simpa using this

/-- A read that begins changes what its record has read alone. -/
theorem State.findMsg_beginRead (s : State) (r : MsgRec) (h : s.findMsg r.id = some r) :
    ∃ x, (s.beginRead r).findMsg r.id = some { r with read := x } := by
  unfold State.beginRead
  split
  · exact ⟨_, State.findMsg_modMsg s r.id _ r (fun _ => rfl) h⟩
  · exact ⟨r.read, h⟩

/-- A control-path message whose draws are served within its own command. -/
theorem State.message_of_drawn (s : State) (o : Op) (m : Msg) (p : State × MsgRec) (ho : o ≠ .zrmRecord)
    (h : s.drawn o m = some p) :
    s.message o m = if p.1.workDone p.2 then (p.1.useServed (.message p.2.id)).actNow p.2
      else p.1.askInternal p.2 (p.1.internalWork p.2) := by
  unfold State.drawn at h
  cases ha : s.admitted o m with
  | none => simp [ha] at h
  | some q =>
    simp only [ha] at h
    cases hf : (q.1.atAct o m).findMsg q.2.id with
    | none => simp [hf] at h
    | some r =>
      simp only [hf] at h
      split at h
      · rename_i hc
        simp only [Bool.and_eq_true, beq_iff_eq] at hc
        obtain ⟨hro, hr⟩ := hc
        have hop := State.admitted_op s o m q ho ha
        rw [State.message_of_admitted s o m q ha]
        have he : q.1.execute q.2 = (q.1.atAct o m).runControl r := by
          by_cases hl : o = .lcTransition
          · subst hl
            unfold State.execute
            rw [hop]
            unfold State.atAct at hf hr ⊢
            simp only [beq_self_eq_true, if_true] at hf hr ⊢
            have hm : lcTarget q.2.m = lcTarget m := by
              rw [State.admitted_record s .lcTransition m q (by decide) ha]
              show lcTarget (Msg.whole m) = lcTarget m
              unfold Msg.whole
              split <;> rfl
            rw [hm]
            simp only [State.thenIf, hf, hr, if_true]
          · have ht : q.1.atAct o m = q.1 := by simp [State.atAct, hl]
            rw [ht] at hf hr ⊢
            have hq : r = q.2 := by
              have := State.admitted_find s o m q ha
              rw [hf] at this
              exact Option.some.inj this
            subst hq
            have hn : q.2.onControl = true := by simp [State.runnable] at hr; exact hr.1.1.1.1.2
            unfold MsgRec.onControl at hn
            unfold State.execute
            rw [hop] at hn ⊢
            cases o <;> first | (exfalso; exact hl rfl) | (exfalso; revert hn; simp [Op.isHub, show Op.family .randomGenerate = 5 from rfl, show Op.family .randomReseed = 5 from rfl]; done) | (simp only [hr, if_true]; split <;> simp_all)
        rw [he]
        exact State.runControlF_of_drawnF 8 _ _ p h
      · cases h

/-- A control-path message that acts within its own command is drawn, and no work of the internal world is left. -/
theorem State.drawn_of_acting (s : State) (o : Op) (m : Msg) (p : State × MsgRec) (h : s.acting o m = some p) :
    ∃ u, s.drawn o m = some (u, p.2) ∧ u.workDone p.2 = true ∧ p.1 = u.useServed (.message p.2.id) := by
  unfold State.acting at h
  cases hd : s.drawn o m with
  | none => simp [hd] at h
  | some q =>
    simp only [hd] at h
    split at h
    · rename_i hw
      cases h
      exact ⟨q.1, rfl, hw, rfl⟩
    · cases h

/-- A control-path message that acts within its own command. -/
theorem State.message_of_acting (s : State) (o : Op) (m : Msg) (p : State × MsgRec) (ho : o ≠ .zrmRecord)
    (h : s.acting o m = some p) : s.message o m = p.1.actNow p.2 := by
  obtain ⟨u, hd, hw, hp⟩ := State.drawn_of_acting s o m p h
  rw [State.message_of_drawn s o m _ ho hd, hp]
  simp only [hw, if_true]

/-- Using up the work of the internal world changes no message. -/
theorem State.findMsg_useServed (s : State) (o : IntOwner) (id : Nat) : (s.useServed o).findMsg id = s.findMsg id := rfl

/-- The record with which the draws of a control-path message are served: found under its number, and of its opcode. -/
theorem State.drawn_op (s : State) (o : Op) (m : Msg) (p : State × MsgRec) (h : s.drawn o m = some p) :
    p.1.findMsg p.2.id = some p.2 ∧ p.2.op = o := by
  unfold State.drawn at h
  cases ha : s.admitted o m with
  | none => simp [ha] at h
  | some q =>
    simp only [ha] at h
    cases hf : (q.1.atAct o m).findMsg q.2.id with
    | none => simp [hf] at h
    | some r =>
      simp only [hf] at h
      split at h
      · rename_i hc
        simp only [Bool.and_eq_true, beq_iff_eq] at hc
        have hi := State.findMsg_id _ _ _ hf
        obtain ⟨b, hb⟩ := State.findMsg_beginRead _ r (by rw [hi]; exact hf)
        obtain ⟨h1, h2⟩ := State.drawnF_record 8 _ r.id _ p hb h
        have hid : p.2.id = r.id := by rw [h2]
        refine ⟨by rw [hid]; exact h1, ?_⟩
        rw [h2]
        exact hc.1
      · cases h

/-- The record of a message that is no transition holds its command's message, and no tandem. -/
theorem State.drawn_record (s : State) (o : Op) (m : Msg) (p : State × MsgRec) (ho : o ≠ .zrmRecord)
    (hl : o ≠ .lcTransition) (h : s.drawn o m = some p) :
    p.1.findMsg p.2.id = some p.2 ∧ p.2.op = o ∧ p.2.m = Msg.whole m ∧ p.2.tandem = none := by
  obtain ⟨hfind, hop⟩ := State.drawn_op s o m p h
  refine ⟨hfind, hop, ?_⟩
  unfold State.drawn at h
  cases ha : s.admitted o m with
  | none => simp [ha] at h
  | some q =>
    have ht : q.1.atAct o m = q.1 := by simp [State.atAct, hl]
    have hf := State.admitted_find s o m q ha
    simp only [ha, ht, hf] at h
    split at h
    · have hr := State.admitted_record s o m q ho ha
      obtain ⟨b, hb⟩ := State.findMsg_beginRead q.1 q.2 hf
      obtain ⟨_, h2⟩ := State.drawnF_record 8 _ q.2.id _ p hb h
      refine ⟨?_, ?_⟩ <;> rw [h2, hr] <;> rfl
    · cases h

/-- The record with which a control-path message acts: found under its number, and of its opcode. -/
theorem State.acting_op (s : State) (o : Op) (m : Msg) (p : State × MsgRec) (h : s.acting o m = some p) :
    p.1.findMsg p.2.id = some p.2 ∧ p.2.op = o := by
  obtain ⟨u, hd, _, hp⟩ := State.drawn_of_acting s o m p h
  obtain ⟨hf, ho⟩ := State.drawn_op s o m _ hd
  exact ⟨by rw [hp, State.findMsg_useServed]; exact hf, ho⟩

/-- The record with which a message that is no transition acts holds its command's message, and no tandem. -/
theorem State.acting_record (s : State) (o : Op) (m : Msg) (p : State × MsgRec) (ho : o ≠ .zrmRecord)
    (hl : o ≠ .lcTransition) (h : s.acting o m = some p) :
    p.1.findMsg p.2.id = some p.2 ∧ p.2.op = o ∧ p.2.m = Msg.whole m ∧ p.2.tandem = none := by
  obtain ⟨u, hd, _, hp⟩ := State.drawn_of_acting s o m p h
  obtain ⟨hf, hr⟩ := State.drawn_record s o m _ ho hl hd
  exact ⟨by rw [hp, State.findMsg_useServed]; exact hf, hr⟩

/-- The end of an act of a message that holds nothing. -/
theorem State.endAct_of_find (s : State) (r : MsgRec) (f : Final) (h : s.findMsg r.id = some r) :
    s.endAct r f = if f.status == Status.policyRefused then (s.releaseHeld r).refuse r f
      else (s.releaseHeld r).complete r f false := by
  simp only [State.endAct, h, Option.getD_some]

end Sys2Proof.Machine
end

