-- ==== Sys2Proof/Tests/Slice0.lean ====
section
/-! SUPPORT. Tests of the model: ill-formed commands, the worked examples of the specification and states that meet the
hypotheses of the statements. -/

namespace Sys2Proof.Tests

open Sys2Proof Sys2Proof.Machine

set_option Elab.async false

/-! The unit of the tests: powered and booted, in IMAGO, link up in mode 2, every instance with its rings on and bound to domain
0, access-control unit 3 open to the manager window, the generators seeded, the vault mounted with an AES-256 key (object 5), an HMAC-SHA-384 key (object 6), an AES-256 seal or
export key and others named where they are used. -/

def gen : Gen := { Gen.reset with seeded := true, queue := zeros 2048, key := zeros 32, v := zeros 16 }

def object (h alg : Nat) (k : Bytes) : Obj :=
  { Obj.reset with handle := h, alg := BitVec.ofNat 16 alg, usage := 0xFFFFBFFF, world := 3, lcmask := 0x3F, version := 1
                   validUntil := 2 ^ 64 - 1, insts := BitVec.allOnes 256, material := k, exportable := true }

def rings : Rings :=
  { Rings.reset with sqBase := 0x10000, sqLog2 := 12, cqBase := 0x200000, cqLog2 := 12, en := true, ringOn := true
                     watch := .doorbell, phase := true, tail := 3000 }

def unit : State :=
  { State.reset with
    inst := Vector.replicate 256
      { InstRec.reset with exists_ := true, state := .ringsOn, domain := some 0, rings := rings
                           cfg := { FnCfg.reset with command := 6 } }
    clu := Vector.replicate 16 { Cluster.reset with state := .running }
    otp := { State.reset.otp with lcRows := [lcCode 1, lcCode 2, lcCode 3] ++ List.replicate 17 0 }
    pwr := { State.reset.pwr with booted := true, rails := 0x7F, inputOn := true, charged := true, inputOk := true
                                  armed := true }
    lnk := { State.reset.lnk with mode := 2, pf := { State.reset.lnk.pf with vfMse := true } }
    glb := { State.reset.glb with phase := 2, enabled := 0xFFFF }
    cfg := { State.reset.cfg with state := 1 }
    isl := { State.reset.isl with envelope := some (zeros 32), cell := true, main := true, rootSlots := [RootRec.reset] }
    rng := { State.reset.rng with phase := 3, gens := Vector.replicate 260 gen }
    vlt := { State.reset.vlt with state := 2, formatted := true, memKey := some (zeros 32), vaultKey := zeros 32, placement := zeros 32
                                  objs := [object 5 0x0120 (zeros 32), object 6 0x0303 (zeros 48)] }
    acu := State.reset.acu.set 3 { AcuUnit.reset with
      closed := false
      active := AcuUnit.reset.active.set 0 (Triple.all { start := 0, fin := 0x1FFFFFF, valid := true, rights := 0xFFF }) }
    evr := { State.reset.evr with state := 1 } }

/-- The same with its access-control unit 3 closed. -/
def shut : State := unit.modAcu 3 (fun a => { a with closed := true })

/-- No key (R72). -/
def noKey : Nat := 0xFFFFFFFFFF

/-- A message of instance 0 with tag 7: its opcode, keys, inline input, AREA and output capacity. -/
def msg (op : Op) (ka kb : Nat) (input area : Bytes) (outs : Nat) : Msg :=
  { inst := 0
    cell := { version := 1, flags := if input.isEmpty then 0 else 2, opcode := op.code, tag := 7
              inLen := BitVec.ofNat 32 input.length, outCap := BitVec.ofNat 32 outs
              sglAddr := if outs > 40 then 0x5000 else 0, sglCount := if outs > 40 then 1 else 0, flowId := 0
              keyA := BitVec.ofNat 40 ka, keyB := BitVec.ofNat 40 kb, rsvd := 0, area := fit 24 area }
    sgl := if outs > 40 then [{ addr := 0x900000, len := BitVec.ofNat 32 outs, ctl := 1 }] else []
    sglErr := none, input := input }

/-- The same, of another instance. -/
def msgOf (m : Msg) (n : Fin 256) : Msg := { m with inst := n }

/-- What answers a step. -/
def after (i : Instr) (s : State) : State := match exec i s with | .next t => t | _ => State.reset

def env : BootEnv := { storeFail := [], selfFail := [] }

/-- The message of the tests in a phase. -/
def rec_ (op : Op) (ph : Phase) : MsgRec := { MsgRec.reset with id := 1, op := op, m := msg op noKey noKey [] [] 0, phase := ph }

/-- The unit with messages fetched. -/
def unit.with (l : List MsgRec) : State := { unit with sch := { unit.sch with msgs := l, nextId := 9 } }

/-- No key, no parameters: a job of the tests. -/
def job (op : Op) (total : Nat) : Job :=
  { op := op, slot := 0xFF, pad := 1, route := 0, fp := zeros 16, keyA := none, keyB := none, p := zeros 16, seg := 0, total := total
    prog := none }

/-- The unit with an identity that signs. -/
def signing : State :=
  { unit with ident := { unit.ident with present := true }, lnk := { unit.lnk with spdm := { Spdm.reset with stage := 3 } } }

def chain : Chain := { Chain.reset with num := 3, insts := BitVec.allOnes 256, head := zeros 48, sealKey := 6 }

/-! Ill-formed commands: one for each check. -/

theorem wf_accepts : (Instr.nop (msg .nop noKey noKey [] [] 0)).wf = true ∧ Instr.smbStatus.wf = true := by decide

theorem wf_area : (Instr.nop { msg .nop noKey noKey [] [] 0 with
    cell := { (msg .nop noKey noKey [] [] 0).cell with area := [] } }).wf = false := by decide
theorem wf_inline_length : (Instr.nop { msg .nop noKey noKey [1, 2] [] 0 with input := [1] }).wf = false := by decide
theorem wf_list_length : (Instr.nop { msg .nop noKey noKey [] [] 64 with sgl := [] }).wf = false := by decide
theorem wf_opcode : (Instr.cancel (msg .nop noKey noKey [] [] 0)).wf = false := by decide
theorem wf_nop_known : (Instr.nop (msg .cancel noKey noKey [] [] 0)).wf = false := by decide
theorem wf_width : (Instr.linkReady { cxl := true, rate := 5, width := 3, cache := true }).wf = false := by decide
theorem wf_rate : (Instr.linkReady { cxl := true, rate := 2, width := 4, cache := true }).wf = false := by decide
theorem wf_request : (Instr.spdmRequest { secured := false, message := [0x12, 0x84, 0] }).wf = false := by decide
theorem wf_ide_key : (Instr.ideKm true [1, 2, 3]).wf = false := by decide
theorem wf_numvfs : (Instr.numvfsWrite 65536).wf = false := by decide
theorem wf_read_size : (Instr.counterPairRead 0 { offset := 0x41000, size := 3 }).wf = false := by decide
theorem wf_write_size : (Instr.registerWrite { master := .host 0, offset := 0, size := 3, value := 0 }).wf = false := by decide
theorem wf_access : (Instr.accessViolation { unit := 0, level := 0, kind := .read, start := 0, len := 257 }).wf = false := by
  decide
theorem wf_capture : (Instr.acuCaptureClear 0 (some { unit := 0, level := 0, kind := .read, start := 0, len := 0 })).wf
    = false := by decide
theorem wf_debug_access : (Instr.debugAccess .read 0 0).wf = false := by decide
theorem wf_report : (Instr.recompute { drift := [], dropMv := 500, volt := 7000, cellUse := 0, cell := 0, conv := 0
                                       minutes := List.replicate 60 0 }).wf = false := by decide
theorem wf_hour : (Instr.operatingHour { drift := List.replicate 16 0, dropMv := 0, volt := 7000, cellUse := 0
                                         cell := 0, conv := 0, minutes := List.replicate 60 0 }).wf = false := by decide
theorem wf_minutes : (Instr.operatingHour { drift := List.replicate 16 0, dropMv := 500, volt := 7000, cellUse := 0
                                            cell := 0, conv := 0, minutes := [] }).wf = false := by decide
theorem wf_level : (Instr.accessViolation { unit := 2, level := 3, kind := .read, start := 0, len := 4 }).wf = false := by decide
theorem wf_fetch : (Instr.accessViolation { unit := 2, level := 1, kind := .fetch, start := 0, len := 4 }).wf = false := by decide
theorem wf_master : (Instr.close 2 (.unit 0 3)).wf = false := by decide
theorem wf_read_back : (Instr.imageAccept { msg .imageAccept noKey noKey [] [] 0 with nor := .lasts }).wf = false := by decide
theorem wf_bank : (Instr.nop { msg .nop noKey noKey [] [] 0 with bank := some { drop := 500, volt := 7000 } }).wf = false := by
  decide
theorem wf_uart : (Instr.nop { msg .nop noKey noKey [] [] 0 with uart := true }).wf = false := by decide
theorem wf_machine : (Instr.tamperAlarm { monitor := 120, atlas := true, luna := true, high := false }).wf = false := by decide
theorem wf_cluster : (Instr.clusterFault 1 .lockstep (some 3)).wf = false := by decide
theorem wf_spoke : (Instr.spokeFault 2 2).wf = false := by decide
theorem wf_cells : (Instr.noiseWindow [] true).wf = false := by decide
theorem wf_block : (Instr.conditionedBlock [1]).wf = false := by decide
theorem wf_page : (Instr.garbageCollection [557056 * 256]).wf = false := by decide
theorem wf_flips : (Instr.qdrError { region := .derailleur, flips := [] }).wf = false := by decide

/-! Worked examples of the specification, each named with its file. -/

/-- spec/00_scope.md, R6: a 16-bit write to a register is ignored and counted. -/
theorem test_narrow_write :
    let t := after (.registerWrite { master := .host 0, offset := 0x40000, size := 2, value := 5 }) unit
    (t.getInst 0).violReg = 1 := by decide +kernel

/-- spec/01_architecture.md, R13: E137 is C5 of cluster 11. -/
theorem test_engine_number : engCluster 137 = 11 ∧ engKind 137 = 0 ∧ 137 % 12 = 5 := by decide

/-- spec/02_host_link.md, R53: 8 KiB of output mark pages 144,470 and 144,471, the cell page 2, and a page outside the range
sets OVERFLOW. -/
def logging : State := unit.modInst 3 (fun i => { i with dirty := { i.dirty with en := true, base := 0x100000000, pages := 1048576 } })

theorem test_dirty_pages :
    let t := (logging.markPage 3 (0x123456000 / 4096)).markPage 3 (0x123457000 / 4096)
    let u := t.markPage 3 (0x100002040 / 4096)
    (u.getInst 3).dirty.marked = [144470, 144471, 2] ∧ (u.getInst 3).dirty.overflow = false
      ∧ ((u.markPage 3 (0x200000000 / 4096)).getInst 3).dirty.overflow = true
      ∧ ((u.markPage 3 (0x200000000 / 4096)).getInst 3).dirty.marked = [144470, 144471, 2]
      ∧ ((u.markPage 3 (0x100002040 / 4096)).getInst 3).dirty.marked = [144470, 144471, 2] := by decide +kernel

/-- spec/03_message_protocol.md: input entries of 7,168 bytes for an IN_LEN of 8,192 are refused with LENGTH_SHORT and DETAIL
0x1C00, with nothing written and one AMP violation. -/
def shortList : Msg :=
  { inst := 9
    cell := { (msg .ctrCrypt noKey noKey [] [] 0).cell with inLen := 8192, outCap := 8192, sglAddr := 0x5000, sglCount := 4 }
    sgl := [⟨0x10000, 4096, 0⟩, ⟨0x20000, 2048, 0⟩, ⟨0x30000, 1024, 0⟩, ⟨0x40000, 8192, 1⟩], sglErr := none, input := [] }

theorem test_length_short :
    let t := after (.ctrCrypt shortList) unit
    (t.getInst 9).violAmp = 1 ∧ t.out.any (fun w => match w with
      | .cell n _ c => n == 9 && c.status == 0x0110 && c.detail == 0x1C00 && c.written == 0 && c.busy == 0 && c.wait == 0
      | _ => false) = true := by decide +kernel

/-- spec/05_cipher_engines.md: 100 bytes with PAD 1 gain 12 bytes of 0x0C, 7 blocks of 15 cycles are 105 cycles, and with a
generated IV the output needs 128 bytes, so OUT_CAP 120 is refused with OUTPUT_SHORT and DETAIL 0x80. -/
def cbcFlow : Flow :=
  { Flow.reset with inst := 0, id := 1, op := .cbcEncrypt, slot := 0xFF, pad := 1, fparam := fit 16 [0, 0, 1], lap := 65536
                    keyA := some (object 5 0x0120 (zeros 32)).ref }

def cbcShort : Msg :=
  let m := msg .cbcEncrypt noKey noKey (zeros 100) [] 120
  { m with cell := { m.cell with flowId := 1 } }

theorem test_cbc_padding : padBytes 1 16 100 [] = List.replicate 12 0x0C
    ∧ cipherCycles { job .cbcEncrypt 100 with keyA := some (object 5 0x0120 (zeros 32)).ref } 0 100 true
      = 105 := by decide +kernel

theorem test_cbc_output_short :
    (after (.cbcEncrypt cbcShort) { unit with sch := { unit.sch with flows := [cbcFlow] } }).out.any (fun w => match w with
      | .cell _ _ c => c.status == 0x0113 && c.detail == 0x80
      | _ => false) = true := by decide +kernel

/-- spec/06_sequencer_programs.md: the fields of BLOCK r5 := E(r0) xor r4. -/
theorem test_block_word : let w : BitVec 64 := 0x04A0900091500000
    wOp w = 1 ∧ wRd w = 5 ∧ wRa w = 0 ∧ wRb w = 4 ∧ wLds w = 2 ∧ wLdr w = 4 ∧ wSts w = 1 ∧ wStr w = 5 := by decide

/-- spec/07_digest_engines.md: a SHA-256 stream of 66,536 bytes takes 1,024 compressions for its first lap and 16 for its last,
68,640 cycles together. -/
theorem test_digest_cycles : digestCycles (job .sha256 66536) 0 65536 false
    + digestCycles (job .sha256 66536) 0 1000 true = 68640 := by decide +kernel

/-- spec/08_public_key_engines.md: object 0x400 of domain 5 has the handle with bytes 00 04 00 40 01. -/
theorem test_handle_bytes : leBytes 5 (5 * 2 ^ 30 + 0x400) = [0x00, 0x04, 0x00, 0x40, 0x01] := by decide

/-- spec/16_life_cycle_and_debug.md: LCS_ROWS 0x7F is two trips, and the next entry writes row LC7. -/
theorem test_trip_rows :
    ({ State.reset.otp with lcRows := [lcCode 1, lcCode 2, lcCode 3, lcCode 4, lcCode 3, lcCode 4, lcCode 3]
                                        ++ List.replicate 13 0 } : Otp).trips = 2
    ∧ moveRow 3 4 2 = some 7 ∧ moveRow 4 3 3 = some 8 := by decide

/-- spec/18_access_control.md: a write that leaves region 2 of unit 10 is refused at its first forbidden byte. -/
def stagingUnit : AcuUnit :=
  { AcuUnit.reset with
    closed := false
    active := AcuUnit.reset.active.set 2 (Triple.all { start := 0x20C0000, fin := 0x20DFFFF, valid := true, rights := 0x600 }) }

theorem test_staging_write :
    stagingUnit.refuses 10 3 1 0x20DFFFE0 32 = none ∧ stagingUnit.refuses 10 3 1 0x20DFFFE0 64 = some (0x20E00000, 0xFF)
    ∧ regionsBad ((stagingUnit.active.map Triple.a).set 3
        { start := 0x20D0000, fin := 0x20E0FFF, valid := true, rights := 0x600 }).toList
      = some (1, 3) := by decide +kernel

/-- spec/19_events_and_health.md: at 40,000 hours a drift of 25,000 ppm predicts 222,144 h, and hold-up energy 690 with 12 units
lost in 8,760 h predicts 262,800 h. -/
theorem test_predictions :
    let s := { unit with opTime := 40000 * 3600000 }
    (s.modInd 9 (fun x => { x with value := 25000 })).predict 9 = some 222144
    ∧ ({ s with hlt := { s.hlt with energies := [(40000, 690), (31240, 702)] } }.modInd 19 (fun x => { x with value := 690 })).predict
        19 = some 262800 := by decide +kernel

/-! Published vectors of the algorithms the specification names -/

/-- FIPS 180-4: SHA-256 of the three bytes of abc. -/
theorem test_sha256 : beNat (sha256 [0x61, 0x62, 0x63])
    = 0xba7816bf8f01cfea414140de5dae2223b00361a396177a9cb410ff61f20015ad := by decide +kernel

/-- FIPS 197, appendix C.3: AES-256. -/
theorem test_aes256 : beNat (aesEnc ((List.range 32).map (BitVec.ofNat 8)) ((List.range 16).map (fun i => BitVec.ofNat 8 (17 * i))))
    = 0x8ea2b7ca516745bfeafc49904b496089 := by decide +kernel

/-- SP 800-38B, AES-256, the empty message. -/
theorem test_cmac : beNat (cmac (beBytes 32 0x603deb1015ca71be2b73aef0857d77811f352c073b6108d72d9810a30914dff4) [])
    = 0x028962f61b7bf89efc6b551f4667d983 := by decide +kernel

/-- spec/13_transaction_functions.md: the PAN fields of 5413330012345678, and a format-0 block of PIN 1234 read back. -/
theorem test_pan_fields :
    let pan := [5, 4, 1, 3, 3, 3, 0, 0, 1, 2, 3, 4, 5, 6, 7, 8]
    beNat (panField0 pan) = 0x0000333001234567 ∧ beNat (panField4 pan) = 0x45413330012345678000000000000000
    ∧ (panField0 (pan.take 12)).length = 8 := by decide

/-! States and operands that meet the hypotheses of the statements, one theorem for each statement that has any; a statement of
several clauses has a conjunct for each of them, in order. -/

theorem witness_EmptyQueueTicks : State.reset.pending = [] ∧ State.reset.pwr.booted = false
    ∧ unit.pending = [] ∧ unit.pwr.booted = true := by decide +kernel

theorem witness_QueueStaysWellFormed : ({ State.reset with pending := [.smbStatus, .retest] } : State).queueWf = true
    ∧ (step { State.reset with pending := [.smbStatus, .retest] } matches .next _) = true := by decide +kernel

theorem witness_NothingFollowsQuiet : State.reset.quiet = true ∧ unit.quiet = true ∧ State.reset.setAgain = []
    ∧ (∀ x ∈ ({ unit with setAgain := [(.host 0, 0x60010, 1)] } : State).setAgain, unit.setAgain.contains x = false)
    ∧ State.reset.pwr.rails = 0 ∧ unit.smbWord 1 = unit.smbWord 1 ∧ unit.smbWord 8 = unit.smbWord 8 := by decide +kernel

theorem witness_AntifuseRowsOnlyGainBits : (step unit matches .next _) = true := by decide +kernel

theorem witness_SpentForever :
    let s := { State.reset with otp := { State.reset.otp with lcRows := State.reset.otp.lcRows.set 19 1 } }
    s.otp.row 19 ≠ 0 ∧ (step s matches .next _) = true := by decide +kernel

theorem witness_TripsNeverFall :
    let s := { State.reset with pending := [.smbStatus]
                                otp := { State.reset.otp with lcRows := State.reset.otp.lcRows.set 3 (lcCode 4) } }
    s.otp.trips = 1 ∧ (step s matches .next _) = true := by decide +kernel

theorem witness_PowerSupplies :
    let off := { unit with pwr := { unit.pwr with inputOn := false } }
    let celled := { State.reset with isl := { State.reset.isl with cell := true } }
    let raw := { unit with pwr := { unit.pwr with armed := false, charging := true }, isl := { unit.isl with cell := false } }
    State.reset.pwr.inputOn = false ∧ celled.isl.cell = true ∧ celled.lc ≠ 2 ∧ State.reset.isl.cell = false
    ∧ unit.pwr.inputOn = true
    ∧ { unit with pwr := { unit.pwr with armed := false } }.pwr.armed = false ∧ unit.isl.cell = true
    ∧ raw.pwr.inputOn = true ∧ raw.pwr.armed = false ∧ raw.isl.cell = false
    ∧ ({ raw.volatile with otp := State.reset.otp, lcs := { raw.volatile.lcs with lostCause := raw.volatile.lostCause } } : State).lc ≠ 3
    ∧ raw.pwr.charging = true ∧ raw.isl.main = true
    ∧ off.pwr.inputOn = false ∧ State.reset.isl.main = false ∧ State.reset.lc ≠ 2 := by decide +kernel

theorem witness_Resets :
    unit.mgrUp = true ∧ unit.hostRefused 1 0x1001C 4 = none ∧ shut.mgrUp = true ∧ (shut.hostRefused 1 0x1001C 4).isSome = true
    ∧ State.reset.mgrUp = false ∧ unit.pwr.holdup = false ∧ (0xA5C30001 : BitVec 32).toNat / 65536 = 0xA5C3
    ∧ (0xA5C30001 : BitVec 32).getLsbD 0 = true ∧ (0xA5C20001 : BitVec 32).toNat / 65536 ≠ 0xA5C3
    ∧ (0xA5C30000 : BitVec 32).getLsbD 0 = false ∧ unit.pwr.booted = true
    ∧ (unit.coldReset 2).pwr.coldWait = some 2 ∧ unit.lnk.mode ≠ 0 := by decide +kernel

theorem witness_InputLoss : unit.sch.msgs.any MsgRec.transits = false ∧ unit.pwr.inputOn = true ∧ unit.pwr.holdup = false ∧ unit.pwr.armed = true
    ∧ ({ unit with pwr := { unit.pwr with armed := false } } : State).pwr.inputOn = true := by decide +kernel

theorem witness_LinkUpAndDown :
    let down := { unit with lnk := Lnk.reset }
    let ready := { unit with glb := { unit.glb with phase := 1 } }
    let safe := { unit with lnk := { unit.lnk with ideIo := true, ideCache := true } }
    down.pwr.booted = true ∧ down.pwr.perstLow = false ∧ down.pwr.holdup = false ∧ down.lnk.mode = 0 ∧ down.glb.phase ≠ 0
    ∧ ({ down with glb := { unit.glb with phase := 0 } } : State).glb.phase = 0 ∧ unit.cfg.state ≠ 2
    ∧ ready.isReady = true ∧ unit.isReady = false ∧ unit.lnk.mode ≠ 0
    ∧ safe.lnk.ideCache = true ∧ safe.lnk.ideIo = true := by decide +kernel

theorem witness_LinkConfiguration :
    let open_ := { unit with lnk := { unit.lnk with spdm := { Spdm.reset with phase := 2 }, vfEnable := true } }
    let dry := unit.modGen 257 (fun g => { g with seeded := false })
    let parked := { unit with glb := { unit.glb with enabled := 0 } }
    let version : Bytes := [0x10, 0x84, 0, 0]
    let challenge : Bytes := [0x12, 0x83, 0, 0] ++ zeros 32
    open_.hostUp = true ∧ open_.lnk.spdm.phase = 2 ∧ open_.lnk.mode = 2 ∧ (zeros 32).length = 32
    ∧ dry.hostUp = true ∧ dry.lnk.spdm.waiting = none ∧ spdmDraws false challenge = true ∧ dry.genSeeded 257 = false
    ∧ unit.genSeeded 257 = true ∧ unit.genSeeded 259 = true ∧ unit.served .spdm = false ∧ unit.usableClusters ≠ []
    ∧ parked.hostUp = true ∧ parked.lnk.spdm.waiting = none ∧ parked.usableClusters = []
    ∧ spdmDraws false version = false ∧ unit.spdmWork false version = [] ∧ unit.spdmWork true version = []
    ∧ (signing.lnk.spdm.waiting = none ∧ signing.hostUp = true ∧ signing.spdmWork false challenge ≠ [])
    ∧ ({ open_ with lnk := { open_.lnk with mode := 1 } } : State).lnk.mode ≠ 2
    ∧ unit.hostUp = true ∧ unit.lnk.vfEnable = false ∧ open_.lnk.vfEnable = true ∧ (unit.getInst 255).exists_ = true := by
  decide +kernel

theorem witness_FunctionResets :
    let t := unit.modInst 255 (fun i => { i with state := .resetting, flrDrain := true })
    unit.hostUp = true ∧ (unit.getInst 1).exists_ = true ∧ (unit.getInst 1).state ≠ .resetting
    ∧ (t.getInst 255).state = .resetting ∧ (t.getInst 255).flrDrain = true := by decide +kernel

theorem witness_ViolationsAndDmaErrors :
    let r := { rec_ .ctrCrypt .ready with m := shortList }
    let s := unit.with [r]
    s.lnk.mode ≠ 0 ∧ (s.getInst 0).rings.en = true ∧ (logging.getInst 3).dirty.en = true ∧ s.findMsg 1 = some r
    ∧ r.reads = true ∧ r.m.inlineIn = false ∧ r.m.sgl[2]? = some ⟨0x30000, 1024, 0⟩ := by decide +kernel

theorem witness_ViolationsCountAndRecord :
    (unit.getInst 0).violSec.any (fun p => p.1 == 1 && p.2 == unit.seconds) = false
    ∧ ((unit.modInst 0 (fun i => { i with violSec := [(1, 0)] })).getInst 0).violSec.any
        (fun p => p.1 == 1 && p.2 == unit.seconds) = true := by decide +kernel

theorem witness_TailAndDoorbells :
    let s := unit.modRings 1 (fun r => { r with watch := .coherent, shared := true, reread := true, badTail := some 4096 })
    let t := unit.modRings 1 (fun r => { r with ringOn := false })
    s.watches 1 = true ∧ (s.getInst 1).rings.shared = true ∧ (s.getInst 1).rings.reread = true
    ∧ (4095 : Nat) < (s.getInst 1).rings.sqSize ∧ (s.getInst 1).rings.sqSize ≤ 4096
    ∧ (s.getInst 1).rings.badTail = some 4096
    ∧ unit.ringWritable 1 0x1000 = true ∧ unit.ringWritable 1 0x1004 = true ∧ unit.ringWritable 0 0x1000 = true
    ∧ (unit.getInst 1).rings.ringOn = true ∧ (unit.getInst 1).rings.watch ≠ .coherent
    ∧ (4095#32).toNat % 65536 < (unit.getInst 1).rings.sqSize ∧ (unit.getInst 1).rings.sqSize ≤ (4096#32).toNat % 65536
    ∧ (4095#32).toNat % 65536 < (unit.getInst 1).rings.cqSize ∧ (unit.getInst 1).rings.cqSize ≤ (4096#32).toNat % 65536
    ∧ s.ringWritable 1 0x1000 = true ∧ s.ringWritable 1 0x1004 = true ∧ (s.getInst 1).rings.ringOn = true ∧ (s.getInst 1).rings.watch = .coherent
    ∧ t.ringWritable 1 0x1000 = true ∧ t.ringWritable 1 0x1004 = true ∧ (t.getInst 1).rings.ringOn = false
    ∧ shut.mgrUp = true ∧ (shut.hostRefused 1 0x1001000 4).isSome = true ∧ (shut.hostRefused 1 0x1001004 4).isSome = true := by decide +kernel

theorem witness_RingsAndDirtyLogging :
    let off := unit.modRings 1 (fun r => { r with en := false, ringOn := false, sqBase := 0x40000, cqBase := 0x80000 })
    let bad := off.modRings 1 (fun r => { r with sqLog2 := 17 })
    let drained := unit.modRings 1 (fun r => { r with en := false })
    off.ringWritable 1 0x18 = true ∧ (off.getInst 1).rings.en = false ∧ off.ringsValid 1 = true ∧ bad.ringsValid 1 = false
    ∧ (unit.getInst 1).rings.en = true ∧ unit.ringWritable 0 0x18 = true
    ∧ (shut.hostRefused 1 0x1000018 4).isSome = true
    ∧ (drained.getInst 1).rings.en = false ∧ (drained.getInst 1).rings.ringOn = true
    ∧ (drained.getInst 1).state ≠ .resetting
    ∧ (drained.getInst 1).rings.ringFault = false ∧ drained.sch.msgs.all (fun m => m.inst != 1) = true
    ∧ ((drained.modRings 1 (fun r => { r with ringFault := true })).getInst 1).rings.ringFault = true
    ∧ ((unit.modInst 1 (fun i => { i with state := .resetting })).getInst 1).state = .resetting
    ∧ (unit.with [{ rec_ .nop .wait with m := msgOf (rec_ .nop .wait).m 1 }]).sch.msgs.any (fun m => m.inst == 1) = true
    ∧ unit.writable (dirtyCtlOffset 255) = true := by decide +kernel

theorem witness_RegisterAccess :
    let s := unit.modInst 0 (fun i => { i with latches := [(0xC, 7)] })
    let low := unit.readWord 0 .bar0 0x8
    State.reset.reaches 1 .bar0 = false ∧ ({ unit with lnk := { unit.lnk with pf := PfCfg.reset } } : State).reaches 1 .bar0 = false
    ∧ unit.hostUp = true ∧ unit.reaches 0 .bar0 = true ∧ unit.reaches 1 .bar0 = true ∧ unit.reaches 0 .bar4 = true
    ∧ (0x40001#32).toNat % 2 ≠ 0 ∧ (0x40002#32).toNat % 4 ≠ 0 ∧ (0x40004#32).toNat % 8 ≠ 0 ∧ (0x8#32).toNat % 8 = 0
    ∧ unit.spaceReg 0 .bar0 0xFFC = none ∧ (unit.spaceReg 0 .bar0 0x8).isSome = true ∧ (unit.spaceReg 0 .bar4 0).isSome = true
    ∧ (unit.spaceReg 1 .bar0 0x1000).isSome = true ∧ pairLow 0x8 = true ∧ pairLow 0xC = false
    ∧ (s.spaceReg 0 .bar0 0xC).isSome = true ∧ (unit.getInst 0).latches.find? (fun p => p.1 == 0xC) = none
    ∧ (s.getInst 0).latches.find? (fun p => p.1 == 0xC) = some (0xC, 7)
    ∧ low.1 = (unit.readWord 0 .bar0 0x8).1 ∧ unit.unitStops 0 .bar0 0 0xFFC = none ∧ unit.unitStops 0 .bar0 1 0xFFC = none
    ∧ unit.unitStops 0 .bar0 0 0x8 = none ∧ (shut.unitStops 0 .bar0 0 0x8).isSome = true
    ∧ (shut.unitStops 0 .bar0 1 0x8).isSome = true ∧ shut.unitStops 1 .bar0 1 0x1000 = none := by decide +kernel

theorem witness_CommandRegisters :
    let failed := { unit with rng := { unit.rng with phase := 5 } }
    let opened := { unit with lcs := { unit.lcs with debug := 1 } }
    let blank := { unit with vlt := { unit.vlt with state := 0 }, isl := { unit.isl with rootSlots := [], envelope := none } }
    let begun (s : State) : State := { s with tmp := { s.tmp with recomCause := 0, recomState := 1 } }.recomRecord
    let dry := blank.modGen 258 (fun g => { g with seeded := false })
    [0xD0010, 0x20020, 0x2003C, 0x80004, 0x9006C, 0x30020, 0x40014].all unit.writable = true ∧ failed.writable 0x80004 = true
    ∧ failed.rng.phase = 5 ∧ unit.rng.phase ≠ 5 ∧ unit.mounted = true ∧ State.reset.mounted = false
    ∧ blank.mounted = false ∧ opened.lcs.debug ≠ 0 ∧ (0x5A3C0000#32).getLsbD 1 = false
    ∧ (0x5A3C0002#32).toNat / 65536 = 0x5A3C ∧ (0x5A3C0002#32).getLsbD 1 = true ∧ unit.tmp.recomState ≠ 1
    ∧ unit.recomCheck ≠ 0 ∧ blank.recomCheck = 0 ∧ blank.tmp.recomState ≠ 1 ∧ blank.writable 0x40014 = true
    ∧ (begun blank).tmp.recomState = 1 ∧ (begun blank).recomCheck = 0 ∧ (begun blank).writable 0x40014 = true
    ∧ (begun unit).tmp.recomState = 1 ∧ (begun unit).recomCheck ≠ 0
    ∧ (begun blank).genSeeded 257 = true ∧ (begun blank).genSeeded 258 = true
    ∧ dry.writable 0x40014 = true ∧ dry.recomCheck = 0 ∧ State.reset.mgrUp = false ∧ shut.mgrUp = true
    ∧ (shut.hostRefused 1 (capInfoOffset 20) 4).isSome = true ∧ (begun dry).genSeeded 258 = false := by decide +kernel

/-- A staged set whose region 1 is out of order. -/
def badSet : State := unit.modAcu 2 (fun a => { a with staged := a.staged.set 1 { start := 5, fin := 4, valid := true, rights := 0 } })

def staging : State := unit.modAcu 10 (fun _ => stagingUnit)

theorem witness_AccessControl :
    let opened := { unit with lcs := { unit.lcs with debug := 1 } }
    let allowed := opened.modAcu 20 (fun a => { a with
      closed := false, active := a.active.set 0 (Triple.all { start := 0, fin := 0xFFF, valid := true, rights := 0xFFF }) })
    let full := { unit with lcs := { unit.lcs with debug := 1, violTimes := List.replicate 63 0 } }
    unit.pwr.booted = true ∧ isCustody .custody = true ∧ unit.custodyRefused .custody (uctlOffset 2) = false
    ∧ isCustody (.host 0) = false ∧ unit.custodyRefused (.unit 0 0) (uctlOffset 2) = true
    ∧ regionsBad (unit.getAcu 2).staged.toList = none ∧ regionsBad (badSet.getAcu 2).staged.toList = some (2, 1)
    ∧ issues 10 2 (accCode .write) = false ∧ issues 10 3 (accCode .write) = true
    ∧ (staging.getAcu 10).refuses 10 3 (accCode .write) 0x20DFFFE0 64 = some (0x20E00000, 0xFF)
    ∧ (staging.getAcu 10).refuses 10 3 (accCode .write) 0x20DFFFE0 32 = none
    ∧ staging.accessAllowed 10 3 (accCode .write) 0x20DFFFE0 32 = true
    ∧ unit.accessAllowed 3 3 (accCode .read) 0x40000 4 = true ∧ (unit.getAcu 3).refuses 3 3 (accCode .read) 0xC0000 4 = none
    ∧ guardedByte 3 3 (accCode .read) 0xC0000 4 = some 0xC0000
    ∧ unit.writable (capInfoOffset 20) = true ∧ unit.lcs.debug = 0 ∧ opened.lcs.debug ≠ 0
    ∧ allowed.accessAllowed 20 2 (accCode .read) 0 8 = true ∧ allowed.accessAllowed 20 2 (accCode .write) 0 8 = true
    ∧ opened.accessAllowed 20 2 (accCode .read) 0 16 = false ∧ unit.accessAllowed 20 2 (accCode .read) 0 16 = false
    ∧ ((opened.access 20 2 (accCode .read) 0 16).lcs.violTimes.filter (fun w => 0 < w + 1000)).length + 1 < 64
    ∧ 64 ≤ ((full.access 20 2 (accCode .read) 0 16).lcs.violTimes.filter (fun w => 0 < w + 1000)).length + 1 := by
  decide +kernel

theorem witness_SmbusReads : unit.pwr.rails ≠ 0 ∧ State.reset.pwr.rails = 0 := by decide +kernel

theorem witness_HealthAndHours : unit.writable 0x60010 = true ∧ unit.writable 0x70034 = true ∧ unit.pwr.holdup = false ∧ unit.pwr.booted = true ∧ (500 : Nat) ≠ 0
    ∧ unit.pwr.charged = true ∧ State.reset.pwr.charged = false := by decide +kernel

def building (ka : Nat) : Template :=
  { Template.reset with inst := 0, op := .ecbEncrypt, keyA := ka, keyB := noKey, building := true }

/-- The unit without the page of object 5. -/
def keyLost (s : State) : State := { s with vlt := { s.vlt with badHandles := [5] } }

def unit.templates (l : List Template) : State := { unit with sch := { unit.sch with templates := l } }

theorem witness_Templates :
    let mine (t : Template) : Bool := t.building && t.inst == 0 && t.op == .ecbEncrypt && t.keyA == 5 && t.keyB == noKey
    let gone := { building 5 with building := false, status := Status.keyNotFound }
    let s := unit.templates [building 5]
    s.glb.ctrlRestart = false ∧ s.sch.templates.filter mine = [building 5]
    ∧ ((unit.templates [building 9]).useKeys 0 0 .ecbEncrypt 0 (zeros 16) none 9 noKey matches .inl ⟨0x0301, _, _, _, _, _⟩) = true
    ∧ (s.useKeys 0 0 .ecbEncrypt 0 (zeros 16) none 5 noKey matches .inr _) = true ∧ s.domainOf 0 = some 0
    ∧ ((keyLost (unit.templates [building 5])).useKeys 0 0 .ecbEncrypt 0 (zeros 16) none 5 noKey
        matches .inl ⟨0x0702, _, _, _, _, _⟩) = true
    ∧ ({ s with glb := { s.glb with ctrlRestart := true } } : State).glb.ctrlRestart = true
    ∧ (unit.templates [gone]).sch.templates.filter (fun t => !t.building && t.status != Status.ok && t.inst == 0
        && t.op == .ecbEncrypt && t.keyA == 5 && t.keyB == noKey) = [gone] := by decide +kernel

/-- A message on engine e. -/
def running (e : Nat) (r : MsgRec) : State := (unit.with [r]).startOn e r

def running_ (op : Op) (input area : Bytes) : MsgRec :=
  { rec_ op .running with m := msg op noKey noKey input area 0, keyA := some (object 5 0x0120 (zeros 32)).ref }

theorem witness_LapsAndOperations :
    let work (e : Nat) (r : MsgRec) : Bool := ((running e r).workOf e).any (fun x => x.id == r.id && x.op == r.op && x.m == r.m)
    let of (e : Nat) (r : MsgRec) : MsgRec := ((running e r).workOf e).getD MsgRec.reset
    let lap (r : MsgRec) : Lap := (running 0 r).nextLap (of 0 r)
    let fails (r : MsgRec) : Bool := ((running 0 r).runLap ((running 0 r).getEng 0) (of 0 r) (lap r)).1.fail
    let tx (r : MsgRec) : BitVec 16 :=
      let k := ((running 0 r).getEng 0).key
      (txRun r.op r.m { r.keyA.getD KeyRef.reset with material := k.a } { r.keyB.getD KeyRef.reset with material := k.b } r.random).1
    let pk (r : MsgRec) : PkEnd :=
      let x := (running 10 r).getEng 10
      pkRun (((running 10 r).jobOf (of 10 r)).withImage x.mem.image) x.mem.input x.mem.random
    let wrap := running_ .dataUnwrap (zeros 24) []
    let ctr := running_ .ctrCrypt (zeros 32) []
    let seg : MsgRec := { ctr with m := { ctr.m with cell := { ctr.m.cell with flags := 0x0A } } }
    let long : MsgRec := { ctr with m := { ctr.m with cell := { ctr.m.cell with flags := 0, inLen := 65552 } } }
    let pin := { running_ .pinTranslate (fit 64 (beBytes 8 0x390e9ec0a3e3d4a0)) [1, 1, 0] with
      keyA := some (object 5 0x0210 (zeros 16)).ref, keyB := some (object 5 0x0210 (zeros 16)).ref }
    let bad := running_ .keyBlockCheck (zeros 16) []
    let x := running_ .x25519 (fit 32 [9]) [0x20]
    let gen := running_ .keyGenerate [] []
    let y : IntOp := { IntOp.reset with id := 5 }
    let inner := ({ unit with sch := { unit.sch with internal := [y] } } : State).modEng 10 (fun e => { e with work := some 5 })
    work 0 wrap = true ∧ engKind 0 ≠ 2 ∧ wrap.op ≠ .ledgerPost ∧ wrap.op.family ≠ 7 ∧ fails wrap = true
    ∧ work 0 ctr = true ∧ fails ctr = false ∧ (lap ctr).last = true
    ∧ work 0 seg = true ∧ fails seg = false ∧ (lap seg).last = false ∧ (lap seg).segEnd = true
    ∧ fails long = false ∧ (lap long).segEnd = false ∧ (lap long).last = false
    ∧ work 0 pin = true ∧ pin.op.family = 7 ∧ pin.op ≠ .ledgerPost ∧ tx pin = Status.ok ∧ tx bad ≠ Status.ok
    ∧ engKind 10 = 2 ∧ work 10 x = true ∧ x.op ≠ .keyGenerate ∧ (pk x).status = Status.ok
    ∧ ((running 10 x).jobOf (of 10 x)).route ≠ 1
    ∧ (pk (running_ .x25519 (zeros 32) [0x20])).status ≠ Status.ok
    ∧ work 10 gen = true ∧ gen.op = .keyGenerate ∧ (running 10 gen).glb.ctrlRestart = false
    ∧ inner.workOf 10 = none ∧ inner.internalOn 10 = some y ∧ unit.workOf 0 = none ∧ unit.internalOn 0 = none := by
  decide +kernel

theorem witness_LedgerHeadUpdate :
    let of (c : Chain) (r : MsgRec) : State := let t := running 0 r
      { t with dom := { t.dom with rec0 := { t.dom.rec0 with chains := [c] } } }
    let s := of chain
    let r (e : Byte) := running_ .ledgerPost (zeros 16) [3, 0, 0, 0, 0, 0, 0, 0, e]
    ((s (r 0)).workOf 0).isSome = true ∧ engKind 0 ≠ 2 ∧ (r 0).op = .ledgerPost ∧ (s (r 0)).ledgerHeld (r 0) = false
    ∧ (of { chain with resumeDue := true } (r 0)).ledgerHeld (r 0) = true
    ∧ ((s (r 0)).ledgerFind (r 0) matches .inr _) = true ∧ (r 0).m.field 48 8 = 0
    ∧ (r 1).m.field 48 8 = (chain.post 0 []).count ∧ (r 2).m.field 48 8 ≠ 0 ∧ (r 2).m.field 48 8 ≠ (chain.post 0 []).count
    ∧ ((running 0 (r 0)).ledgerFind (r 0) matches .inl _) = true := by
  decide +kernel

theorem witness_CipherResults :
    Ctx.reset.pos = 0 ∧ Ctx.reset.chain = [] ∧ Ctx.reset.held = [] ∧ Ctx.reset.fail = false
    ∧ padCode .ecbDecrypt 0 = 0 ∧ padCode .ecbDecrypt 1 ≠ 0 ∧ padOn 1 16 (List.replicate 16 16) = some 16
    ∧ padOn 1 16 (zeros 16) = none := by decide +kernel

theorem witness_CmacResults : isTdea (job .cmacGenerate 4).alg = false := by decide

theorem witness_DigestResults :
    (job .sha256 3).total = [1, 2, 3].length ∧ Op.isHmac .sha256 = false ∧ Op.isShake .shake128 = true
    ∧ (job .hmacVerify 64).total = (zeros 16 ++ zeros 48).length
    ∧ (zeros 48).length = ({ job .hmacVerify 64 with keyA := some (object 6 0x0303 (zeros 48)).ref }).macLen := by decide +kernel

theorem witness_DigestLapsJoin : (digestLap KeyRegs.reset (job .sha256 2) Ctx.reset [1] false).1.hash ≠ [] := by decide +kernel

theorem witness_StreamModesInvert : (job .ctrCrypt 4).ivGen = false ∧ (job .cfbEncrypt 4).ivGen = false := by decide +kernel

theorem witness_AeadOpensItsSeal :
    let g := { job .gcmEncrypt 7 with p := zeros 12 ++ [3, 0, 0, 0] }
    let c := { job .ccmEncrypt 7 with p := zeros 13 ++ [3, 0, 0] }
    g.aadLen = [1, 2, 3].length ∧ g.ivGen = false ∧ g.tagLen ≤ 16 ∧ c.aadLen = [1, 2, 3].length ∧ c.ivGen = false
    ∧ c.tagLen ≤ 16 ∧ (zeros 16).length = g.tagLen ∧ (zeros 16).length = c.tagLen := by decide +kernel

/-- The base point of P-256, uncompressed. -/
def baseP256 : Bytes := beBytes 65 0x046b17d1f2e12c4247f8bce6e563a440f277037d812deb33a0f4a13945d898c2964fe342e2fe1a7f9b8ee7eb4a7c0f9e162bce33576b315ececbb6406837bf51f5

/-- The x coordinate of twice the base point. -/
def doubleX : Nat := 0x7cf27b188d034f7e8a52380304b51ac3c08969e277f21b35a60b48fc47669978

/-- An RSA-2048 key image whose private exponents are 1. -/
def rsaImage : Bytes :=
  let m := beBytes 128 (2 ^ 1024 - 1)
  let q := beBytes 128 (2 ^ 1023)
  beBytes 256 ((2 ^ 1024 - 1) * (2 ^ 1023)) ++ m ++ q ++ beBytes 128 1 ++ beBytes 128 1 ++ beBytes 128 2

/-- The OAEP encoding (SHA-256, RSA-2048) of the byte 7 with a seed of zeros, as a number. -/
def oaepSeven : Nat :=
  0x394f6af67c8f9ddb064c341d502cf6a87ac87001e390783ce3f93e47f29268208e069b97072f4ae2e86ab49f8234744f94167576c5f588bc071ddd59846e325b2158a8906d5e2c2be001bac943ab9cab4063536e1c546b40221fdf8db031a4bbe15f374423633701e04fe17c1d640b34f2e27b8f6aec00e24f1dcf50ad0920b3b4e3c4fa0d93fd8adb0e88d71f4614d018149a59f6a5adbfba1bd000d0e7c49ad584ce97eece608fe0ed7f493162a4a9cbfccd935da0f8c3816090661597aceb554a67ca9f52a771d26b79bb0b58882c94fb37da5f1cceacbced4372168523f4a8482ba3887a4aba03dad0440851e9de87b8037b7e8d3738a05301f17642cd

theorem witness_PublicKeyResults :
    rsaDecrypt 1 256 rsaImage (beBytes 256 oaepSeven) = some (some [7])
    ∧ rsaDecrypt 1 256 rsaImage (beBytes 256 2) = some none
    ∧ p256.verify baseP256 (zeros 64) (zeros 32) = none
    ∧ p256.verify baseP256 (beBytes 64 (2 ^ 256 * 3 + 3)) (beBytes 32 3) = some false
    ∧ p256.verify baseP256 (beBytes 64 (2 ^ 256 * doubleX + doubleX)) (beBytes 32 doubleX) = some true
    ∧ (p256.ecdh 3 baseP256).isSome = true ∧ p256.ecdh 3 (zeros 65) = none
    ∧ allZero (x25519 (zeros 32) (zeros 32)) = true ∧ allZero (x25519 (zeros 32) (fit 32 [9])) = false
    ∧ kemEkOk mlkem768 (zeros 1184) = true ∧ kemEkOk mlkem768 [] = false
    ∧ ({ job .ecdh 65 with route := 1 } : Job).route = 1 := by decide +kernel

/-- A key block of version B whose MAC does not verify. -/
def forged : Bytes := ascii "B0048D0TE00E0000" ++ List.replicate 32 0x30

theorem witness_TransactionResults :
    let pan := [5, 4, 1, 3, 3, 3, 0, 0, 1, 2, 3, 4, 5, 6, 7, 8]
    pinDecode 0 (zeros 16) (pinEncode 0 (zeros 16) [1, 2, 3, 4] pan []) pan = some [1, 2, 3, 4]
    ∧ pinDecode 0 (zeros 16) (zeros 16) pan = none
    ∧ txP (msg .dukptMac 5 noKey (zeros 16) [] 16) 4 = 0
    ∧ txP (msg .dukptMac 5 noKey (zeros 32) [0, 0, 0, 5, 1, 0] 0) 4 ≠ 0
    ∧ (zeros 16).length = macTag (msg .dukptMac 5 noKey (zeros 32) [0, 0, 0, 5, 1, 0] 0)
    ∧ parseBlock forged true = .inr ([], 16) ∧ openBlock 0x0210 (zeros 16) forged 16 = none := by decide +kernel

theorem witness_FabricEvents :
    let held := { unit with glb := { unit.glb with ctrlRestart := true }, sch := { unit.sch with heldWrites := [(0xA0000, 7)] } }
    let ends := { unit with glb := { unit.glb with ctrlRestart := true }, sch := { (unit.with [rec_ .keyUpdate .commit]).sch with heldEnds := [(1, .done (Final.good []))] } }
    let shut := { unit with glb := { unit.glb with spokesClosed := [(0, 3)] } }
    let busy := running 0 (running_ .ctrCrypt (zeros 32) [])
    let hubs := { unit with glb := { unit.glb with hubReset := 9 } }
    unit.pwr.booted = true ∧ unit.cluUsable 15 = true ∧ unit.cluParked 15 = false ∧ (unit.getClu 15).state = .running
    ∧ ({ unit with sch := { unit.sch with fwIdle := 1 } } : State).sch.fwIdle ≠ 0 ∧ unit.cluBusy 15 = false
    ∧ busy.cluBusy 0 = true ∧ unit.detects 15 (faultCode .lockstep) = true ∧ engCluster 191 = 15
    ∧ State.reset.detects 15 (faultCode .lockstep) = false ∧ unit.detects 15 1 = true ∧ State.reset.detects 15 1 = false
    ∧ unit.hubBusy 3 = false ∧ hubs.hubBusy 0 = true ∧ hubs.hubBusy 3 = true
    ∧ unit.glb.spokesClosed.contains (0, 3) = false ∧ shut.glb.spokesClosed.contains (min 3 0, max 3 0) = true
    ∧ unit.glb.ctrlRestart = false ∧ held.glb.ctrlRestart = true ∧ held.sch.heldWrites = [(0xA0000, (7 : BitVec 32))]
    ∧ held.sch.heldEnds = [] ∧ ({ held with sch := unit.sch } : State).sch.heldWrites = []
    ∧ ({ held with sch := unit.sch } : State).sch.heldEnds = [] ∧ ends.glb.ctrlRestart = true ∧ ends.sch.heldWrites = []
    ∧ ends.sch.heldEnds = [(1, .done (Final.good []))] ∧ (ends.findMsg 1).isSome = true ∧ ends.hlt.recompute = false ∧ held.hlt.recompute = false ∧ unit.detects 15 2 = true := by
  decide +kernel

theorem witness_Throttling :
    let warm := { unit with pwr := { unit.pwr with charging := true, unparking := 0x8000 } }
    ({ power := 11000, voltage := 4800, current := 2000 } : InputSample).power ≤ 11000
    ∧ 11000 < ({ power := 11001, voltage := 4800, current := 2000 } : InputSample).power
    ∧ warm.pwr.booted = true ∧ warm.pwr.charging = true ∧ warm.pwr.coolTicks < 9 ∧ warm.pwr.unparking.getLsbD 15 = true
    ∧ warm.pwr.unparking.getLsbD 0 = false ∧ unit.pwr.overLast = false
    ∧ ({ unit with pwr := { unit.pwr with overLast := true } } : State).pwr.overLast = true := by decide +kernel

theorem witness_RandomSource :
    let phase (p : Nat) (stop : Bool) : State := { unit with rng := { unit.rng with phase := p, stopped := stop } }
    let bare := unit.modGen 7 (fun x => { x with seeded := false, queue := [] })
    let old := unit.modGen 7 (fun x => { x with calls := 65536, queue := zeros 3072 })
    let good := List.replicate 8 (1050, 128)
    let bad := List.replicate 8 (0, 0)
    (phase 0 false).rng.phase = 0 ∧ (phase 4 true).rng.stopped = true ∧ (phase 1 false).rng.phase = 1
    ∧ (phase 1 false).rng.stopped = false ∧ (phase 1 false).rng.kat = false ∧ cellMask good = 0 ∧ cellMask bad = 0xFF
    ∧ (phase 4 false).rng.retries < 2 ∧ (phase 4 true).rng.phase = 4 ∧ (phase 3 false).rng.phase ≠ 4
    ∧ bare.mayseed = true ∧ bare.rng.phase = 3 ∧ bare.nextGen = some 7 ∧ bare.blockRequest 7 = none
    ∧ ({ unit with tmp := { unit.tmp with state := 2 } } : State).mayseed = false
    ∧ (old.rng.getGen 7).seeded = true ∧ (old.rng.getGen 7).background = false ∧ 65536 ≤ (old.rng.getGen 7).calls
    ∧ (unit.rng.getGen 259).calls < 65536 ∧ (unit.rng.getGen 259).queue.length < 3072
    ∧ 3072 ≤ (old.rng.getGen 7).queue.length ∧ (bare.rng.getGen 7).seeded = false := by decide +kernel

theorem witness_RandomWaits :
    let w := rec_ .randomGenerate .rngWait
    let c := rec_ .randomGenerate .genCall
    let dry := (unit.with [w]).modGen 0 (fun x => { x with seeded := false })
    let held := { dry with sch := { dry.sch with heldEnds := [(1, .failed (Final.plain Status.rngFault))] } }
    dry.findMsg 1 = some w ∧ dry.heldRequest w = true ∧ dry.endIsHeld w = false ∧ held.endIsHeld w = true
    ∧ (unit.with [w]).heldRequest w = false ∧ unit.glb.ctrlRestart = false
    ∧ ({ unit with glb := { unit.glb with ctrlRestart := true } } : State).glb.ctrlRestart = true
    ∧ (rec_ .keyGenerate .rngWait).op.needsControl = true ∧ (rec_ .keyGenerate .rngWait).op ≠ .lcTransition
    ∧ (unit.with [c]).findMsg 1 = some c ∧ c.phase = .genCall
    ∧ c.phase ≠ .rngWait ∧ w.phase ≠ .genCall ∧ c.op = .randomGenerate ∧ (rec_ .keyGenerate .genCall).op ≠ .randomGenerate
    ∧ (rec_ .lcTransition .rngWait).op = .lcTransition ∧ w.op ≠ .lcTransition ∧ unit.holdsBack c = false
    ∧ ({ unit with tmp := { unit.tmp with state := 1 } } : State).holdsBack c = true := by
  decide +kernel

def commitOf (n : Nat) : PendCommit := { msg := none, inst := 0, seq := n, changes := [], final := Final.good [] }

def reads (x : NandRead) : PageRead := { node2 := .clean, node1 := .clean, leaf := x }

/-- Object 5 in a leaf record, under nodes that the tree cache holds. -/
def leafed (d : Bytes) : State :=
  { unit with vlt := { unit.vlt with tree := [{ level := 0, index := 0, loc := 0, last := 0, digest := d }], cache := pageNodes 0 } }

theorem leaf_opens (s t : State) (o : Obj) (r : NandRec) (h2 : s.vlt.cache.contains (2, o.page / 256) = true)
    (h1 : s.vlt.cache.contains (1, o.page / 16) = true) (hr : findRec s.vlt.tree (0, o.page) = some r)
    (hd : r.digest = sha256 (t.leafImage o.page)) (ho : s.otp = t.otp) (hv : s.vlt.vaultKey = t.vlt.vaultKey)
    (he : s.vlt.epochs = t.vlt.epochs) (hs : s.vlt.objs = t.vlt.objs) :
    s.readPage o (reads .clean) = openImage (t.dvk (handleDomain o.handle)) o.handle
      (slice (t.leafImage o.page) (t.imageOffset o) (256 * o.units)) := by
  have hk : ∀ d, s.dvk d = t.dvk d := fun d => by simp only [State.dvk, State.vmk, State.rootSecret, State.epoch, ho, hv, he]
  have hl : s.leafImage o.page = t.leafImage o.page := by
    have hg : s.image = t.image := funext fun x => by simp only [State.image, hk]
    simp only [State.leafImage, State.pageObjs, hg, hs]
  have hi : s.imageOffset o = t.imageOffset o := by simp only [State.imageOffset, State.pageObjs, hs]
  unfold State.readPage State.nodeRead
  rw [h2, h1]
  simp [reads, State.readRec, hr, delivered, State.recImage, hd, hl, hi, hk, Option.filter]

theorem image_opens :
    let o := object 5 0x0120 (zeros 32)
    (openImage (unit.dvk (handleDomain o.handle)) o.handle
      (slice (unit.leafImage o.page) (unit.imageOffset o) (256 * o.units))).isSome = true := by decide +kernel

theorem witness_VaultRead_clean (d : Bytes) (h : d = sha256 (unit.leafImage (object 5 0x0120 (zeros 32)).page)) :
    ((leafed d).readPage (object 5 0x0120 (zeros 32)) (reads .clean)).isSome = true
    ∧ (leafed d).vlt.badHandles.contains 5 = false ∧ (leafed d).findObj 5 = some (object 5 0x0120 (zeros 32)) := by
  refine ⟨?_, rfl, rfl⟩
  rw [leaf_opens (leafed d) unit _ { level := 0, index := 0, loc := 0, last := 0, digest := d } rfl rfl rfl h rfl rfl rfl rfl]
  exact image_opens

theorem witness_VaultReadsAndCommits :
    let r (h : List Nat) := rec_ .ctrCrypt (.vaultRead h)
    let s := unit.with [r [5]]
    let o := object 5 0x0120 (zeros 32)
    let shut := { unit with vlt := { unit.vlt with batch := [commitOf 1] } }
    let full := { unit with vlt := { unit.vlt with flight := [[commitOf 1], [commitOf 2]] } }
    let tried := { full with vlt := { full.vlt with tries := 2 } }
    let lost (x : NandRead) : VaultRead := { first := reads x, retry := reads x, other := reads x, otherRetry := reads x }
    let y : IntOp := { IntOp.reset with id := 5, reading := true, work := { (IntWork.on 1 []) with key := some o } }
    let other := { s with vlt := { s.vlt with tree := [{ level := 0, index := s.otherPage o, loc := 0, last := 0, digest := [] }] } }
    let inner := { unit with sch := { unit.sch with internal := [y] } }
    s.mounted = true ∧ s.sch.msgs.filter (fun r => r.awaits 5 && !s.endIsHeld r) = [r [5]]
    ∧ s.sch.internal.filter (fun y => y.awaits 5) = [] ∧ s.findObj 5 = some o
    ∧ s.sch.msgs.filter (fun r => r.awaits 6 && !s.endIsHeld r) = [] ∧ s.sch.internal.filter (fun y => y.awaits 6) = []
    ∧ inner.mounted = true ∧ inner.findObj 5 = some o ∧ inner.sch.msgs.filter (fun r => r.awaits 5 && !inner.endIsHeld r) = []
    ∧ inner.sch.internal.filter (fun y => y.awaits 5) = [y] ∧ other.pageSound (s.otherPage o) (reads .unreadable) = false
    ∧ s.pageSound (s.otherPage o) (reads .unreadable) = true
    ∧ (r [5]).phase = .vaultRead [5] ∧ (r [5, 6]).phase = .vaultRead [5, 6]
    ∧ (s.integrityFailure o.page 5 []).findMsg (r [5]).id = some (r [5])
    ∧ ((s.otherRead o (lost .unreadable)).integrityFailure o.page 5 (s.pagesLost o.page (reads .unreadable))).findMsg (r [5]).id
      = some (r [5])
    ∧ s.readPage o (reads .unreadable) = none ∧ s.glb.ctrlRestart = false
    ∧ (keyLost s).vlt.badHandles.contains 5 = true
    ∧ shut.vlt.batch ≠ [] ∧ shut.vlt.flight.length < 2 ∧ shut.vlt.throttled = false ∧ unit.vlt.batch = []
    ∧ 2 ≤ full.vlt.flight.length ∧ full.vlt.flight = [commitOf 1] :: [[commitOf 2]]
    ∧ (full.spoilBatch [commitOf 1] []).vlt.tries < 2 ∧ 2 ≤ (tried.spoilBatch [commitOf 1] []).vlt.tries
    ∧ unit.vlt.flight = [] := by
  decide +kernel

/-- A unit that mounts from a BBRAM slot. -/
def mounting (r : RootRec) : State :=
  { unit with isl := { unit.isl with rootSlots := [r] }, vlt := { unit.vlt with state := 1, log := [r] } }

/-- The same at exit from DIAPAUSE, from the PRF checkpoint. -/
def exiting (r : RootRec) : State :=
  { mounting r with
    isl := { (mounting r).isl with rootSlots := [] }, vlt := { (mounting r).vlt with diaExit := true }
    prf := { (mounting r).prf with ckpt := [{ root := r, mac := unit.ckptMac (zeros 32) r }] } }

theorem rootOk_clean (s t : State) (env : Bytes) (r : RootRec) (hf : s.vlt.formatted = true) (ho : s.otp = t.otp)
    (hv : s.vlt.vaultKey = t.vlt.vaultKey) (hp : s.vlt.placement = t.vlt.placement) (he : s.vlt.epochs = t.vlt.epochs)
    (ht : s.vlt.tree = []) (hd : r.digest = sha256 (t.nodeImage [] (7, 0)))
    (hk : (kwUnwrap (t.vmk env) (slice (t.nodeImage [] (7, 0)) 288 40)).isSome = true) :
    s.rootOk env r .clean = true := by
  have hi : s.nodeImage [] (7, 0) = t.nodeImage [] (7, 0) := by
    simp only [State.nodeImage, State.vaultHeader, State.vmk, State.rootSecret, State.epoch, ho, hv, hp, he]
  have hm : s.vmk env = t.vmk env := by simp only [State.vmk, State.rootSecret, ho]
  simp [State.rootOk, delivered, hf, ht, hi, hm, hd, hk]

theorem header_opens : (kwUnwrap (unit.vmk (zeros 32)) (slice (unit.nodeImage [] (7, 0)) 288 40)).isSome = true := by
  decide +kernel

theorem witness_VaultMount_root (r : RootRec) (d : r.digest = sha256 (unit.nodeImage [] (7, 0))) :
    (mounting r).rootOk (zeros 32) r .clean = true ∧ (exiting r).rootOk (zeros 32) r .clean = true := by
  have e := header_opens
  constructor <;> apply rootOk_clean _ unit _ _ ?_ ?_ ?_ ?_ ?_ ?_ d e <;> rfl

theorem ckptMac_length (s : State) (e : Bytes) (r : RootRec) : (s.ckptMac e r).length = 16 := rfl

set_option maxRecDepth 20000 in
theorem exiting_ckptRoot (r : RootRec) : (exiting r).ckptRoot (zeros 32) = some r := by
  have h : (exiting r).ckptMac (zeros 32) r = unit.ckptMac (zeros 32) r := rfl
  simp only [State.ckptRoot]
  show (if _ then _ else _) = _
  rw [h, if_pos]
  simp [ckptMac_length]

set_option maxRecDepth 20000 in
theorem witness_VaultMount_found (r : RootRec) :
    (mounting r).mountRoot (zeros 32) = some r ∧ (exiting r).mountRoot (zeros 32) = some r
    ∧ (mounting r).recordsOk (zeros 32) r .clean = true ∧ (exiting r).recordsOk (zeros 32) r .clean = true := by
  have c : (mounting r).ckptRoot (zeros 32) = none := rfl
  refine ⟨rfl, exiting_ckptRoot r, ?_, ?_⟩
  · unfold State.recordsOk
    rw [c]
    simp [mounting]
  · unfold State.recordsOk
    rw [exiting_ckptRoot]
    simp [exiting, mounting]

theorem witness_VaultMountAndQdr :
    let s := mounting RootRec.reset
    let blank := { s with vlt := { s.vlt with formatted := false } }
    let lost := { s with isl := { s.isl with rootSlots := [] } }
    let node := { s with vlt := { s.vlt with tree := [{ level := 6, index := 0, loc := 0, last := 0, digest := [] }] } }
    s.vlt.state = 1 ∧ s.isl.envelope.getD [] = zeros 32 ∧ blank.rootOk (zeros 32) RootRec.reset .clean = false
    ∧ s.nodesOk [] = true ∧ node.nodesOk [(6, 0, .unreadable)] = false
    ∧ s.recordsOk (zeros 32) RootRec.reset .unreadable = false ∧ s.isl.rootSlots.isEmpty = false
    ∧ (exiting RootRec.reset).isl.rootSlots.isEmpty = true ∧ lost.mountRoot (zeros 32) = none ∧ s.vlt.diaExit = false
    ∧ unit.vlt.state ≠ 1 ∧ unit.vlt.fresh = false ∧ unit.vlt.roCause = 0 ∧ unit.endurance = 0 ∧ unit.pwr.booted = true
    ∧ unit.mounted = true ∧ s.mounted = false ∧ correctable [7] = true ∧ correctable [7, 8] = false
    ∧ (unit.vlt.qdrTimes.filter (fun t => unit.opTime < t + 1000)).length < 16
    ∧ ([{ Template.reset with building := true }][0]?).any (·.building) = true ∧ (unit.sch.templates[0]?).any (·.building) = false := by
  decide +kernel

theorem witness_Expiries :
    let t := { Tandem.reset with tid := 9, expires := 120000 }
    let s := { unit with dom := { unit.dom with tandems := [t] } }
    let c := { object := 1, parts := 2, attr := [], comps := [], until_ := 120000 : CompSession }
    let e := { EvRecord.reset with time := 0 }
    s.dom.tandems.find? (fun t => t.tid == 9) = some t ∧ s.dom.tandems.find? (fun t => t.tid == 8) = none
    ∧ ((unit.modInst 255 (fun i => { i with compSession := some c })).getInst 255).compSession = some c
    ∧ (unit.getInst 255).compSession = none
    ∧ ({ unit with evr := { unit.evr with openBatch := [e] } } : State).evr.openBatch = e :: [] ∧ unit.evr.state = 1
    ∧ unit.pwr.booted = true ∧ unit.evr.openBatch = []
    ∧ ({ unit with evr := { unit.evr with freezeEnd := some 10000 } } : State).evr.freezeEnd = some 10000
    ∧ unit.evr.freezeEnd = none := by decide +kernel

theorem witness_TamperEvents :
    let a (x y : Bool) : Alarm := { monitor := 0, atlas := x, luna := y, high := false }
    let open_ (c : Nat) : State := { unit with tmp := { unit.tmp with open_ := true, cls := c, incMons := [0] } }
    let owing : State := { open_ 3 with tmp := { (open_ 3).tmp with owed := true } }
    let cold : State := { open_ 3 with isl := { unit.isl with cell := false }, tmp := { (open_ 3).tmp with incMons := [114] } }
    let ended (s : State) : Bool :=
      (s.advance (s.tmp.clearFrom + clearTime s.tmp.cls)).tmp.owed
    unit.samples 0 = true ∧ (a true false).atlas = true ∧ (a false true).luna = true ∧ (a false false).atlas = false
    ∧ (a false false).luna = false ∧ unit.samples 71 = false ∧ unit.pwr.booted = true ∧ State.reset.pwr.booted = false
    ∧ cold.stillAlarms 114 = true ∧ unit.stillAlarms 114 = false ∧ (open_ 3).stillAlarms 0 = false
    ∧ (open_ 3).tmp.open_ = true ∧ (open_ 3).tmp.incMons.contains 0 = true ∧ unit.tmp.incMons.contains 0 = false
    ∧ (open_ 3).pwr.inputOn = true ∧ (open_ 3).tmp.cls < 4 ∧ (open_ 3).tmp.incMons.any (open_ 3).stillAlarms = false
    ∧ ended (open_ 3) = false ∧ ended owing = true
    ∧ unit.tmp.open_ = false ∧ State.reset.pwr.inputOn = false ∧ 4 ≤ (open_ 4).tmp.cls
    ∧ cold.tmp.incMons.any cold.stillAlarms = true := by decide +kernel
/-! Messages that pass steps 1 to 9 -/

/-- The message is admitted, and its state and record have a property. -/
def adm (s : State) (o : Op) (m : Msg) (p : State → MsgRec → Bool) : Bool :=
  match s.admitted o m with
  | some (u, r) => p u r
  | none => false

/-- The control-path message acts, and its state and record have a property. -/
def acts (s : State) (o : Op) (m : Msg) (p : State → MsgRec → Bool) : Bool :=
  match s.acting o m with
  | some (u, r) => p u r
  | none => false

/-- A template of instance 0 that the control pair has built. -/
def built (op : Op) (ka kb : Option Obj) : Template :=
  { Template.reset with op := op, keyA := (ka.map (·.handle)).getD noKey, keyB := (kb.map (·.handle)).getD noKey
                        refA := ka.map Obj.ref, refB := kb.map Obj.ref }

theorem witness_RefusedMessages :
    let m := msg .imageAccept noKey noKey [] [] 0
    let old : Msg := { m with cell := { m.cell with version := 2 } }
    let odd : Msg := { m with cell := { m.cell with opcode := 0xFFFF } }
    let ask := { msg .debugAuthorize noKey noKey (zeros 4736) [1] 0 with uart := true }
    State.reset.fetchable m = false ∧ m.uart = false
    ∧ ask.uart = true ∧ unit.pwr.booted = true ∧ unit.pwr.holdup = false ∧ unit.lcs.busy = false ∧ debugMode ask = 1 ∧ unit.lc = 3
    ∧ ((unit.newRec .debugAuthorize ask).reply (Final.refuse Status.lcState 1) matches none) = true
    ∧ unit.fetchable old = true
    ∧ checkHeader old = some (Final.refuse Status.versionUnsupported 0)
    ∧ unit.fetchable odd = true ∧ checkHeader odd = none ∧ odd.cell.opcode ≠ Op.imageAccept.code
    ∧ unit.fetchable (msgOf m 1) = true ∧ checkHeader (msgOf m 1) = none ∧ (msgOf m 1).cell.opcode = Op.imageAccept.code
    ∧ Op.imageAccept.isAdmin = true ∧ (msgOf m 1).instN ≠ 0
    ∧ ({ unit with lcs := { unit.lcs with busy := true } } : State).fetchable m = true ∧ checkHeader m = none ∧ checkOp .imageAccept m = none
    ∧ ((State.take { unit with lcs := { unit.lcs with busy := true } } .imageAccept m).check4 .imageAccept 0).any
        (fun f => f.status != Status.instanceUnbound) = true := by decide +kernel

/-- A message whose input is n zero bytes in one list entry. -/
def listed (op : Op) (ka kb n : Nat) (area : Bytes) (outs : Nat) : Msg :=
  let out := { addr := 0x900000, len := BitVec.ofNat 32 outs, ctl := 1 : SgEntry }
  let m := msg op ka kb [] area outs
  { m with
    cell := { m.cell with inLen := BitVec.ofNat 32 n, sglAddr := 0x5000, sglCount := if outs == 0 then 1 else 2 }
    sgl := { addr := 0x800000, len := BitVec.ofNat 32 n, ctl := 0 } :: (if outs == 0 then [] else [out])
    input := zeros n }

/-- A key pair of a public-key set, of n bytes. -/
def pair (h ps n : Nat) : Obj := { object h (0x0400 + ps) (zeros n) with pair := true }

/-- A key with one set of usage bits. -/
def role (h alg us n : Nat) (b : Byte) : Obj := { object h alg (List.replicate n b) with usage := BitVec.ofNat 32 us }

def keys : List Obj :=
  [ object 5 0x0120 (zeros 32), role 6 0x0303 0x10830 48 0, role 7 0x0120 0x3F 32 1, role 8 0x0210 0x33 16 0
  , pair 10 0x01 896, pair 11 0x10 97, pair 12 0x20 64, pair 13 0x21 64, pair 14 0x30 2400, pair 15 0x40 5984, pair 21 0x31 0
  , role 16 0x0210 0x1000 16 0, role 17 0x0120 0x1000 32 0, role 18 0x0120 0x2000 32 0, role 19 0x0120 0x4000 32 0
  , role 20 0x0120 0x8000 32 1 ]

def stocked (l : List Template) : State :=
  { unit with vlt := { unit.vlt with objs := keys }, sch := { unit.sch with templates := l } }

def key (h : Nat) : Option Obj := keys.find? (fun o => o.handle == h)

/-- A data message of one or two keys, and the unit whose template of it is built. -/
def readyFor (op : Op) (m : Msg) : State := stocked [built op (key m.keyA) (key m.keyB)]

/-- Cipher messages and those of the digest engines, one for each opcode. -/
def lapMsgs : List (Op × Msg) :=
  [(.ecbEncrypt, msg .ecbEncrypt 5 noKey (zeros 32) [] 32), (.ecbDecrypt, msg .ecbDecrypt 5 noKey (zeros 32) [] 32),
   (.cbcEncrypt, msg .cbcEncrypt 5 noKey (zeros 32) [] 32), (.cbcDecrypt, msg .cbcDecrypt 5 noKey (zeros 32) [] 32),
   (.cfbEncrypt, msg .cfbEncrypt 5 noKey (zeros 32) [] 32), (.cfbDecrypt, msg .cfbDecrypt 5 noKey (zeros 32) [] 32),
   (.ofbCrypt, msg .ofbCrypt 5 noKey (zeros 32) [] 32), (.ctrCrypt, msg .ctrCrypt 5 noKey (zeros 32) [] 32),
   (.xtsEncrypt, msg .xtsEncrypt 5 7 (zeros 32) [] 32), (.xtsDecrypt, msg .xtsDecrypt 5 7 (zeros 32) [] 32),
   (.gcmEncrypt, msg .gcmEncrypt 5 noKey (zeros 20) [] 36), (.gcmDecrypt, msg .gcmDecrypt 5 noKey (zeros 36) [] 20),
   (.ccmEncrypt, msg .ccmEncrypt 5 noKey (zeros 20) [] 36), (.ccmDecrypt, msg .ccmDecrypt 5 noKey (zeros 36) [] 20),
   (.dataWrap, msg .dataWrap 5 noKey (zeros 16) [] 24), (.dataUnwrap, msg .dataUnwrap 5 noKey (zeros 24) [] 16),
   (.cmacGenerate, msg .cmacGenerate 5 noKey (zeros 16) [] 16), (.cmacVerify, msg .cmacVerify 5 noKey (zeros 16) [] 0),
   (.iso9797Generate, msg .iso9797Generate 8 noKey (zeros 16) [] 8), (.iso9797Verify, msg .iso9797Verify 8 noKey (zeros 16) [] 0)]
   ++ ([.sha224, .sha256, .sha384, .sha512, .sha3_224, .sha3_256, .sha3_384, .sha3_512].map (fun o =>
        (o, msg o noKey noKey (zeros 3) [] 64)))
   ++ ([.shake128, .shake256].map (fun o => (o, msg o noKey noKey (zeros 3) [16] 16)))
   ++ [(.hmacGenerate, msg .hmacGenerate 6 noKey (zeros 16) [] 48), (.hmacVerify, msg .hmacVerify 6 noKey (zeros 64) [] 0)]

/-- Public-key messages. -/
def pkMsgs : List (Op × Msg) :=
  [ (.rsaSign, msg .rsaSign 10 noKey (zeros 32) [0, 0, 1] 256), (.rsaVerify, listed .rsaVerify noKey noKey 544 [1, 0, 1] 0)
  , (.rsaEncrypt, listed .rsaEncrypt noKey noKey 272 [1, 0, 1] 256), (.rsaDecrypt, msg .rsaDecrypt 10 noKey (zeros 256) [0, 0, 1] 256)
  , (.ecdsaSign, msg .ecdsaSign 11 noKey (zeros 32) [] 64), (.ecdsaVerify, msg .ecdsaVerify noKey noKey (zeros 161) [0x10] 0)
  , (.ecdh, msg .ecdh 11 noKey (zeros 65) [] 32), (.x25519, msg .x25519 12 noKey (zeros 32) [] 32)
  , (.ed25519Sign, msg .ed25519Sign 13 noKey (zeros 32) [] 64), (.ed25519Verify, msg .ed25519Verify 13 noKey (zeros 96) [] 0)
  , (.mlkemEncaps, listed .mlkemEncaps noKey noKey 1184 [0x30] 1120), (.mlkemDecaps, listed .mlkemDecaps 14 noKey 1088 [] 32)
  , (.mldsaSign, msg .mldsaSign 15 noKey (zeros 64) [0, 3] 3309), (.mldsaVerify, listed .mldsaVerify 15 noKey 3373 [0, 2] 0) ]

/-- A key block in format. -/
def block : Bytes := ascii "D0080D0AE00E0000" ++ List.replicate 64 0x30

/-- Transaction functions. -/
def txMsgs : List (Op × Msg) :=
  [ (.pinTranslate, msg .pinTranslate 16 17 (zeros 32 ++ List.replicate 16 0x30 ++ zeros 16) [0, 4, 16] 16)
  , (.pinVerify, msg .pinVerify 16 18 (zeros 32 ++ List.replicate 16 0x30 ++ zeros 16) [0, 0, 16] 0)
  , (.pinReference, msg .pinReference 16 18 (zeros 32 ++ List.replicate 16 0x30 ++ zeros 16) [0, 0, 16] 8)
  , (.dukptInitialKey, msg .dukptInitialKey 19 20 (zeros 8) [0x44, 0x45, 0x30, 0x30, 0x30] 400)
  , (.dukptMac, msg .dukptMac 19 noKey (zeros 11 ++ fit 13 [1]) [0, 0, 0, 5, 0, 16] 16)
  , (.dukptCrypt, msg .dukptCrypt 19 noKey (zeros 11 ++ fit 37 [1]) [0, 0, 0, 5, 0] 16)
  , (.keyBlockWrap, msg .keyBlockWrap 20 20 [] [0x44, 0x45, 0x30, 0x30, 0x30, 0] 600)
  , (.keyBlockCheck, msg .keyBlockCheck 20 noKey block [] 40)
  , (.keyBlockTranslate, msg .keyBlockTranslate 20 20 block [0x44] 400) ]

theorem witness_MessagesExecute : (lapMsgs ++ pkMsgs ++ txMsgs).all (fun p => (readyFor p.1 p.2).admitted p.1 p.2 matches some _)
    = true := by decide +kernel

/-! Control-path messages: AREA, input and the tandem that a message needs -/

/-- A state with a complete tandem of a domain for an act over a digest. -/
def granted (s : State) (d act : Nat) (digest : Bytes) : State :=
  { s with dom := { s.dom with tandems := [{ Tandem.reset with
      tid := 1, domain := d, act := act, digest := digest, expires := 120000, off1 := some 0, off2 := some 1, doneAt := 1 }] } }

/-- The unit with keys, a label of domain 0, and domain 37, to which instance 1 is bound. -/
def manned : State :=
  let s := stocked []
  let t := s.modInst 1 (fun i => { i with domain := some 37 })
  { t with dom := { t.dom with recs := [(37, DomRec.reset)]
                               rec0 := { t.dom.rec0 with labels := [(ascii "LABEL001", 5)], chains := [chain] } } }

/-- A roster of four officers with the roles given. -/
def officers (roles : Byte) : Bytes :=
  (List.range 4).flatMap (fun i => List.replicate 48 (BitVec.ofNat 8 (i + 1)) ++ [1, roles] ++ zeros 14) ++ zeros 768

/-- A message whose input comes from a list. -/
def fetched (op : Op) (ka kb : Nat) (input area : Bytes) (outs : Nat) : Msg :=
  { listed op ka kb input.length area outs with input := input }

/-- An attribute block: ALG, LENGTH and USAGE, in world 3, for every state and instance, valid for ever. -/
def attr (alg len us : Nat) : Bytes :=
  fit 72 (leBytes 2 alg ++ leBytes 2 len ++ leBytes 4 us ++ [3, 0x3F, 0, 0] ++ zeros 4 ++ leBytes 8 0 ++ leBytes 8 (2 ^ 64 - 1)
    ++ zeros 8 ++ List.replicate 32 0xFF)

/-- A message that carries AREA alone. -/
def bare (op : Op) (area : Bytes) (outs : Nat) : Msg := msg op noKey noKey [] area outs

theorem witness_MessagesExecute_work :
    let ask := bare .receiveKeyGet [] 6363
    let waiting := { rec_ .receiveKeyGet .ready with m := ask, random := zeros 52 }
    let none_ := { manned with glb := { manned.glb with enabled := 0 } }
    let waits (s : State) (p : State → Bool) : Bool := match s.drawn .receiveKeyGet ask with
      | some (u, r) => !u.workDone r && p u
      | none => false
    waits manned (fun u => u.usableClusters != []) = true ∧ waits none_ (fun u => u.usableClusters == []) = true
    ∧ (({ manned with sch := { manned.sch with served := [.message 1], msgs := [waiting] } } : State).beginRead waiting |>.drawnF 8 1).any
        (fun p => p.1.workDone p.2) = true := by decide +kernel

theorem witness_BasicMessages :
    let s := unit.with [{ rec_ .ctrCrypt .running with id := 2 }]
    let all := bare .cancel [0, 0, 0, 0, 2] 8
    adm unit .nop (bare .nop [] 0) (fun u r => r.zrm == none && !r.mute && !r.m.uart && !((u.dropMsg r.id).getInst r.inst).rings.silenced) = true
    ∧ adm s .cancel all (fun u r => u.cancelTargets r != [] && !(u.cancelTargets r).any u.notCancellable) = true
    ∧ adm unit .cancel all (fun u r => u.cancelTargets r == []) = true := by decide +kernel

def opening : Msg := msg .flowOpen 5 noKey [] [0x08, 0x02, 0xFF, 0xFF] 16

def digestFlow (b : Option Bytes) : State :=
  { unit with sch := { unit.sch with flows := [{ Flow.reset with
      id := 1, op := .sha256, kind := 1, slot := 0xFF, pad := 0xFF, result := b, fparam := fit 16 [0, 0, 1] }] } }

def ofFlow (m : Msg) : Msg := { m with cell := { m.cell with flowId := 1 } }

theorem witness_FlowMessages :
    let cached := { stocked [] with vlt := { (stocked []).vlt with kc := [{ handle := 5, version := 1, units := 1, pins := 0 }] } }
    let ask := ofFlow (bare .digestResult [] 32)
    let busy := { digestFlow none with sch := { (digestFlow none).sch with
      msgs := [{ rec_ .sha256 .commit with m := ofFlow (bare .sha256 [] 32) }], nextId := 9 } }
    let halt := { unit with tmp := { unit.tmp with state := 1 } }
    let closes (u : State) (r : MsgRec) : Bool :=
      let w := (u.beginClose r).closeFlow r
      (w.findMsg r.id).any (fun y => w.closeDone y)
    adm cached .flowOpen opening (fun u r => ((u.loadKeys r).findMsg r.id).any (fun y => (u.loadKeys r).installable y)) = true
    ∧ adm (stocked []) .flowOpen opening (fun u r => ((u.loadKeys r).findMsg r.id).any (fun y => !(u.loadKeys r).installable y))
      = true
    ∧ adm (digestFlow none) .flowClose (ofFlow (bare .flowClose [] 0)) (fun u r => !u.holdsBack r && closes u r) = true
    ∧ adm busy .flowClose (ofFlow (bare .flowClose [] 0)) (fun u r => !u.holdsBack r && !closes u r) = true
    ∧ halt.holdsBack (rec_ .flowClose .ready) = true ∧ unit.holdsBack (rec_ .digestResult .ready) = false
    ∧ unit.findFlow 0 0 = none ∧ adm (digestFlow (some (zeros 32))) .digestResult ask (fun u r => ((u.findFlow r.inst r.m.flowId).bind (·.result)).isSome) = true
    ∧ adm (digestFlow none) .digestResult ask (fun u r => (u.findFlow r.inst r.m.flowId).any (fun f => f.result == none)) = true := by
  decide +kernel

/-- A record of function 3010 (CBC_ENCRYPT) of 16 bytes. -/
def record3010 : Bytes :=
  fit 62 (ascii "3010REFERENCLABEL001        16" ++ List.replicate 32 0x30) ++ List.replicate 32 0x41 ++ List.replicate 34 0x20

theorem witness_DataMessagesBecomeReady :
    let missing (u : State) (r : MsgRec) : List Nat := ((u.useLine r.keyA).useLine r.keyB).keysMissing r
    let s := readyFor .ctrCrypt (msg .ctrCrypt 5 noKey (zeros 32) [] 32)
    let cached := { s with vlt := { s.vlt with kc := [{ handle := 5, version := 1, units := 1, pins := 0 }] } }
    let zrm : State := { manned with sch := { manned.sch with templates := [built .cbcEncrypt (key 5) none] } }
    let post := msg .ledgerPost noKey noKey (zeros 48) [3, 1] 64
    adm s .ctrCrypt (msg .ctrCrypt 5 noKey (zeros 32) [] 32) (fun u r => missing u r == [5]) = true
    ∧ adm cached .ctrCrypt (msg .ctrCrypt 5 noKey (zeros 32) [] 32) (fun u r => missing u r == []) = true
    ∧ adm zrm .zrmRecord (msg .zrmRecord noKey noKey record3010 [] 128) (fun u r => r.op.isData && missing u r == [5]) = true
    ∧ adm manned .ledgerPost post (fun _ _ => true) = true := by decide +kernel

theorem witness_RandomMessages :
    let failed := { unit with rng := { unit.rng with phase := 5 } }
    let dry := unit.modGen 0 (fun g => { g with queue := [] })
    let cold := unit.modGen 0 (fun g => { g with seeded := false })
    let halt := { unit with tmp := { unit.tmp with state := 1 } }
    let again := bare .randomReseed [] 0
    let asks (s : State) (b : Byte) (p : State → MsgRec → Bool) : Bool :=
      adm s .randomGenerate (bare .randomGenerate [16, 0, 0, 0, b] 16) (fun u r =>
        !u.holdsBack r && u.rng.phase != 5 && r.random.length != r.m.field 40 4 && r.m.field 44 1 == b.toNat && p u r)
    adm failed .randomReseed again (fun u r => u.rng.phase == 5 && !u.holdsBack r) = true
    ∧ adm failed .randomGenerate (bare .randomGenerate [16] 16) (fun u r => u.rng.phase == 5 && !u.holdsBack r) = true
    ∧ adm unit .randomReseed again (fun u r => u.rng.phase != 5 && !u.holdsBack r) = true
    ∧ asks unit 1 (fun _ _ => true) = true ∧ asks cold 0 (fun u r => !u.genSeeded r.inst) = true
    ∧ asks unit 0 (fun u r => u.genSeeded r.inst && (u.takeQueue r.inst (r.m.field 40 4)).isSome) = true
    ∧ asks dry 0 (fun u r => u.genSeeded r.inst && (u.takeQueue r.inst (r.m.field 40 4)).isNone) = true
    ∧ halt.holdsBack (rec_ .randomReseed .ready) = true := by
  decide +kernel

theorem witness_RefusalsRecorded :
    let r := rec_ .nop .wait
    (0x0101 ≤ (Final.refuse Status.versionUnsupported 0).status.toNat) ∧ (Final.plain Status.streamOpen).status.toNat ≤ 0x0131
    ∧ (r.reply (Final.plain Status.streamOpen) matches none) = true ∧ r.m.uart = false := by decide +kernel

theorem witness_NoEngineLeft :
    let off := { unit with glb := { unit.glb with enabled := 0 } }
    let r := rec_ .ctrCrypt .wait
    let o := { rec_ .flowOpen .wait with m := opening }
    (admitKind r).isSome = true ∧ r.m.uart = false ∧ (admitKind o).isSome = true ∧ off.usableClusters = []
    ∧ State.check9 { off with glb := { off.glb with enabled := 1, fenced := 0 } } r = none
    ∧ unit.usableClusters ≠ [] ∧ flowOp opening = some .ctrCrypt
    ∧ (({ unit with inst := unit.inst.set 0 { unit.inst[0] with outLimit := 0 } } : State).check9 r).isSome = true := by
  decide +kernel

/-- The unit with a root row that verifies. -/
def rooted : State :=
  let check := rootCheck unit (zeros 32)
  { manned with otp := { manned.otp with root := BitVec.ofNat 512 (leNat (zeros 32 ++ check)) } }

theorem witness_ReadersAnswer :
    acts manned .objectInfo (msg .objectInfo 5 noKey [] [] 104) (fun u r => u.readObj r.m.keyA matches .inr _) = true
    ∧ acts manned .publicKeyGet (msg .publicKeyGet 11 noKey [] [] 97) (fun u r => u.readObj r.m.keyA matches .inr _) = true
    ∧ acts manned .vaultUsage (bare .vaultUsage [] 32) (fun _ _ => true) = true
    ∧ acts rooted .identityGet (bare .identityGet [] 15041) (fun _ _ => true) = true
    ∧ acts manned .domainInfo (bare .domainInfo [37] 1120) (fun _ _ => true) = true
    ∧ acts manned .healthRead (bare .healthRead [] 384) (fun _ _ => true) = true
    ∧ acts manned .labelLookup (msg .labelLookup noKey noKey (ascii "LABEL001") [] 8)
        (fun u r => u.lookupLabel (u.dom' r) r.m.input == some 5) = true
    ∧ acts manned .recorderRead (bare .recorderRead [0, 0, 0, 0, 1] 65664) (fun _ _ => true) = true
    ∧ (let r := { rec_ .recorderRead .ready with m := bare .recorderRead [] 65664 }
       r.read = none ∧ (unit.with [r]).findMsg r.id = some r
         ∧ (((unit.with [r]).beginRead r).findMsg r.id).isSome = true) := by decide +kernel

theorem witness_CommitsAccepted :
    let here (s : State) (op : Op) (m : Msg) : Bool := acts s op m (fun _ _ => true)
    here manned .objectDelete (msg .objectDelete 5 noKey [] [] 0) = true
    ∧ here manned .objectRestrict (msg .objectRestrict 5 noKey
        (fit 64 ([1, 0, 0, 0, 1, 0x3F, 0, 0] ++ zeros 8 ++ List.replicate 32 0xFF)) [] 4) = true
    ∧ here manned .labelSet (msg .labelSet 5 noKey (ascii "LABEL002") [] 0) = true
    ∧ here manned .labelDelete (msg .labelDelete noKey noKey (ascii "LABEL001") [] 0) = true
    ∧ here (granted manned 0 7 (sha384 (ascii "VW.PRG" ++ zeros 6))) .domainPurge (bare .domainPurge [] 4) = true
    ∧ here (granted manned 0 9
        (beBytes 48 0xbca7d85d997724f391def0d130c554e77f97c218127a4dc73d021015269f0835f25f0134a9196e7d40e3d90793085d53)) .domainCreate
        (fetched .domainCreate noKey noKey (officers 3) [1] 0) = true
    ∧ here (granted manned 0 9 (sha384 (ascii "VW.DDL" ++ [37, 0]))) .domainDelete (bare .domainDelete [37] 0) = true
    ∧ acts manned .domainQuota (bare .domainQuota [37] 0) (fun _ r => r.m.field 40 2 != 0) = true
    ∧ acts manned .domainQuota (bare .domainQuota [] 0) (fun _ r => r.m.field 40 2 == 0) = true
    ∧ acts (granted manned 37 5 (sha384 (ascii "VW.POL" ++ [37, 0] ++ zeros 64))) .policySet
        (msgOf (msg .policySet noKey noKey (zeros 64) [] 0) 1) (fun u r => u.dom' r != 0) = true
    ∧ acts (granted manned 0 5 (sha384 (ascii "VW.POL" ++ [0, 0] ++ zeros 64))) .policySet
        (msg .policySet noKey noKey (zeros 64) [] 0)
        (fun u r => u.dom' r == 0 && (u.setPolicy0 r.m.input).1.status == Status.ok) = true
    ∧ acts (granted manned 37 6
        (beBytes 48 0xdb173c21cb73cfd9c7c3b896a555cd20de73f24592c7721ba2001f50eee072a5c84d15f6eac791d8ba1417641524fd10)) .rosterSet
        (msgOf (fetched .rosterSet noKey noKey (officers 3) [] 0) 1) (fun u r => u.dom' r != 0) = true
    ∧ acts (granted manned 0 6
        (beBytes 48 0x57a7d977e6e50c3295dced408974bc69c2195b9711055f046ac2cbc26d7be0b4f9d834695d57d97c8dde0edeeea1b33a)) .rosterSet
        (fetched .rosterSet noKey noKey (officers 31) [] 0) (fun u r => u.dom' r == 0 && (u.prfWrite prfRoster).1) = true := by
  decide +kernel

/-- A component session of object 1: an AES-128 or 2-key TDEA key of two or three parts whose first is zeros. -/
def session (parts alg : Nat) (kcv : Bytes) : CompSession :=
  { object := 1, parts := parts, attr := fit 32 (attr alg 0 3) ++ kcv ++ (attr alg 0 3).drop 35, comps := [zeros 16]
    until_ := 120000 }

def part (n parts : Nat) (x : Bytes) : Msg := msg .keyComponent noKey noKey x [1, 0, 0, 0, BitVec.ofNat 8 n, BitVec.ofNat 8 parts] 8

/-- The manned unit with that session, and the tandem of its last part. -/
def inSession (c : CompSession) (last : Bytes) : State :=
  granted (manned.modInst 0 (fun i => { i with compSession := some c })) 0 1 (componentDigest 0 c last)

/-- The last part of two, and what it makes of the session. -/
def lastPart (c : CompSession) (x : Bytes) (p : Bytes → Bool) : Bool :=
  acts (inSession c x) .keyComponent (part 2 2 x) (fun u r =>
    u.sessionFor r == some c && r.m.field 44 1 == c.parts
      && p ((c.comps ++ [r.m.input]).foldl xorB (zeros ((fixedLen (leAt c.attr 0 2)).getD 0))))

/-- The backup of a KEY_RESTORE does not open. -/
def unreadable (u : State) (r : MsgRec) : Bool :=
  match u.readObj r.m.keyA with
  | .inr k => (restoreEntries (u.dom' r) k r.m.input matches .inl _)
  | .inl _ => false

/-- The chain of a ledger message is there, and its seal key is. -/
def sealed (u : State) (r : MsgRec) : Bool :=
  match u.ledgerFind r with
  | .inr c => (u.sealKeyOf c matches .inr _)
  | .inl _ => false

theorem witness_KeyManagement :
    let gen (alg : Nat) : Msg := msg .keyGenerate noKey noKey (attr alg 0 3) [1, 1] 8
    let lone := manned.modInst 1 (fun i => { i with domain := some 38 })
    let pair_ := msg .keyGenerate noKey noKey (attr 0x0410 0 0xC0) [1, 1] 8
    let keyed := { manned with dom := { manned.dom with rec0 := { manned.dom.rec0 with drk := true } } }
    let faulty := manned.modGen 259 (fun g => { g with marked := true })
    adm manned .keyGenerate pair_ (fun u r => r.makesPair && !u.keyGenFault 259) = true
    ∧ adm faulty .keyGenerate pair_ (fun u r => r.makesPair && u.keyGenFault 259 && !u.holdsBack r) = true
    ∧ acts manned .keyGenerate (gen 0x0120) (fun _ r => r.attrAlg / 256 != 4 && r.attrAlg / 256 != 2) = true
    ∧ acts manned .keyGenerate (gen 0x0210) (fun _ r => r.attrAlg / 256 == 2) = true
    ∧ adm lone .receiveKeyGet (msgOf (bare .receiveKeyGet [] 6363) 1) (fun u r => (u.domRec (u.dom' r)).isNone) = true
    ∧ acts keyed .receiveKeyGet (bare .receiveKeyGet [] 6363) (fun u r => (u.domRec (u.dom' r)).isSome) = true := by
  decide +kernel

theorem witness_KeyManagement_components :
    let aes := session 2 0x0110 (checkValue 0x0110 (List.replicate 16 1) [])
    let wrong := session 2 0x0110 [0, 0, 1]
    let same := session 2 0x0210 [0, 0, 1]
    let three := session 3 0x0110 (zeros 3)
    acts manned .keyComponent (part 1 2 (attr 0x0120 0 3 ++ zeros 32)) (fun _ r => r.m.field 44 1 == 1) = true
    ∧ acts (inSession three []) .keyComponent (part 2 3 (zeros 16)) (fun u r =>
        u.sessionFor r == some three && r.m.field 44 1 != three.parts) = true
    ∧ lastPart same (List.replicate 16 1) (fun k => leAt same.attr 0 2 / 256 == 2 && !tdeaDistinct k) = true
    ∧ lastPart wrong (List.replicate 16 1) (fun k => checkValue (BitVec.ofNat 16 (leAt wrong.attr 0 2)) k [] != attrKcv wrong.attr)
      = true
    ∧ lastPart aes (List.replicate 16 1) (fun k => checkValue (BitVec.ofNat 16 (leAt aes.attr 0 2)) k [] == attrKcv aes.attr)
      = true := by decide +kernel

theorem witness_KeyManagement_backup :
    let exportD := sha384 (ascii "VW.EXP" ++ leBytes 5 21 ++ (pair 21 0x31 0).check ++ leBytes 4 0 ++ leBytes 4 32)
    let restoreD := sha384 (ascii "VW.RST" ++ leBytes 5 21 ++ zeros 96)
    acts (granted manned 0 2 exportD) .keyExport (msg .keyExport noKey 21 [] [0, 0, 0, 0, 32] 300000) (fun u r =>
        (u.readObj r.m.keyB matches .inr _) && !(u.exportable (u.dom' r) (exportFirst r.m) (exportCount r.m)).any (fun o =>
          u.vlt.badHandles.contains o.handle)) = true
    ∧ acts (granted manned 0 3 restoreD) .keyRestore (fetched .keyRestore 21 noKey (zeros 9000) [] 8) unreadable = true := by
  decide +kernel

theorem witness_TandemMessages :
    let old (n : Nat) : Tandem := { Tandem.reset with tid := n, act := 2, expires := 120000 }
    let eight := { manned with dom := { manned.dom with tandems := (List.range 8).map old } }
    let begin_ := msg .tandemBegin noKey noKey (zeros 48) [2] 152
    acts manned .tandemBegin begin_ (fun u r => (u.openTandems (u.dom' r)).length < 8) = true
    ∧ acts eight .tandemBegin begin_ (fun u r => 8 ≤ (u.openTandems (u.dom' r)).length && (u.victim (u.dom' r)).isSome) = true
    ∧ acts eight .tandemStatus (bare .tandemStatus [7] 8) (fun u r =>
        ((u.openTandems (u.dom' r)).find? (fun t => t.tid == r.m.field 40 4)).isSome) = true := by decide +kernel

theorem witness_LedgerMessages :
    let lone := { manned with vlt := { manned.vlt with objs := keys.filter (fun o => o.handle != 6) } }
    let readOnly := { manned with vlt := { manned.vlt with state := 3 } }
    let closes (u : State) (r : MsgRec) (h : Option Nat) : Bool := match u.ledgerFind r with
      | .inr c => (u.closeKey c).map (·.handle) == h
      | .inl _ => false
    let found (u : State) (r : MsgRec) : Bool := u.ledgerFind r matches .inr _
    acts manned .ledgerChainOpen (fetched .ledgerChainOpen 6 noKey (zeros 4947) [4] 5000) (fun u r =>
        linkedPart r.m != [] && !u.linkOk (u.dom' r) (ledgerChain r.m) (linkedPart r.m)) = true
    ∧ acts manned .ledgerChainOpen (msg .ledgerChainOpen 6 noKey (zeros 32) [4] 5000) (fun u r =>
        linkedPart r.m == [] && (u.readObj r.m.keyA matches .inr _)) = true
    ∧ acts manned .ledgerCheckpoint (bare .ledgerCheckpoint [3] 5000) sealed = true
    ∧ acts manned .ledgerStatus (bare .ledgerStatus [3] 96) found = true
    ∧ acts manned .ledgerCheckpointGet (bare .ledgerCheckpointGet [3] 5000) found = true
    ∧ acts manned .ledgerChainClose (bare .ledgerChainClose [3] 5000) sealed = true
    ∧ acts lone .ledgerChainClose (bare .ledgerChainClose [3] 5000) (fun u r => found u r && u.vlt.state != 3 && closes u r none) = true
    ∧ acts readOnly .ledgerChainClose (bare .ledgerChainClose [3] 5000) (fun u r =>
        found u r && u.vlt.state == 3 && closes u r none) = true
    ∧ acts manned .ledgerChainClose (bare .ledgerChainClose [3] 5000) (fun u r =>
        u.vlt.state != 3 && closes u r (some 6)) = true := by
  decide +kernel

theorem witness_AdministrationMessages :
    let free := manned.modInst 2 (fun i => { i with domain := none })
    let bind := sha384 (ascii "VW.BND" ++ [2, 37, 0])
    let unbind := sha384 (ascii "VW.UBD" ++ [1])
    let worn (w : Nat) (s : State) : State := { s with prf := { s.prf with counts := [(w, 100000000)] } }
    let pend := { manned with prf := { manned.prf with pend := some 1 } }
    let half := { manned with nor := { manned.nor with bankB := { Bank.reset with bytes := zeros 256, next := 1 } } }
    let image (a : Bytes) := listed .imageWrite noKey noKey 256 a 0
    let flash (n : NorWrite) : Msg := { image [1, 0, 0, 0, 0, 1] with nor := n }
    acts (granted free 0 8 bind) .instanceBind (bare .instanceBind [2, 0, 37] 0) (fun u _ => (u.prfWrite (prfBinding 2)).1) = true
    ∧ acts (worn ((prfBinding 2).headD 0) (granted free 0 8 bind)) .instanceBind (bare .instanceBind [2, 0, 37] 0)
        (fun u _ => !(u.prfWrite (prfBinding 2)).1) = true
    ∧ acts (granted manned 0 8 unbind) .instanceUnbind (bare .instanceUnbind [1] 0) (fun u _ => (u.prfWrite (prfBinding 1)).1) = true
    ∧ acts (worn ((prfBinding 1).headD 0) (granted manned 0 8 unbind)) .instanceUnbind (bare .instanceUnbind [1] 0)
        (fun u _ => !(u.prfWrite (prfBinding 1)).1) = true
    ∧ acts manned .instanceQuota (bare .instanceQuota [1, 1, 0, 0, 0, 0, 1, 0, 1] 0) (fun _ _ => true) = true
    ∧ acts manned .imageWrite (image [1, 1]) (fun u r => r.m.field 41 1 == 1 && u.prf.pend != some (r.m.field 40 1)) = true
    ∧ acts pend .imageWrite (image [1, 1]) (fun u r => u.prf.pend == some (r.m.field 40 1) && (u.prfWrite prfBank).1) = true
    ∧ acts (worn (prfBank.headD 0) pend) .imageWrite (image [1, 1]) (fun u r =>
        u.prf.pend == some (r.m.field 40 1) && !(u.prfWrite prfBank).1) = true
    ∧ acts half .imageWrite (flash .kept) (fun _ r => r.m.field 41 1 != 1 && r.m.nor == .kept) = true
    ∧ acts half .imageWrite (flash (.reads (zeros 256))) (fun _ r => r.m.nor == .reads (zeros 256)
        && firstDiff r.m.input (zeros 256) 0 == none) = true
    ∧ acts half .imageWrite (flash (.reads (5 :: zeros 255))) (fun _ r => r.m.nor == .reads (5 :: zeros 255)
        && (firstDiff r.m.input (5 :: zeros 255) 0).isSome) = true
    ∧ acts half .imageWrite (flash .lasts) (fun _ r => r.m.nor == .lasts) = true
    ∧ acts manned .recorderFreeze (bare .recorderFreeze [1] 0) (fun _ _ => true) = true
    ∧ acts manned .debugAuthorize (bare .debugAuthorize [0, 1] 128) (fun _ r => debugMode r.m == 0) = true := by decide +kernel

/-- The manned unit in a life-cycle state. -/
def inState (rows : List (BitVec 64)) : State :=
  let s := { manned with otp := { manned.otp with lcRows := rows ++ List.replicate (20 - rows.length) 0 } }
  { s with lcs := { s.lcs with debug := 2 }, opTime := 5000
           prf := { s.prf with roster0 := parseRoster (officers 31) } }

/-- The message moves, and its row and the state it leaves have a property. -/
def moves (s : State) (m : Msg) (p : State → Bool) : Bool :=
  acts s .lcTransition m (fun v x =>
    let u := v.modMsg x.id (fun r => { r with phase := .custody })
    (moveRow u.lc (lcTarget x.m) u.otp.trips).isSome && p u)

theorem witness_LifeCycleMoves :
    let move (n : Byte) : Msg := bare .lcTransition [n] 0
    let grant (s : State) (n : Nat) : State := granted s 0 11 (s.moveDigest n [])
    let pupa := inState [lcCode 1, lcCode 2]
    moves (inState []) (move 1) (fun u => u.lc == 0) = true ∧ moves (inState []) (move 5) (fun u => u.lc == 0) = true
    ∧ moves (grant pupa 3) (move 3) (fun u => u.lc == 2) = true := by decide +kernel

/-- A DIAPAUSE entry from that state, and the state of its step 3. -/
def enters (s : State) (p : State → Bool) : Bool :=
  moves (granted s 0 11
      (beBytes 48 0x648dd2ac21f7796fc5df0e5ba60e2ff3387440151c2cde187ae0c340773592456420488f79c2a45ec48ab7ae6bf3260c))
    (fetched .lcTransition noKey noKey ([0, 1] ++ zeros 3142) [4] 9611)
    (fun u => u.lc == 3 && p u.finishCommits.checkpoint.writeLedgerJournal)

/-- The manned unit in IMAGO. -/
def adult : State := inState [lcCode 1, lcCode 2, lcCode 3]

theorem witness_LifeCycleMoves_entry :
    enters (adult.putEnvelope (zeros 32)) (fun t => t.bbramValid && (t.prfWrite prfTransport).1) = true := by decide +kernel

theorem witness_LifeCycleMoves_worn :
    enters { adult.putEnvelope (zeros 32) with prf := { adult.prf with counts := [(prfTransport.headD 0, 100000000)] } }
      (fun t => t.bbramValid && !(t.prfWrite prfTransport).1) = true := by decide +kernel

theorem witness_LifeCycleMoves_bare : enters adult (fun t => !t.bbramValid) = true := by decide +kernel


theorem witness_TripRows :
    let s := inState ([lcCode 1, lcCode 2, lcCode 3] ++ (List.replicate 8 [lcCode 4, lcCode 3]).flatten)
    let r := { rec_ .lcTransition .wait with m := bare .lcTransition [4] 0 }
    s.lc = 3 ∧ s.otp.trips = 8 ∧ r.op = .lcTransition ∧ lcTarget r.m = 4 := by decide +kernel
/-- Table 8.1: the encapsulation key inside the material of an ML-KEM-768 pair is its public key. -/
theorem test_public_half :
    ({ object 14 0x0430 (List.replicate 1152 1 ++ List.replicate 1184 2 ++ List.replicate 64 3) with pair := true }).publicKey
      = List.replicate 1184 2 := by decide +kernel

/-- R75: a masked vector of a virtual function is pending, and is sent when its mask is cleared. -/
theorem test_msix_pending :
    let on (i : InstRec) : InstRec := { i with state := .ringsOff, msix := InstRec.reset.msix, msixPend := 0, cfg := { i.cfg with msixEnable := true } }
    let s := unit.modInst 3 on
    let u := s.raise 3 1
    u.irqs = s.irqs ∧ u.readReg 3 0x3800 = 2
      ∧ (after (.registerWrite { master := .host 3, offset := 0x301C, size := 4, value := 0 }) u).irqs = s.irqs ++ [(3, 1)]
      ∧ (after (.registerWrite { master := .host 3, offset := 0x301C, size := 4, value := 0 }) u).readReg 3 0x3800 = 0 := by
  decide +kernel

end Sys2Proof.Tests
end

section
/-! Register accesses of the host (R6, R9, R15, R18, R46, R431, R433): what one word read or written does, what a read or
write of 1, 2, 4 or 8 bytes makes of it, and the statement O20 on both. -/

namespace Sys2Proof.Machine

/-! One aligned word -/

section Word

variable {s t : State} {n a v : Nat} {sp : RegSpace}

/-- Unit 3 checks the manager window alone (log 86). -/
theorem State.unitStops_eq_none_of_elsewhere (kind : Nat) (h : sp ≠ .bar0 ∨ n ≠ 0) : s.unitStops n sp kind a = none := by
  have hf : s.forwards n sp a = false := by
    obtain h | h := h <;> simp [State.forwards, h]
  simp [State.unitStops, hf]

theorem State.readWord_of_stopped (h : s.unitStops n sp 0 a = some t) : s.readWord n sp a = (0, t) := by
  simp only [State.readWord, h]

theorem State.readWord_of_noReg (hsp : sp ≠ .config) (hu : s.unitStops n sp 0 a = none) (h : s.spaceReg n sp a = none) :
    s.readWord n sp a = (0, s.violation n violReg a) := by
  simp [State.readWord, hu, h, hsp]

theorem State.readWord_of_elsewhere (he : sp ≠ .bar0 ∨ n ≠ 0) (h : s.spaceReg n sp a = some v) :
    s.readWord n sp a = (BitVec.ofNat 32 v, s) := by
  simp [State.readWord, State.unitStops_eq_none_of_elsewhere 0 he, h, he]

/-- R15: the lower register of a pair latches the upper one as it stands. -/
theorem State.readWord_of_pairLow (hu : s.unitStops 0 .bar0 0 a = none) (h : s.spaceReg 0 .bar0 a = some v)
    (hp : pairLow a = true) :
    s.readWord 0 .bar0 a = (BitVec.ofNat 32 v, s.modInst 0 (fun i => { i with
      latches := i.latches.filter (fun p => p.1 != a + 4) ++ [(a + 4, s.readReg 0 (a + 4))] })) := by
  simp [State.readWord, hu, h, hp]

theorem State.readWord_of_unlatched (hu : s.unitStops 0 .bar0 0 a = none) (h : s.spaceReg 0 .bar0 a = some v)
    (hp : pairLow a = false) (hl : (s.getInst 0).latches.find? (fun p => p.1 == a) = none) :
    s.readWord 0 .bar0 a = (BitVec.ofNat 32 v, s) := by
  simp [State.readWord, hu, h, hp, hl]

/-- R15: a latched upper register returns its latch and releases it. -/
theorem State.readWord_of_latched {x : BitVec 32} (hu : s.unitStops 0 .bar0 0 a = none)
    (h : s.spaceReg 0 .bar0 a = some v) (hp : pairLow a = false)
    (hl : (s.getInst 0).latches.find? (fun p => p.1 == a) = some (a, x)) :
    s.readWord 0 .bar0 a =
      (x, s.modInst 0 (fun i => { i with latches := i.latches.filter (fun p => p.1 != a) })) := by
  simp [State.readWord, hu, h, hp, hl]

variable {m : Fin 256} {x again : BitVec 32} {now : Option Access}

theorem State.regWord_of_stopped (h : s.unitStops m.val sp 1 a = some t) :
    s.regWord (.host m) sp a x again now = t := by
  simp only [State.regWord, State.hostWord, h]

theorem State.regWord_of_noReg (hu : s.unitStops m.val sp 1 a = none) (h : s.spaceReg m.val sp a = none) :
    s.regWord (.host m) sp a x again now = s.violation m.val violReg a := by
  simp [State.regWord, State.hostWord, hu, h]

end Word

/-! Reads of 1, 2, 4 and 8 bytes -/

section Read

variable {s t u : State} {n : Fin 256} {r : RegRead} {v w : BitVec 32}

theorem exec_counterPairRead_of (h : s.regRead n r = t) : exec (.counterPairRead n r) s = .next (s.settle t) := by
  rw [← h]; rfl

theorem State.regRead_of_unreached (hr : s.reaches n.val r.space = false) (hup : s.hostUp = true) :
    s.regRead n r = s.unsupported n.val r.offset.toNat := by
  simp [State.regRead, State.unreached, hr, hup]

theorem State.regRead_of_unaligned (hr : s.reaches n.val r.space = true) (ha : r.offset.toNat % r.size ≠ 0) :
    s.regRead n r = { s.violation n.val violReg r.offset.toNat with reply := some 0 } := by
  simp [State.regRead, hr, ha]

/-- A read of up to a word is the lanes of the word that it lies in. -/
theorem State.regRead_of_lanes (hr : s.reaches n.val r.space = true) (hsp : r.space ≠ .config)
    (ha : r.offset.toNat % r.size = 0) (h8 : r.size ≠ 8)
    (hw : s.readWord n.val r.space (r.offset.toNat - r.offset.toNat % 4) = (v, t)) :
    s.regRead n r =
      { t with reply := some (((v >>> (8 * (r.offset.toNat % 4))) &&& laneMask 0 r.size).setWidth 64) } := by
  simp [State.regRead, hr, ha, h8, hsp, hw]

theorem laneMask_byte : laneMask 0 1 = 0xFF := by decide
theorem laneMask_half : laneMask 0 2 = 0xFFFF := by decide
theorem laneMask_word : laneMask 0 4 = BitVec.allOnes 32 := by decide

theorem State.regRead_of_byte (hr : s.reaches n.val r.space = true) (hsp : r.space ≠ .config) (h1 : r.size = 1)
    (hw : s.readWord n.val r.space (r.offset.toNat - r.offset.toNat % 4) = (v, t)) :
    s.regRead n r = { t with reply := some (((v >>> (8 * (r.offset.toNat % 4))) &&& 0xFF).setWidth 64) } := by
  rw [State.regRead_of_lanes hr hsp (by rw [h1, Nat.mod_one]) (by omega) hw, h1, laneMask_byte]

theorem State.regRead_of_half (hr : s.reaches n.val r.space = true) (hsp : r.space ≠ .config) (h2 : r.size = 2)
    (ha : r.offset.toNat % 2 = 0) (hw : s.readWord n.val r.space (r.offset.toNat - r.offset.toNat % 4) = (v, t)) :
    s.regRead n r = { t with reply := some (((v >>> (8 * (r.offset.toNat % 4))) &&& 0xFFFF).setWidth 64) } := by
  rw [State.regRead_of_lanes hr hsp (by rw [h2, ha]) (by omega) hw, h2, laneMask_half]

theorem State.regRead_of_word (hr : s.reaches n.val r.space = true) (hsp : r.space ≠ .config) (h4 : r.size = 4)
    (ha : r.offset.toNat % 4 = 0) (hw : s.readWord n.val r.space r.offset.toNat = (v, t)) :
    s.regRead n r = { t with reply := some (v.setWidth 64) } := by
  rw [State.regRead_of_lanes (v := v) (t := t) hr hsp (by rw [h4, ha]) (by omega) (by rwa [ha]), h4, ha, laneMask_word]
  simp only [Nat.mul_zero, BitVec.ushiftRight_zero, BitVec.and_allOnes]

theorem State.regRead_of_pair (hr : s.reaches n.val r.space = true) (hsp : r.space ≠ .config) (h8 : r.size = 8)
    (ha : r.offset.toNat % 8 = 0) (hlo : s.readWord n.val r.space r.offset.toNat = (v, t))
    (hhi : t.readWord n.val r.space (r.offset.toNat + 4) = (w, u)) :
    s.regRead n r = { u with reply := some (w ++ v) } := by
  simp [State.regRead, hr, ha, h8, hsp, hlo, hhi]

end Read

/-! Writes of 1, 2, 4 and 8 bytes -/

section Write

variable {s t : State} {n : Fin 256} {w : RegWrite}

theorem exec_registerWrite_of (h : s.regWrite w = t) : exec (.registerWrite w) s = .next (s.settle t) := by
  rw [← h]; rfl

theorem State.regWrite_of_unreached (hm : w.master = .host n) (hr : s.reaches n.val w.space = false)
    (hup : s.hostUp = true) : s.regWrite w = s.unsupported n.val w.offset.toNat := by
  simp [State.regWrite, State.unreached, hm, hr, hup]

theorem State.regWrite_of_word (hm : w.master = .host n) (hr : s.reaches n.val w.space = true) (hsp : w.space ≠ .config)
    (h4 : w.size = 4) (ha : w.offset.toNat % 4 = 0) :
    s.regWrite w
      = s.regWord (.host n) w.space w.offset.toNat (w.value.setWidth 32) (w.again.setWidth 32) w.capture := by
  simp [State.regWrite, hm, hr, hsp, h4, ha]

theorem State.regWrite_of_pair (hm : w.master = .host n) (hr : s.reaches n.val w.space = true) (hsp : w.space ≠ .config)
    (h8 : w.size = 8) (ha : w.offset.toNat % 8 = 0) :
    s.regWrite w
      = (s.regWord (.host n) w.space w.offset.toNat (w.value.setWidth 32) (w.again.setWidth 32) w.capture).regWord
          (.host n) w.space (w.offset.toNat + 4) ((w.value >>> 32).setWidth 32) ((w.again >>> 32).setWidth 32)
          w.capture := by
  simp [State.regWrite, hm, hr, hsp, h8, ha]

/-- R6: what is neither an aligned word nor an aligned pair of words is counted and ignored. -/
theorem State.regWrite_of_miscut (hm : w.master = .host n) (hr : s.reaches n.val w.space = true)
    (hsp : w.space ≠ .config) (h4 : w.size = 4 → w.offset.toNat % 4 ≠ 0) (h8 : w.size = 8 → w.offset.toNat % 8 ≠ 0) :
    s.regWrite w = s.violation n.val violReg w.offset.toNat := by
  have hword : ¬ (w.size = 4 ∧ w.offset.toNat % 4 = 0) := fun h => h4 h.1 h.2
  have hpair : ¬ (w.size = 8 ∧ w.offset.toNat % 8 = 0) := fun h => h8 h.1 h.2
  simp [State.regWrite, hm, hr, hsp, hword, hpair]

end Write

/-- Settles O20: each clause is the law of its access, by width and alignment, or of the word it reads or writes. -/
theorem registerAccess : Obligations.RegisterAccess := by
  intro s n sp a read write
  refine ⟨?unreached, ?reached, ?noRegister, ?stopped, ?elsewhere, ?manager⟩
  case unreached =>
    intro hr hup size v g c
    exact ⟨exec_counterPairRead_of (State.regRead_of_unreached hr hup),
      exec_registerWrite_of (State.regWrite_of_unreached rfl hr hup)⟩
  case reached =>
    intro hr hsp
    refine ⟨?_, ?_, ?_, ?_, ?_⟩
    · intro size ha
      exact exec_counterPairRead_of (State.regRead_of_unaligned hr ha)
    · intro t v ha hw
      exact exec_counterPairRead_of (State.regRead_of_word hr hsp rfl ha hw.symm)
    · intro t v hw
      exact ⟨exec_counterPairRead_of (State.regRead_of_byte hr hsp rfl hw.symm),
        fun ha => exec_counterPairRead_of (State.regRead_of_half hr hsp rfl ha hw.symm)⟩
    · intro t u v w ha hlo hhi
      exact exec_counterPairRead_of (State.regRead_of_pair hr hsp rfl ha hlo.symm hhi.symm)
    · intro v g c
      have miscut (size : Nat) (h4 : size = 4 → a.toNat % 4 ≠ 0) (h8 : size = 8 → a.toNat % 8 ≠ 0) :
          exec (write size v g c) s = .next (s.settle (s.violation n.val violReg a.toNat)) :=
        exec_registerWrite_of (State.regWrite_of_miscut rfl hr hsp h4 h8)
      exact ⟨fun ha => exec_registerWrite_of (State.regWrite_of_word rfl hr hsp rfl ha),
        fun ha => exec_registerWrite_of (State.regWrite_of_pair rfl hr hsp rfl ha),
        miscut 1 nofun nofun, miscut 2 nofun nofun,
        fun ha => miscut 4 (fun _ => ha) nofun, fun ha => miscut 8 nofun (fun _ => ha)⟩
  case noRegister =>
    intro b v g c hsp hn
    exact ⟨fun hu => State.readWord_of_noReg hsp hu hn, fun hu => State.regWord_of_noReg hu hn⟩
  case stopped =>
    intro b v g c t
    exact ⟨State.readWord_of_stopped, State.regWord_of_stopped⟩
  case elsewhere =>
    intro b v hv he
    exact State.readWord_of_elsewhere he hv
  case manager =>
    intro b v hv hu
    exact ⟨State.readWord_of_pairLow hu hv, State.readWord_of_unlatched hu hv,
      fun x => State.readWord_of_latched hu hv⟩

end Sys2Proof.Machine
end

section
/-! Laps and public-key operations (R25, R107, R108, R110, R129, R131, R198, R201): the state that the end of each leaves
the engine in, what its message does then, and the statement O26 on both. -/

namespace Sys2Proof.Machine

/-- The engine has lost the lap of its message and keeps its keys, and its cluster has counted the lap (R25, R131). -/
def State.lapOff (s : State) (e : Nat) (r : MsgRec) : State :=
  (s.modEng e (fun y => { y.endLap with pass := s.passAfter (s.getEng e) r })).modClu (engCluster e)
    (fun c => { c with laps := satAdd 64 c.laps 1 })

/-- The engine has lost its operation, with the key image when priv is set, and its cluster has counted it (R197, R198). -/
def State.operationOff (s : State) (e : Nat) (priv : Bool) : State :=
  (s.modEng e (fun y => y.endOperation priv)).modClu (engCluster e) (fun c => { c with pkops := satAdd 64 c.pkops 1 })

section Event

theorem exec_lapComplete_of {s t : State} {e : Fin 192} (h : s.lapComplete e.val = t) :
    exec (.lapComplete e) s = .next (s.settle t) := by
  rw [← h]; rfl

theorem exec_pkOperationComplete_of {s t : State} {e : Fin 192} (h : s.pkComplete e.val = t) :
    exec (.pkOperationComplete e) s = .next (s.settle t) := by
  rw [← h]; rfl

variable {s : State} {e : Nat} {r : MsgRec} {y : IntOp}

theorem State.lapComplete_of_family7 (hw : s.workOf e = some r) (hk : engKind e ≠ 2) (hl : r.op ≠ .ledgerPost)
    (hf : r.op.family = 7) : s.lapComplete e = ((s.lapOff e r).txLapEnd (s.getEng e) r).boundary e := by
  simp only [State.lapComplete, beq_iff_eq, hk, hw, hl, hf, if_true, if_false]
  rfl

theorem State.lapComplete_of_data (hw : s.workOf e = some r) (hk : engKind e ≠ 2) (hl : r.op ≠ .ledgerPost)
    (hf : r.op.family ≠ 7) : s.lapComplete e = ((s.lapOff e r).dataLapEnd (s.getEng e) r).boundary e := by
  simp only [State.lapComplete, beq_iff_eq, hk, hw, hl, hf, if_false]
  rfl

theorem State.lapComplete_of_idle (hw : s.workOf e = none) : s.lapComplete e = s := by
  simp only [State.lapComplete, hw, ite_self]

theorem State.pkComplete_of_data (hw : s.workOf e = some r) (hk : engKind e = 2) (ho : r.op ≠ .keyGenerate) :
    s.pkComplete e = ((s.operationOff e r.privateImage).pkEnd (s.getEng e) r).boundary e := by
  simp only [State.pkComplete, hk, hw, bne_self_eq_false, Bool.false_eq_true, beq_iff_eq, ho, if_false]
  rfl

/-- R23: a pair that is made during a restart of the control pair waits for the end of the restart. -/
theorem State.pkComplete_of_pair (hw : s.workOf e = some r) (hk : engKind e = 2) (ho : r.op = .keyGenerate) :
    s.pkComplete e =
      (let z := { r with phase := .between }
       let t := (s.operationOff e r.privateImage).setMsg z
       if s.glb.ctrlRestart then t else t.pairMade z).boundary e := by
  simp only [State.pkComplete, hk, hw, ho, bne_self_eq_false, beq_self_eq_true, Bool.false_eq_true, if_true, if_false]
  rfl

theorem State.pkComplete_of_internal (hw : s.workOf e = none) (hi : s.internalOn e = some y) (hk : engKind e = 2) :
    s.pkComplete e = ((s.operationOff e true).endInternal y).boundary e := by
  simp only [State.pkComplete, hk, hw, hi, bne_self_eq_false, Bool.false_eq_true, if_false]
  rfl

theorem State.pkComplete_of_idle (hw : s.workOf e = none) (hi : s.internalOn e = none) : s.pkComplete e = s := by
  simp only [State.pkComplete, hw, hi, ite_self]

end Event

section Message

variable {t : State} {x : Engine} {r : MsgRec}

theorem State.dataLapEnd_of_fail (hf : (t.runLap x r (t.nextLap r)).1.fail = true) :
    t.dataLapEnd x r = t.failMsg r (Final.plain (failStatus r.op)) := by
  simp only [State.dataLapEnd, hf, if_true]

/-- A lap that does not fail keeps its context and counts its input; what is last decides what becomes of its output
(R107, R181, R183). -/
theorem State.dataLapEnd_of_good (hf : (t.runLap x r (t.nextLap r)).1.fail = false) :
    t.dataLapEnd x r =
      let l := t.nextLap r
      let y := t.runLap x r l
      let u := t.putCtx r y.1
      let z := { (u.findMsg r.id).getD r with done_ := r.done_ + l.n, phase := .between }
      if l.last then (u.setMsg z).deliver z y.2
      else if l.segEnd then (u.setMsg z).finishMsg z y.2 else (u.setMsg z).releaseLap z y.2 := by
  simp only [State.dataLapEnd, hf, Bool.false_eq_true, if_false]

/-- What a transaction function answers under the keys in an engine's registers. -/
def MsgRec.txEnd (r : MsgRec) (x : Engine) : BitVec 16 × Bytes :=
  let key (k : Option KeyRef) (b : Bytes) : KeyRef := (k.map (fun x => { x with material := b })).getD KeyRef.reset
  txRun r.op r.m (key r.keyA x.key.a) (key r.keyB x.key.b) r.random

theorem State.txLapEnd_eq : t.txLapEnd x r =
    if (r.txEnd x).1 = Status.ok then t.deliver r (r.txEnd x).2 else t.failMsg r (Final.plain (r.txEnd x).1) := by
  simp only [State.txLapEnd, beq_iff_eq]
  rfl

/-- What a public-key operation answers from an engine's operand memory. -/
def State.pkResult (t : State) (x : Engine) (r : MsgRec) : PkEnd :=
  pkRun ((t.jobOf r).withImage x.mem.image) x.mem.input x.mem.random

theorem State.pkEnd_eq : t.pkEnd x r =
    if (t.pkResult x r).status ≠ Status.ok then
      t.failMsg r { Final.plain (t.pkResult x r).status with output := (t.pkResult x r).output }
    else if (t.jobOf r).route = 1 then
      t.accept (some r.id) [.create (t.derived r (t.pkResult x r).secret)] (Final.good (t.pkResult x r).output)
    else t.finishMsg r (t.pkResult x r).output := by
  simp only [State.pkEnd, bne_iff_ne, beq_iff_eq]
  rfl

end Message

/-- Settles O26: the event takes the work off its engine, the result of the work decides what its message does, and the
engine is offered work. -/
theorem lapsAndOperations : Obligations.LapsAndOperations := by
  intro s e x
  refine ⟨?lap, ?operation, ?internal, fun hw => exec_lapComplete_of (State.lapComplete_of_idle hw),
    fun hw hi => exec_pkOperationComplete_of (State.pkComplete_of_idle hw hi), ?engine⟩
  case lap =>
    intro r hw hk hl t ht
    obtain rfl : t = s.lapOff e.val r := ht
    refine ⟨fun hf => ?_, fun hf => ?_⟩
    · have ends {u : State} (h : (s.lapOff e.val r).dataLapEnd x r = u) :
          exec (.lapComplete e) s = .next (s.settle (u.boundary e.val)) :=
        exec_lapComplete_of (h ▸ State.lapComplete_of_data hw hk hl hf)
      refine ⟨fun hbad => ends (State.dataLapEnd_of_fail hbad), fun hgood hlast => ?_, fun hgood hlast hseg => ?_,
        fun hgood hlast hseg => ?_⟩
      all_goals refine ends ((State.dataLapEnd_of_good hgood).trans ?_)
      · exact if_pos hlast
      · exact (if_neg (ne_true_of_eq_false hlast)).trans (if_pos hseg)
      · exact (if_neg (ne_true_of_eq_false hlast)).trans (if_neg (ne_true_of_eq_false hseg))
    · have ends {u : State} (h : (s.lapOff e.val r).txLapEnd x r = u) :
          exec (.lapComplete e) s = .next (s.settle (u.boundary e.val)) :=
        exec_lapComplete_of (h ▸ State.lapComplete_of_family7 hw hk hl hf)
      exact ⟨fun hok => ends (State.txLapEnd_eq.trans (if_pos hok)),
        fun hbad => ends (State.txLapEnd_eq.trans (if_neg hbad))⟩
  case operation =>
    intro r hw hk t ht
    obtain rfl : t = s.operationOff e.val r.privateImage := ht
    refine ⟨fun ho => ?_, fun ho => ?_⟩
    · have ends {u : State} (h : (s.operationOff e.val r.privateImage).pkEnd x r = u) :
          exec (.pkOperationComplete e) s = .next (s.settle (u.boundary e.val)) :=
        exec_pkOperationComplete_of (h ▸ State.pkComplete_of_data hw hk ho)
      refine ⟨fun hbad => ?_, fun hok hroute => ?_, fun hok hroute => ?_⟩
      all_goals refine ends (State.pkEnd_eq.trans ?_)
      · exact if_pos hbad
      · exact (if_neg (not_not_intro hok)).trans (if_pos hroute)
      · exact (if_neg (not_not_intro hok)).trans (if_neg hroute)
    · have hend := State.pkComplete_of_pair hw hk ho
      exact ⟨fun hc => exec_pkOperationComplete_of (by rw [hend, hc]; rfl),
        fun hc => exec_pkOperationComplete_of (by rw [hend, hc]; rfl)⟩
  case internal =>
    exact fun y hw hi hk => exec_pkOperationComplete_of (State.pkComplete_of_internal hw hi hk)
  case engine => exact fun y => ⟨rfl, rfl, rfl, rfl, rfl, rfl, rfl, rfl, rfl, rfl, rfl, rfl⟩

end Sys2Proof.Machine
end

section
/-! Clusters, hubs, spokes and the control pair (R16, R22, R23, R27, R28, R30, R124, R161, R248): what each event of the
fabric does where it occurs and where it cannot, and the statement O36 on them. -/

namespace Sys2Proof.Machine

section Cluster

variable {s : State} {c e cause n : Nat}

theorem State.freewheel_of_idle (hb : s.pwr.booted = true) (hu : s.cluUsable c = true) (hp : s.cluParked c = false)
    (hr : (s.getClu c).state = .running) (hf : s.sch.fwIdle ≠ 0) (hi : s.cluBusy c = false) :
    s.freewheel c = ((List.range 12).foldl (fun t i => t.modEng (12 * c + i) Engine.clear) s).modClu c
      (fun x => { x with state := .freewheel }) := by
  have hset : (s.sch.fwIdle != 0) = true := bne_iff_ne.mpr hf
  simp only [State.freewheel, hb, hu, hp, hr, hi, hset, beq_self_eq_true, Bool.not_false, Bool.and_self, if_true]

theorem State.freewheel_of_busy (h : s.cluBusy c = true) : s.freewheel c = s := by
  simp [State.freewheel, h]

theorem faultCode_eq_zero_iff (f : FaultCause) : faultCode f = 0 ↔ f = .corrected := by
  cases f <;> decide

/-- R28: a fault that the cluster's checkers see, and that names no engine, fences the cluster. -/
theorem State.clusterFault_of_unnamed (hz : cause ≠ 0) (h : s.detects c cause = true) :
    s.clusterFault c cause none = s.fence c cause 0xFF := by
  simp only [State.clusterFault, beq_false_of_ne hz, h, Bool.false_eq_true, if_true, if_false]

/-- R28: the fence records an engine of its own cluster. -/
theorem State.clusterFault_of_own (hz : cause ≠ 0) (h : s.detects c cause = true) (he : engCluster e = c) :
    s.clusterFault c cause (some e) = s.fence c cause e := by
  simp only [State.clusterFault, beq_false_of_ne hz, h, he, beq_self_eq_true, Bool.false_eq_true, if_true, if_false]

theorem State.clusterFault_of_unseen (hz : cause ≠ 0) (h : s.detects c cause = false) (engine : Option Nat) :
    s.clusterFault c cause engine = s := by
  simp [State.clusterFault, hz, h]

/-- Log 53: a corrected error counts in CLU_CE.STAGE and ends nothing. -/
theorem State.clusterFault_corrected (engine : Option Nat) :
    s.clusterFault c 0 engine =
      if s.detects c 1 then s.modClu c (fun x => { x with ceStage := satAdd 16 x.ceStage 1 }) else s := rfl

theorem State.storeScrub_of_detected (h : s.detects c 2 = true) (uncorrectable : Bool) :
    s.storeScrub c n uncorrectable =
      let t := s.modClu c (fun x => { x with scrub := satAdd 32 x.scrub 1, ceProg := satAdd 16 x.ceProg n })
      if uncorrectable then t.fence c 2 0xFF else t := by
  simp only [State.storeScrub, h, Bool.not_true, Bool.false_eq_true, if_false]

end Cluster

section Hub

variable {s : State} {q a b : Nat}

theorem State.hubFault_of_armed (hb : s.pwr.booted = true) (hq : s.hubBusy q = false) :
    s.hubFault q =
      let t := (List.range 4).foldl (fun t i => t.replayCluster (4 * q + i)) s
      { t with glb := { t.glb.contained with
          hubReset := t.glb.hubReset ||| (1 <<< q)
          hubResets := satAdd 16 t.glb.hubResets 1 } }.faultRecord 2 (src 3 (16 + q)) 0 0xFF := by
  simp only [State.hubFault, hb, hq, Bool.not_true, Bool.or_self, Bool.false_eq_true, if_false]

theorem State.spokeFault_of_open (hb : s.pwr.booted = true) (hne : a ≠ b)
    (ho : s.glb.spokesClosed.contains (min a b, max a b) = false) (hq : s.hubBusy a = false ∨ s.hubBusy b = false) :
    s.spokeFault a b =
      { s with glb := { s.glb.contained with spokesClosed := s.glb.spokesClosed ++ [(min a b, max a b)] } } := by
  have hboth : (s.hubBusy a && s.hubBusy b) = false := Bool.and_eq_false_iff.mpr hq
  have hself : (a == b) = false := beq_false_of_ne hne
  simp only [State.spokeFault, hb, hself, ho, hboth, Bool.not_true, Bool.or_self, Bool.false_eq_true, if_false]

/-- R27, R30: a spoke that is closed is not closed again, nor is one with both of its hubs in reset. -/
theorem State.spokeFault_of_folded (h : s.glb.spokesClosed.contains (min a b, max a b) = true
    ∨ (s.hubBusy a = true ∧ s.hubBusy b = true)) : s.spokeFault a b = s := by
  unfold State.spokeFault
  obtain h | ⟨ha, hb⟩ := h
  · simp only [h, Bool.or_true, Bool.true_or, if_true]
  · simp only [ha, hb, Bool.and_true, Bool.or_true, if_true]

end Hub

/-- The control pair runs again. -/
def State.pairBack (s : State) : State := { s with glb := { s.glb with ctrlRestart := false } }

section ControlPair

variable {s : State} {v : BitVec 32} {id : Nat} {x : HeldEnd} {r : MsgRec}

theorem State.controlRestart_of_running (hb : s.pwr.booted = true) (hr : s.glb.ctrlRestart = false) :
    s.controlRestart = ({ s with glb := { s.glb with
      ctrlRestart := true, ctrlRestarts := satAdd 16 s.glb.ctrlRestarts 1 } }.abortPostings.faultRecord 3 0 0 0xFF) := by
  simp only [State.controlRestart, hb, hr, Bool.not_true, Bool.or_self, Bool.false_eq_true, if_false]

theorem State.heldRecompute_of_none (h : s.hlt.recompute = false) : s.heldRecompute = s := by
  simp [State.heldRecompute, h]

theorem State.endHeld_of_none (h : s.sch.heldEnds = []) : s.endHeld = s := by
  simp only [State.endHeld, h, List.foldl_nil]
  rw [← h]

theorem State.endHeld_of_one (h : s.sch.heldEnds = [(id, x)]) (hr : s.findMsg id = some r) :
    s.endHeld = State.endCommit { s with sch := { s.sch with heldEnds := [] } } r x := by
  have hr' : State.findMsg { s with sch := { s.sch with heldEnds := [] } } id = some r := hr
  simp only [State.endHeld, h, List.foldl_cons, List.foldl_nil, hr']

/-- R23: with no parameter write that waited, the pair runs again and the ends that it held follow. -/
theorem State.controlRestartDone_of_noWrites (hc : s.glb.ctrlRestart = true) (hw : s.sch.heldWrites = []) :
    s.controlRestartDone = s.pairBack.endHeld := by
  simp only [State.controlRestartDone, hc, hw, Bool.not_true, Bool.false_eq_true, if_false, List.foldl_nil]
  rw [← hw]
  rfl

/-- R23: a write of SCH_CTL that waited takes effect before the ends that the restart held. -/
theorem State.controlRestartDone_of_schCtl (hc : s.glb.ctrlRestart = true) (hw : s.sch.heldWrites = [(0xA0000, v)]) :
    s.controlRestartDone =
      (State.writeSchCtl { s.pairBack with sch := { s.sch with heldWrites := [] } } v).endHeld := by
  simp only [State.controlRestartDone, hc, hw, Bool.not_true, Bool.false_eq_true, if_false, List.foldl_cons,
    List.foldl_nil, beq_self_eq_true, if_true]
  rfl

end ControlPair

/-- Settles O36: each clause is the law of its event, in a state where the event occurs or in one where it cannot. -/
theorem fabricEvents : Obligations.FabricEvents := by
  intro s
  have outcome {t u : State} (h : t = u) :
      (.next (s.settle t) : Host.Outcome State Fault Refusal) = .next (s.settle u) := by rw [h]
  refine ⟨?idle, ?busy, ?fenced, ?unseen, ?corrected, ?hub, ?hubDone, ?spoke, ?spokeFolded, ?restart, ?postings,
    ?doneFree, ?doneEnd, ?doneWrite, ?scrub⟩
  case idle => exact fun c hb hu hp hr hf hi => outcome (State.freewheel_of_idle hb hu hp hr hf hi)
  case busy => exact fun c h => outcome (State.freewheel_of_busy h)
  case fenced =>
    intro c cause e hc hd
    have hz : faultCode cause ≠ 0 := mt (faultCode_eq_zero_iff cause).mp hc
    exact ⟨outcome (State.clusterFault_of_unnamed hz hd), fun he => outcome (State.clusterFault_of_own hz hd he)⟩
  case unseen =>
    intro c cause e hc hd
    exact outcome (State.clusterFault_of_unseen (mt (faultCode_eq_zero_iff cause).mp hc) hd _)
  case corrected =>
    intro c e
    exact ⟨fun hd => outcome ((State.clusterFault_corrected _).trans (if_pos hd)),
      fun hd => outcome ((State.clusterFault_corrected _).trans (if_neg (ne_true_of_eq_false hd)))⟩
  case hub => exact fun q hb hq => ⟨_, rfl, outcome (State.hubFault_of_armed hb hq)⟩
  case hubDone => exact fun q => rfl
  case spoke =>
    exact fun a b hb hne ho hq => outcome (State.spokeFault_of_open hb (Fin.val_ne_of_ne hne) ho hq)
  case spokeFolded => exact fun a b h => outcome (State.spokeFault_of_folded h)
  case restart => exact fun hb hr => outcome (State.controlRestart_of_running hb hr)
  case postings => exact fun t => rfl
  case doneFree =>
    intro hc hw he hr
    apply outcome
    rw [State.controlRestartDone_of_noWrites hc hw, State.endHeld_of_none (s := s.pairBack) he]
    exact State.heldRecompute_of_none (s := s.pairBack) hr
  case doneEnd =>
    intro id x r hc hw he hm _
    apply outcome
    rw [State.controlRestartDone_of_noWrites hc hw, State.endHeld_of_one (s := s.pairBack) he hm]
    rfl
  case doneWrite =>
    intro v hc hw he
    apply outcome
    rw [State.controlRestartDone_of_schCtl hc hw,
      State.endHeld_of_none (s := State.writeSchCtl { s.pairBack with sch := { s.sch with heldWrites := [] } } v) he]
    rfl
  case scrub =>
    intro c n hd
    exact ⟨outcome (State.storeScrub_of_detected hd false), outcome (State.storeScrub_of_detected hd true)⟩

end Sys2Proof.Machine
end

section
/-! Data messages at step 10 (R21, R114, R129, R249): the row of a message, what the lines of its keys decide, and the
statement O48 on both. -/

namespace Sys2Proof.Machine

section Admitted

variable {s u : State} {o : Op} {m : Msg} {r : MsgRec}

/-- Every message row hands its message to the path of messages. -/
theorem exec_messageRow (o : Op) (m : Msg) (s : State) :
    exec (messageRow o m) s = .next (s.settle (s.message o m)) := by
  cases o <;> rfl

theorem exec_messageRow_of_admitted (h : s.admitted o m = some (u, r)) :
    exec (messageRow o m) s = .next (s.settle (u.execute r)) := by
  rw [exec_messageRow, State.message_of_admitted s o m _ h]

theorem State.keysReady_of_cached (h : s.keysMissing r = []) :
    s.keysReady r = s.modMsg r.id (fun x => { x with phase := .ready }) := by
  simp only [State.keysReady, h]

/-- R129, R249: one wait for all the reads that a message needs. -/
theorem State.keysReady_of_missing (h : s.keysMissing r ≠ []) :
    s.keysReady r = s.modMsg r.id (fun x => { x with phase := .vaultRead (s.keysMissing r), back := .ready }) := by
  unfold State.keysReady
  split
  · contradiction
  · rfl

/-- The opcodes that step 10 treats by name are none of the data messages. -/
theorem State.execute_of_isData (h : r.op.isData = true) : s.execute r = s.loadKeys r := by
  unfold State.execute
  split
  case h_10 => rw [if_pos h]
  all_goals
    rename_i ho
    rw [ho] at h
    contradiction

theorem State.execute_of_ledgerPost (h : r.op = .ledgerPost) : s.execute r = s := by
  simp only [State.execute, h]

/-- A message admitted under a data opcode, or a record that stands for one, is a data message. -/
theorem State.isData_of_admitted (h : s.admitted o m = some (u, r))
    (ho : (o.isData = true ∧ o ≠ .zrmRecord) ∨ (o = .zrmRecord ∧ r.op.isData = true)) : r.op.isData = true := by
  obtain ⟨hd, hz⟩ | ⟨-, hd⟩ := ho
  · have hop : r.op = o := State.admitted_op s o m (u, r) hz h
    rwa [hop]
  · exact hd

end Admitted

/-- Settles O48: a data message loads its keys, and the key cache decides between the two ends of that. -/
theorem dataMessagesBecomeReady : Obligations.DataMessagesBecomeReady := by
  intro s u o m r h v
  refine ⟨?data, ?posting⟩
  case data =>
    intro ho
    have hdata : r.op.isData = true := by
      refine State.isData_of_admitted h (ho.imp_left fun hm => ?_)
      have hall := List.all_eq_true (p := fun x : Op => x.isData && x != .zrmRecord).mp (by decide) o hm
      simpa using hall
    have hexec : exec (messageRow o m) s = .next (s.settle (v.keysReady r)) := by
      rw [exec_messageRow_of_admitted h, State.execute_of_isData hdata]
      rfl
    rw [hexec]
    exact ⟨fun hc => by rw [State.keysReady_of_cached hc], fun hm => by rw [State.keysReady_of_missing hm]⟩
  case posting =>
    rintro rfl
    have hop : r.op = .ledgerPost := State.admitted_op s .ledgerPost m (u, r) nofun h
    have hrow := exec_messageRow_of_admitted h
    rwa [State.execute_of_ledgerPost hop] at hrow

end Sys2Proof.Machine
end

section
/-! What the rows of the host link share (R46, R431): what a command's effect makes of its answer, the writes of the host in
the manager window and in a window of rings, and the frames of what several rows use. -/

namespace Sys2Proof.Machine

/-- Equal effects make equal answers. -/
theorem next_settle_congr {s t u : State} (h : t = u) :
    (.next (s.settle t) : Host.Outcome State Fault Refusal) = .next (s.settle u) := by
  rw [h]

section Access

variable {s t : State} {n off : Nat} {f : State → State}

theorem State.atManager_of_writable (h : s.writable off = true) : s.atManager off f = f s := by
  simp only [State.writable, Bool.and_eq_true, Option.isNone_iff_eq_none] at h
  obtain ⟨hup, hpass⟩ := h
  simp only [State.atManager, hup, hpass, if_true, Option.getD_none]

theorem State.atManager_of_down (h : s.mgrUp = false) : s.atManager off f = s.unreached 0 off := by
  simp only [State.atManager, h, Bool.false_eq_true, if_false]

/-- R431: unit 3 stops a write of the host before its register. -/
theorem State.atManager_of_refused (hup : s.mgrUp = true) (h : s.hostRefused 1 off 4 = some t) : s.atManager off f = t := by
  simp only [State.atManager, hup, h, if_true, Option.getD_some]

theorem State.reachable_of_ringWritable (h : s.ringWritable n off = true) : s.reachable n = true := by
  simp only [State.ringWritable, Bool.and_eq_true] at h
  exact h.1

theorem State.atRing_of_writable (h : s.ringWritable n off = true) : s.atRing n off f = f s := by
  simp only [State.ringWritable, Bool.and_eq_true, Bool.or_eq_true, bne_iff_ne, Option.isNone_iff_eq_none] at h
  obtain ⟨-, hn | hpass⟩ := h
  · simp only [State.atRing, beq_false_of_ne hn, Bool.false_and, Bool.false_eq_true, if_false]
  · simp only [State.atRing, hpass, Option.getD_none, ite_self]

/-- R431: the rings of the manager lie in its own window, behind unit 3. -/
theorem State.atRing_of_refused (hup : s.mgrUp = true) (h : s.hostRefused 1 (0x1000000 + off) 4 = some t) :
    s.atRing 0 off f = t := by
  simp only [State.atRing, hup, h, beq_self_eq_true, Bool.and_self, if_true, Option.getD_some]

end Access

/-- Changes of instances leave the link as it is. -/
theorem State.lnk_foldl_modInst (l : List Nat) (f : InstRec → InstRec) (s : State) :
    (l.foldl (fun t k => t.modInst k f) s).lnk = s.lnk := by
  induction l generalizing s with
  | nil => rfl
  | cons k l ih => exact ih (s.modInst k f)

end Sys2Proof.Machine
end

section
/-! The link up and down (R32, R33, R38, R54, R368): training, service ready, each loss, and the statement O13 on them. -/

namespace Sys2Proof.Machine

section Training

variable {s : State} {p : LinkParams} {was : BitVec 4}

theorem State.linkReady_of_down (hb : s.pwr.booted = true) (hp : s.pwr.perstLow = false) (hh : s.pwr.holdup = false)
    (hm : s.lnk.mode = 0) :
    s.linkReady p =
      let t := { s with lnk := s.lnk.train p }
      if s.glb.phase != 0 then t
      else if s.cfg.state == 2 then { t with glb := { s.glb with phase := 3 } }.upRecord
      else { t with glb := { s.glb with phase := 1 } } := by
  simp only [State.linkReady, hb, hp, hh, hm, Bool.not_true, bne_self_eq_false, Bool.or_self, Bool.false_eq_true, if_false]

theorem State.firstRecompute_of_same (h : s.glb.phase = was) : s.firstRecompute was = s := by
  simp only [State.firstRecompute, h, bne_self_eq_false, Bool.false_and, Bool.false_eq_true, if_false]

/-- The first recompute belongs to service ready and to kickstand. -/
theorem State.firstRecompute_of_waiting (h : s.glb.phase = 1) : s.firstRecompute was = s := by
  have hphase : (s.glb.phase == 2 || s.glb.phase == 3) = false := by rw [h]; decide
  simp only [State.firstRecompute, hphase, Bool.and_false, Bool.false_eq_true, if_false]

theorem State.serviceReady_of_ready (h : s.isReady = true) :
    s.serviceReady = { s with glb := { s.glb with phase := 2 } }.upRecord.arm := if_pos h

theorem State.serviceReady_of_unready (h : s.isReady = false) : s.serviceReady = s := if_neg (ne_true_of_eq_false h)

end Training

section Loss

variable {s : State}

theorem State.surpriseLoss_of_up (h : s.lnk.mode ≠ 0) :
    s.surpriseLoss =
      let t := s.lossRecord 1
      { t with lnk := { t.lnk with lossSurprise := satAdd 16 t.lnk.lossSurprise 1 } }.linkDown :=
  if_neg (mt beq_iff_eq.mp h)

theorem State.hotReset_of_up (h : s.lnk.mode ≠ 0) :
    s.hotReset =
      let t := s.lossRecord 2
      { t with lnk := { t.lnk with lossHot := satAdd 16 t.lnk.lossHot 1 } }.linkDown :=
  if_neg (mt beq_iff_eq.mp h)

theorem State.ideFailure_of_cache (h : s.lnk.ideCache = true) :
    s.ideFailure true =
      let t := (s.aer 0 aerIde).lossRecord 3
      { t with lnk := { t.lnk with ideCacheFail := satAdd 16 t.lnk.ideCacheFail 1 } }.linkDown := if_pos h

theorem State.ideFailure_of_io (h : s.lnk.ideIo = true) :
    s.ideFailure false =
      let t := (s.aer 0 aerIde).lossRecord 3
      { t with lnk := { t.lnk with ideIoFail := satAdd 16 t.lnk.ideIoFail 1 } }.linkDown := if_pos h

end Loss

/-- Settles O13: each clause is the law of its event with the link down, up, or secure. -/
theorem linkUpAndDown : Obligations.LinkUpAndDown := by
  intro s
  refine ⟨?first, ?again, ?ready, ?unready, ?ended, ?surprise, ?hot, ?cache, ?io⟩
  case first =>
    intro p hb hp hh hm hphase hcfg
    have hfirst : (s.glb.phase != 0) = false := by rw [hphase]; decide
    have htrain : s.linkReady p = { s with lnk := s.lnk.train p, glb := { s.glb with phase := 1 } } := by
      simp only [State.linkReady_of_down hb hp hh hm, hfirst, beq_false_of_ne hcfg, Bool.false_eq_true, if_false]
    refine next_settle_congr ?_
    rw [htrain, State.firstRecompute_of_waiting rfl]
  case again =>
    intro p hb hp hh hm hphase
    have htrain : s.linkReady p = { s with lnk := s.lnk.train p } := by
      simp only [State.linkReady_of_down hb hp hh hm, bne_iff_ne.mpr hphase, if_true]
    refine next_settle_congr ?_
    rw [htrain, State.firstRecompute_of_same rfl]
  case ready =>
    intro h
    exact next_settle_congr (by rw [State.serviceReady_of_ready h])
  case unready =>
    intro h
    exact next_settle_congr (by rw [State.serviceReady_of_unready h, State.firstRecompute_of_same rfl])
  case ended => exact fun t => ⟨rfl, rfl, rfl, rfl⟩
  case surprise => exact fun h => ⟨_, rfl, next_settle_congr (State.surpriseLoss_of_up h)⟩
  case hot => exact fun h => ⟨_, rfl, next_settle_congr (State.hotReset_of_up h)⟩
  case cache => exact fun h => ⟨_, rfl, next_settle_congr (State.ideFailure_of_cache h)⟩
  case io => exact fun h => ⟨_, rfl, next_settle_congr (State.ideFailure_of_io h)⟩

end Sys2Proof.Machine
end

section
/-! The configuration of the link (R35 to R39, R43): what becomes of an SPDM request, IDE keys, Cache_Enable, the virtual
functions and power states, and the statement O14 on them. -/

namespace Sys2Proof.Machine

/-- The generators that an SPDM answer draws from are seeded (R223). -/
def State.spdmSeeded (s : State) : Prop := s.genSeeded 257 = true ∧ s.genSeeded 259 = true

/-- The request stands as the one that waits. -/
def State.spdmWaits (s : State) (secured : Bool) (m : Bytes) : State :=
  s.modSpdm (fun p => { p with waiting := some (leBytes 1 (bit secured) ++ m) })

section Spdm

variable {s : State} {secured : Bool} {m : Bytes}

theorem State.spdmRequest_of_unseeded (hup : s.hostUp = true) (hw : s.lnk.spdm.waiting = none)
    (hd : spdmDraws secured m = true) (hn : ¬ s.spdmSeeded) : s.spdmRequest secured m = s.spdmWaits secured m := by
  have hseed : (s.genSeeded 257 && s.genSeeded 259) = false := by
    rw [State.spdmSeeded, ← Bool.and_eq_true] at hn
    exact eq_false_of_ne_true hn
  simp only [State.spdmRequest, hup, hw, hd, hseed, Bool.not_true, Option.isSome_none, Bool.or_self, Bool.false_eq_true,
    Bool.not_false, Bool.and_self, if_true, if_false]
  rfl

/-- A request with the random values it needs goes on to its public-key work, if it has any left, or is answered. -/
theorem State.spdmRequest_of_seeded (hup : s.hostUp = true) (hw : s.lnk.spdm.waiting = none)
    (hs : spdmDraws secured m = false ∨ s.spdmSeeded) :
    s.spdmRequest secured m =
      if !(s.spdmWork secured m).isEmpty && !s.served .spdm then
        if s.usableClusters.isEmpty then s.doeAnswer 1 (spdmError 0x03 0)
        else (s.spdmWaits secured m).submit .spdm (s.spdmWork secured m)
      else
        let a := if secured then s.spdmSecured m else s.spdmPlain m
        (a.2.useServed .spdm).doeAnswer (if secured then 2 else 1) a.1 := by
  have hseed : (spdmDraws secured m && !(s.genSeeded 257 && s.genSeeded 259)) = false := by
    obtain hd | ⟨h1, h2⟩ := hs
    · rw [hd, Bool.false_and]
    · rw [h1, h2, Bool.and_self, Bool.not_true, Bool.and_false]
  simp only [State.spdmRequest, hup, hw, hseed, Bool.not_true, Option.isSome_none, Bool.or_self, Bool.false_eq_true, if_false]
  cases !(s.spdmWork secured m).isEmpty && !s.served .spdm <;> rfl

theorem State.spdmWork_left (hwork : s.spdmWork secured m ≠ []) (hserved : s.served .spdm = false) :
    (!(s.spdmWork secured m).isEmpty && !s.served .spdm) = true := by
  rw [hserved, eq_false_of_ne_true (mt List.isEmpty_iff.mp hwork), Bool.not_false, Bool.and_self]

theorem State.spdmWork_done (h : s.spdmWork secured m = [] ∨ s.served .spdm = true) :
    (!(s.spdmWork secured m).isEmpty && !s.served .spdm) = false := by
  obtain h | h := h
  · rw [h, List.isEmpty_nil, Bool.not_true, Bool.false_and]
  · rw [h, Bool.not_true, Bool.and_false]

/-- Log 48: no cluster is left for the work of the internal world. -/
theorem State.spdmRequest_of_noCluster (hup : s.hostUp = true) (hw : s.lnk.spdm.waiting = none) (hs : s.spdmSeeded)
    (hwork : s.spdmWork secured m ≠ []) (hserved : s.served .spdm = false) (hc : s.usableClusters = []) :
    s.spdmRequest secured m = s.doeAnswer 1 (spdmError 0x03 0) := by
  rw [State.spdmRequest_of_seeded hup hw (.inr hs), if_pos (State.spdmWork_left hwork hserved), hc]
  rfl

theorem State.spdmRequest_of_work (hup : s.hostUp = true) (hw : s.lnk.spdm.waiting = none) (hs : s.spdmSeeded)
    (hwork : s.spdmWork secured m ≠ []) (hserved : s.served .spdm = false) (hc : s.usableClusters ≠ []) :
    s.spdmRequest secured m = (s.spdmWaits secured m).submit .spdm (s.spdmWork secured m) := by
  rw [State.spdmRequest_of_seeded hup hw (.inr hs), if_pos (State.spdmWork_left hwork hserved),
    if_neg (mt List.isEmpty_iff.mp hc)]

theorem State.spdmRequest_of_answer (hup : s.hostUp = true) (hw : s.lnk.spdm.waiting = none)
    (hs : spdmDraws secured m = false ∨ s.spdmSeeded) (hdone : s.spdmWork secured m = [] ∨ s.served .spdm = true) :
    s.spdmRequest secured m =
      let a := if secured then s.spdmSecured m else s.spdmPlain m
      (a.2.useServed .spdm).doeAnswer (if secured then 2 else 1) a.1 := by
  rw [State.spdmRequest_of_seeded hup hw hs, if_neg (ne_true_of_eq_false (State.spdmWork_done hdone))]

end Spdm

section Functions

variable {s : State} {n : Nat} {key : Bytes}

/-- R38: CXL.cache has a stream in CXL mode alone. -/
theorem State.ideKm_of_session (hup : s.hostUp = true) (hp : s.lnk.spdm.phase = 2) (hk : key.length = 32) (cache : Bool) :
    s.ideKm cache key =
      if cache then
        if s.lnk.mode = 2 then { s with lnk := { s.lnk with ideKeyCache := key, ideCache := true } } else s
      else { s with lnk := { s.lnk with ideKeyIo := key, ideIo := true } } := by
  cases cache
  · simp only [State.ideKm, hup, hp, hk, beq_self_eq_true, Bool.not_false, Bool.true_or, Bool.and_self, Bool.false_eq_true,
      if_true, if_false]
  · simp only [State.ideKm, hup, hp, hk, beq_self_eq_true, Bool.not_true, Bool.false_or, Bool.true_and, Bool.and_true,
      beq_iff_eq, if_true]

theorem State.cacheEnable_of_hostUp (hup : s.hostUp = true) (on : Bool) :
    s.cacheEnable on =
      let t := { s with lnk := { s.lnk with cacheEn := on } }
      if on then t else t.mapInst (fun i => { i with rings := i.rings.toDoorbell }) := by
  simp only [State.cacheEnable, hup, Bool.not_true, Bool.false_eq_true, if_false]

theorem State.numvfsWrite_of_disabled (hup : s.hostUp = true) (hv : s.lnk.vfEnable = false) :
    s.numvfsWrite n = { s with lnk := { s.lnk with numVfs := min n 255 } } := by
  simp only [State.numvfsWrite, hup, hv, Bool.not_false, Bool.and_self, if_true]

theorem State.numvfsWrite_of_enabled (hv : s.lnk.vfEnable = true) : s.numvfsWrite n = s := by
  simp only [State.numvfsWrite, hv, Bool.not_true, Bool.and_false, Bool.false_eq_true, if_false]

/-- R36: without the ARI hierarchy no more than seven virtual functions are enabled. -/
theorem State.enableVfs_lnk (hup : s.hostUp = true) (hv : s.lnk.vfEnable = false) (ari : Bool) :
    (s.enableVfs ari).lnk =
      let cut := !ari && s.lnk.numVfs > 7
      { s.lnk with vfEnable := true, ari := ari, fbAri := cut, vfsOn := if cut then 7 else s.lnk.numVfs } := by
  simp only [State.enableVfs, hup, hv, Bool.not_true, Bool.or_self, Bool.false_eq_true, if_false]
  exact State.lnk_foldl_modInst _ _ _

theorem State.disableVfs_of_enabled (hup : s.hostUp = true) (hv : s.lnk.vfEnable = true) :
    s.disableVfs =
      let t := { s with lnk := { s.lnk with vfEnable := false, vfsOn := 0 } }
      (State.vfs t).foldl State.initiateFlr t := by
  simp only [State.disableVfs, hup, hv, Bool.and_self, if_true]

theorem State.powerState_of_exists (hup : s.hostUp = true) (h : (s.getInst n).exists_ = true) (d3 : Bool) :
    s.powerState n d3 = s.modInst n (fun i => { i with d3hot := d3 }) := by
  simp only [State.powerState, hup, h, Bool.and_self, if_true]

end Functions

/-- Settles O14: each clause is the law of its command with the host link up. -/
theorem linkConfiguration : Obligations.LinkConfiguration := by
  intro s hup
  refine ⟨?spdm, ?ide, next_settle_congr (State.cacheEnable_of_hostUp hup true),
    next_settle_congr (State.cacheEnable_of_hostUp hup false), ?number, ?numberKept, ?enable, ?disable, ?power⟩
  case spdm =>
    intro m hw seeded
    refine ⟨?request, ?plain, ?secured⟩
    case request =>
      intro secured w hwait
      obtain rfl : w = s.spdmWaits secured m := hwait
      refine ⟨fun hd hn => next_settle_congr (State.spdmRequest_of_unseeded hup hw hd hn), fun hs hwork hserved => ⟨?_, ?_⟩⟩
      · exact fun hc => next_settle_congr (State.spdmRequest_of_noCluster hup hw hs hwork hserved hc)
      · exact fun hc => next_settle_congr (State.spdmRequest_of_work hup hw hs hwork hserved hc)
    case plain => exact fun hs hdone => next_settle_congr (State.spdmRequest_of_answer hup hw hs hdone)
    case secured => exact fun hs hdone => next_settle_congr (State.spdmRequest_of_answer hup hw (.inr hs) hdone)
  case ide =>
    intro key hp hk
    have hcache := State.ideKm_of_session hup hp hk true
    exact ⟨next_settle_congr (State.ideKm_of_session hup hp hk false),
      fun hm => next_settle_congr (hcache.trans (if_pos hm)), fun hm => next_settle_congr (hcache.trans (if_neg hm))⟩
  case number => exact fun n hv => next_settle_congr (State.numvfsWrite_of_disabled hup hv)
  case numberKept => exact fun n hv => next_settle_congr (State.numvfsWrite_of_enabled hv)
  case enable =>
    intro ari hv
    refine ⟨s.enableVfs ari, rfl, ?_⟩
    rw [State.enableVfs_lnk hup hv]
    cases ari
    · refine ⟨rfl, rfl, rfl, ?_⟩
      simp only [Bool.not_false, Bool.true_and, decide_eq_true_eq, gt_iff_lt, true_and]
    · exact ⟨rfl, rfl, rfl, rfl⟩
  case disable => exact fun hv => next_settle_congr (State.disableVfs_of_enabled hup hv)
  case power => exact fun n d3 h => next_settle_congr (State.powerState_of_exists hup h d3)

end Sys2Proof.Machine
end

section
/-! Function-level resets (R49 to R51): where one begins and where it has no effect, and the statement O15. -/

namespace Sys2Proof.Machine

section Reset

variable {s : State} {n : Nat}

theorem State.initiateFlr_of_live (hn : n ≠ 0) (he : (s.getInst n).exists_ = true) (hr : (s.getInst n).state ≠ .resetting) :
    s.initiateFlr n = s.beginReset n := by
  simp only [State.initiateFlr, bne_iff_ne.mpr hn, he, bne_iff_ne.mpr hr, Bool.and_self, if_true]

/-- R50: a second Initiate FLR has no effect. -/
theorem State.initiateFlr_of_resetting (h : (s.getInst n).state = .resetting) : s.initiateFlr n = s := by
  simp only [State.initiateFlr, h, bne_self_eq_false, Bool.and_false, Bool.false_eq_true, if_false]

theorem State.flrDrainComplete_of_draining (h : (s.getInst n).flrDrain = true) : s.flrDrainComplete n = s.endReset n :=
  if_pos h

end Reset

/-- Settles O15: the row of each reset does what its own law says once the host link is up. -/
theorem functionResets : Obligations.FunctionResets := by
  intro s
  refine ⟨?begins, ?again, ?drained, ?manager⟩
  case begins =>
    intro n hup hn he hr
    exact next_settle_congr ((if_pos hup).trans (State.initiateFlr_of_live hn he hr))
  case again =>
    intro n h
    refine next_settle_congr ?_
    rw [State.initiateFlr_of_resetting h, ite_self]
  case drained => exact fun n h => next_settle_congr (State.flrDrainComplete_of_draining h)
  case manager => exact fun hup => next_settle_congr (if_pos hup)

end Sys2Proof.Machine
end

section
/-! Violations of the protocol and failed DMA reads (R46, R47, R52): the rows of Table 2.10, the targets of a DMA error, and
the statement O16 on both. -/

namespace Sys2Proof.Machine

section Error

variable {s : State}

theorem State.dmaError_of_ring (h : s.lnk.mode ≠ 0) {n : Fin 256} (he : (s.getInst n.val).rings.en = true) :
    s.dmaError (.ring n) =
      (s.violation n.val violDma ((s.getInst n.val).rings.sqBase.toNat + 64 * (s.getInst n.val).rings.head)).ringFault n.val := by
  simp only [State.dmaError, beq_false_of_ne h, he, Bool.false_eq_true, if_true, if_false]

/-- Log 22: the manager is charged with the read of a bitmap. -/
theorem State.dmaError_of_bitmap (h : s.lnk.mode ≠ 0) {n : Fin 256} (he : (s.getInst n.val).dirty.en = true) :
    s.dmaError (.bitmap n) =
      (s.modInst n.val (fun i => { i with dirty := { i.dirty with en := false, error := true } })).violation 0 violDma
        (if (s.getInst n.val).dirty.active then (s.getInst n.val).dirty.mapB else (s.getInst n.val).dirty.mapA).toNat := by
  simp only [State.dmaError, beq_false_of_ne h, he, Bool.false_eq_true, if_true, if_false]

theorem State.dmaError_of_input (h : s.lnk.mode ≠ 0) {id e : Nat} {r : MsgRec} (hf : s.findMsg id = some r)
    (hr : r.reads = true) (hi : r.m.inlineIn = false) (he : e < r.m.sgl.length) :
    s.dmaError (.input id e) =
      (s.violation r.inst violDma r.m.sgl[e].addr.toNat).failMsg r (Final.refuse Status.hostMemError e) := by
  simp only [State.dmaError, beq_false_of_ne h, hf, hr, hi, he, List.getElem?_eq_getElem, decide_true, Option.map_some,
    Option.getD_some, Bool.not_false, Bool.and_self, Bool.false_eq_true, if_true, if_false]

end Error

/-- Settles O16: with the link up each kind of violation is its row of Table 2.10, and each DMA error the law of its target. -/
theorem violationsAndDmaErrors : Obligations.ViolationsAndDmaErrors := by
  intro s n a hup
  have up : ¬ (s.lnk.mode == 0) = true := mt beq_iff_eq.mp hup
  refine ⟨?unanswered, next_settle_congr (if_neg up), next_settle_congr (if_neg up), next_settle_congr (if_neg up),
    next_settle_congr (if_neg up), ?register, fun he => next_settle_congr (State.dmaError_of_ring hup he),
    fun he => next_settle_congr (State.dmaError_of_bitmap hup he), ?input⟩
  case unanswered => rintro k (rfl | rfl) <;> exact next_settle_congr (if_neg up)
  case register => rintro k (rfl | rfl) <;> exact next_settle_congr (if_neg up)
  case input =>
    intro id e r x hf hr hi hx
    obtain ⟨he, rfl⟩ := List.getElem?_eq_some_iff.mp hx
    exact next_settle_congr (State.dmaError_of_input hup hf hr hi he)

end Sys2Proof.Machine
end

section
/-! The tail line and the doorbells (R43, R44, R59): the events of the line that is watched, what becomes of a value of it and
of a doorbell, and the statement O18 on them. -/

namespace Sys2Proof.Machine

section TailLine

variable {s : State} {n v : Nat}

theorem State.snoop_of_shared (hw : s.watches n = true) (hs : (s.getInst n).rings.shared = true) :
    s.snoop n true = s.modRings n (fun r => { r with shared := false, reread := true }) := by
  simp only [State.snoop, hw, hs, Bool.and_self, if_true]

theorem State.snoop_of_kept : s.snoop n false = s := by
  simp only [State.snoop, Bool.and_false, Bool.false_eq_true, if_false]

theorem State.tailLineRead_of_pending (hw : s.watches n = true) (hr : (s.getInst n).rings.reread = true) (sq cq : Nat) :
    s.tailLineRead n sq cq =
      ((s.modRings n (fun r => { r with reread := false, shared := true })).takeIndex n true sq).takeIndex n false cq := by
  simp only [State.tailLineRead, hw, hr, Bool.and_self, if_true]

/-- R44: GO-Err leaves the ring in doorbell mode. -/
theorem State.goErr_of_pending (hw : s.watches n = true) (hr : (s.getInst n).rings.reread = true) :
    s.goErr n = (s.modRings n Rings.toDoorbell).violation n violLink (s.getInst n).tailHpa.toNat := by
  simp only [State.goErr, hw, hr, Bool.and_self, if_true]

theorem State.takeIndex_tail_of_inRange (h : v < (s.getInst n).rings.sqSize) :
    s.takeIndex n true v = s.modRings n (fun r => { r with tail := v, badTail := none }) := if_pos h

/-- R59: a value found bad before is not counted again. -/
theorem State.takeIndex_tail_of_known (h : (s.getInst n).rings.sqSize ≤ v) (hb : (s.getInst n).rings.badTail = some v) :
    s.takeIndex n true v = s := by
  simp only [State.takeIndex, if_true, Nat.not_lt.mpr h, hb, beq_self_eq_true, if_false]

end TailLine

/-- The offset of a doorbell in the window of its rings. -/
def doorbellOffset (sq : Bool) : Nat := if sq then 0x1000 else 0x1004

/-- The cells of the ring that a doorbell belongs to. -/
def Rings.cells (r : Rings) (sq : Bool) : Nat := if sq then r.sqSize else r.cqSize

/-- The tail or the head taken from a doorbell. -/
def Rings.rung (r : Rings) (sq : Bool) (v : Nat) : Rings := if sq then { r with tail := v } else { r with cqHead := v }

section Doorbell

variable {s : State} {n v : Nat} {sq : Bool}

theorem State.doorbell_of_off (hr : s.reachable n = true) (ho : (s.getInst n).rings.ringOn = false) :
    s.doorbell n sq v = s.violation n violRing (doorbellOffset sq) := by
  simp only [State.doorbell, hr, ho, Bool.not_true, Bool.not_false, Bool.false_eq_true, if_true, if_false]
  rfl

/-- In coherent mode a doorbell prompts a read of the tail line. -/
theorem State.doorbell_of_coherent (hr : s.reachable n = true) (ho : (s.getInst n).rings.ringOn = true)
    (hw : (s.getInst n).rings.watch = .coherent) :
    s.doorbell n sq v = s.modRings n (fun r => { r with reread := true }) := by
  simp only [State.doorbell, hr, ho, hw, Bool.not_true, Bool.false_eq_true, if_false]

theorem State.doorbell_of_direct (hr : s.reachable n = true) (ho : (s.getInst n).rings.ringOn = true)
    (hw : (s.getInst n).rings.watch ≠ .coherent) :
    s.doorbell n sq v =
      if (s.getInst n).rings.cells sq ≤ v then s.violation n violRing (doorbellOffset sq)
      else s.modRings n (fun r => r.rung sq v) := by
  simp only [State.doorbell, hr, ho, Bool.not_true, Bool.false_eq_true, if_false]
  cases sq <;> rfl

theorem State.doorbell_of_inRange (hr : s.reachable n = true) (ho : (s.getInst n).rings.ringOn = true)
    (hw : (s.getInst n).rings.watch ≠ .coherent) (hv : v < (s.getInst n).rings.cells sq) :
    s.doorbell n sq v = s.modRings n (fun r => r.rung sq v) :=
  (State.doorbell_of_direct hr ho hw).trans (if_neg (Nat.not_le.mpr hv))

theorem State.doorbell_of_outOfRange (hr : s.reachable n = true) (ho : (s.getInst n).rings.ringOn = true)
    (hw : (s.getInst n).rings.watch ≠ .coherent) (hv : (s.getInst n).rings.cells sq ≤ v) :
    s.doorbell n sq v = s.violation n violRing (doorbellOffset sq) :=
  (State.doorbell_of_direct hr ho hw).trans (if_pos hv)

end Doorbell

/-- Settles O18: the events of the tail line by their laws, and each doorbell, once its write is let through, by the mode of
its ring. -/
theorem tailAndDoorbells : Obligations.TailAndDoorbells := by
  intro s n
  have sqRow (v : BitVec 32) {t : State} (hp : s.ringWritable n.val 0x1000 = true)
      (h : s.doorbell n.val true (v.toNat % 65536) = t) : exec (.vfSqDb n v) s = .next (s.settle t) :=
    next_settle_congr ((State.atRing_of_writable hp).trans h)
  have cqRow (v : BitVec 32) {t : State} (hp : s.ringWritable n.val 0x1004 = true)
      (h : s.doorbell n.val false (v.toNat % 65536) = t) : exec (.vfCqDb n v) s = .next (s.settle t) :=
    next_settle_congr ((State.atRing_of_writable hp).trans h)
  refine ⟨fun hw hs => next_settle_congr (State.snoop_of_shared hw hs), next_settle_congr State.snoop_of_kept,
    fun sq cq hw hr => next_settle_congr (State.tailLineRead_of_pending hw hr _ _),
    fun v => State.takeIndex_tail_of_inRange, fun v => State.takeIndex_tail_of_known, rfl,
    fun hw hr => next_settle_congr (State.goErr_of_pending hw hr), ?direct, ?coherent, ?off, ?refused⟩
  case direct =>
    intro v hsq hcq ho hw
    have hr := State.reachable_of_ringWritable hsq
    exact ⟨fun hv => sqRow v hsq (State.doorbell_of_inRange hr ho hw hv),
      fun hv => sqRow v hsq (State.doorbell_of_outOfRange hr ho hw hv),
      fun hv => cqRow v hcq (State.doorbell_of_inRange hr ho hw hv),
      fun hv => cqRow v hcq (State.doorbell_of_outOfRange hr ho hw hv)⟩
  case coherent =>
    intro v hsq hcq ho hw
    have hr := State.reachable_of_ringWritable hsq
    exact ⟨sqRow v hsq (State.doorbell_of_coherent hr ho hw), cqRow v hcq (State.doorbell_of_coherent hr ho hw)⟩
  case off =>
    intro v hsq hcq ho
    have hr := State.reachable_of_ringWritable hsq
    exact ⟨sqRow v hsq (State.doorbell_of_off hr ho), cqRow v hcq (State.doorbell_of_off hr ho)⟩
  case refused =>
    exact fun v t hup => ⟨fun h => next_settle_congr (State.atRing_of_refused hup h),
      fun h => next_settle_congr (State.atRing_of_refused hup h)⟩

end Sys2Proof.Machine
end

section
/-! Rings and dirty-page logging (R41, R52, R53, R55, R60): writes of EN, the end of a drain, the switch and the swap of the
bitmaps, and the statement O19 on them. -/

namespace Sys2Proof.Machine

section Enable

variable {s : State} {n : Nat}

theorem State.ringEnable_of_valid (hr : s.reachable n = true) (he : (s.getInst n).rings.en = false)
    (hv : s.ringsValid n = true) :
    s.ringEnable n =
      (s.modInst n (fun i => { i with state := .ringsOn, rings := i.rings.start (s.watchOf n) })).writeLine n := by
  simp only [State.ringEnable, hr, he, hv, Bool.not_true, Bool.false_eq_true, if_true, if_false]

theorem State.ringEnable_of_invalid (hr : s.reachable n = true) (he : (s.getInst n).rings.en = false)
    (hv : s.ringsValid n = false) : s.ringEnable n = s.modRings n (fun r => { r with cfgErr := true }) := by
  simp only [State.ringEnable, hr, he, hv, Bool.not_true, Bool.false_eq_true, if_false]

theorem State.ringEnable_of_enabled (hr : s.reachable n = true) (he : (s.getInst n).rings.en = true) : s.ringEnable n = s := by
  simp only [State.ringEnable, hr, he, Bool.not_true, Bool.false_eq_true, if_true, if_false]

theorem State.ringDisable_of_enabled (hr : s.reachable n = true) (he : (s.getInst n).rings.en = true) :
    s.ringDisable n = (s.modRings n (fun r => { r with en := false })).writeLine n := by
  simp only [State.ringDisable, hr, he, Bool.not_true, Bool.false_eq_true, if_true, if_false]

theorem State.ringDisable_of_disabled (hr : s.reachable n = true) (he : (s.getInst n).rings.en = false) :
    s.ringDisable n = s := by
  simp only [State.ringDisable, hr, he, Bool.not_true, Bool.false_eq_true, if_false]

end Enable

/-- The rings of one function are off, with nothing left of its tail line. -/
def State.ringsStopped (s : State) (n : Nat) : State :=
  s.modInst n (fun i => { i with
    state := .ringsOff, rings := { i.rings with ringOn := false, watch := .off, reread := false, shared := false } })

section Drain

variable {s : State} {n : Nat}

/-- After a ring fault the line keeps what the fault wrote. -/
theorem State.ringDrained_of_empty (he : (s.getInst n).rings.en = false) (ho : (s.getInst n).rings.ringOn = true)
    (hs : (s.getInst n).state ≠ .resetting) (hm : s.sch.msgs.all (fun m => m.inst != n) = true) :
    s.ringDrained n =
      if (s.getInst n).rings.ringFault then s.ringsStopped n else (s.ringsStopped n).writeLine n := by
  simp only [State.ringDrained, he, ho, bne_iff_ne.mpr hs, hm, Bool.not_false, Bool.and_self, if_true]
  rfl

theorem State.ringDrained_of_resetting (h : (s.getInst n).state = .resetting) : s.ringDrained n = s := by
  simp only [State.ringDrained, h, bne_self_eq_false, Bool.and_false, Bool.false_and, Bool.false_eq_true, if_false]

theorem State.ringDrained_of_message (h : s.sch.msgs.any (fun m => m.inst == n) = true) : s.ringDrained n = s := by
  have hall : s.sch.msgs.all (fun m => m.inst != n) = false := by
    obtain ⟨r, hr, hi⟩ := List.any_eq_true.mp h
    refine List.all_eq_false.mpr ⟨r, hr, ?_⟩
    rw [bne, hi, Bool.not_true]
    exact Bool.false_ne_true
  simp only [State.ringDrained, hall, Bool.and_false, Bool.false_eq_true, if_false]

end Drain

/-- Settles O19: each write of EN by what it finds, the drain by what is left, and the two rows of dirty-page logging. -/
theorem ringsAndDirtyLogging : Obligations.RingsAndDirtyLogging := by
  intro s n
  have enableRow {t : State} (hp : s.ringWritable n.val 0x18 = true) (h : s.ringEnable n.val = t) :
      exec (.ringEnable n) s = .next (s.settle t) :=
    next_settle_congr ((State.atRing_of_writable hp).trans h)
  have disableRow {t : State} (hp : s.ringWritable n.val 0x18 = true) (h : s.ringDisable n.val = t) :
      exec (.ringDisable n) s = .next (s.settle t) :=
    next_settle_congr ((State.atRing_of_writable hp).trans h)
  refine ⟨?valid, ?invalid, ?enabled, ?refused, fun r w => ⟨rfl, rfl, rfl, rfl, rfl, rfl⟩, ?disable, ?disabled, ?drained,
    fun h => next_settle_congr (State.ringDrained_of_resetting h),
    fun h => next_settle_congr (State.ringDrained_of_message h), ?dirty⟩
  case valid =>
    exact fun hp he hv => enableRow hp (State.ringEnable_of_valid (State.reachable_of_ringWritable hp) he hv)
  case invalid =>
    exact fun hp he hv => enableRow hp (State.ringEnable_of_invalid (State.reachable_of_ringWritable hp) he hv)
  case enabled =>
    exact fun hp he => enableRow hp (State.ringEnable_of_enabled (State.reachable_of_ringWritable hp) he)
  case refused =>
    exact fun t hup h => ⟨next_settle_congr (State.atRing_of_refused hup h), next_settle_congr (State.atRing_of_refused hup h)⟩
  case disable =>
    exact fun hp he => disableRow hp (State.ringDisable_of_enabled (State.reachable_of_ringWritable hp) he)
  case disabled =>
    exact fun hp he => disableRow hp (State.ringDisable_of_disabled (State.reachable_of_ringWritable hp) he)
  case drained =>
    intro t ht he ho hs hm
    obtain rfl : t = s.ringsStopped n.val := ht
    have hend := State.ringDrained_of_empty he ho hs hm
    exact ⟨fun hf => next_settle_congr (hend.trans (if_neg (ne_true_of_eq_false hf))),
      fun hf => next_settle_congr (hend.trans (if_pos hf))⟩
  case dirty =>
    intro on hn hp
    have hvf : ¬ (n.val == 0) = true := mt beq_iff_eq.mp hn
    exact ⟨next_settle_congr ((State.atManager_of_writable hp).trans (if_neg hvf)),
      next_settle_congr ((State.atManager_of_writable hp).trans (if_neg hvf))⟩

end Sys2Proof.Machine
end

section
/-! Command registers (R56, R231, R270, R386, R407, R427, R428, R431): the rows that write one, what each write does, and the
statement O21 on them. -/

namespace Sys2Proof.Machine

/-- The rows that write a command register of the manager window, each with the register's offset. -/
def commandRows (n : Fin 256) (i : Fin 8) (v : BitVec 32) (u : Fin 21) (a : Option Access) (r : HourReport) (mv : Nat)
    (w : BitVec 16) (on : Bool) : List (Instr × Nat) :=
  [(.lnkViolClrAll, 0xD0010), (.lnkViolClrInstance n, 0xD0010), (.prsUserWrite i v, 0x20020 + 4 * i.val),
    (.retest, 0x80004), (.checkpoint, 0x9006C), (.dbgClose, 0x30020), (.recommission v, 0x40014),
    (.acuCaptureClear u a, capInfoOffset u.val), (.recompute r, 0x60010), (.cellNew, 0x60010), (.measure mv w, 0x70034),
    (.dirtyLogEnable n on, dirtyCtlOffset n.val), (.swap n, dirtyCtlOffset n.val)]

/-- Every such row is a write of the host at its offset. -/
theorem exec_commandRow (s : State) (n : Fin 256) (i : Fin 8) (v : BitVec 32) (u : Fin 21) (a : Option Access)
    (r : HourReport) (mv : Nat) (w : BitVec 16) (on : Bool) :
    ∀ p ∈ commandRows n i v u a r mv w on, ∃ f, exec p.1 s = .next (s.settle (s.atManager p.2 f)) := by
  simp only [commandRows, List.forall_mem_cons]
  exact ⟨⟨_, rfl⟩, ⟨_, rfl⟩, ⟨_, rfl⟩, ⟨_, rfl⟩, ⟨_, rfl⟩, ⟨_, rfl⟩, ⟨_, rfl⟩, ⟨_, rfl⟩, ⟨_, rfl⟩, ⟨_, rfl⟩, ⟨_, rfl⟩,
    ⟨_, rfl⟩, ⟨_, rfl⟩, List.forall_mem_nil _⟩

section Write

variable {s : State} {v : BitVec 32}

theorem State.violClear_of_number (n : Fin 256) :
    s.violClear (BitVec.ofNat 32 n.val) = s.modInst n.val InstRec.clearViol := by
  have hone : (BitVec.ofNat 32 n.val).getLsbD 8 = false := by
    rw [BitVec.getLsbD_ofNat, Nat.testBit_lt_two_pow (show n.val < 2 ^ 8 from n.isLt), Bool.and_false]
  have hnum : (BitVec.ofNat 32 n.val).toNat % 256 = n.val := by
    have := n.isLt
    simp only [BitVec.toNat_ofNat]
    omega
  simp only [State.violClear, hone, hnum, Bool.false_eq_true, if_false]

theorem State.retest_of_failed (h : s.rng.phase = 5) :
    s.retest = { s with rng := { s.rng with
      phase := 4, recover := true, stopped := true, testing := false, retries := 0 } } := if_pos (beq_iff_eq.mpr h)

theorem State.retest_of_sound (h : s.rng.phase ≠ 5) : s.retest = s := if_neg (mt beq_iff_eq.mp h)

theorem State.ckptRequest_of_mounted (h : s.mounted = true) : s.ckptRequest = s.checkpoint := if_pos h

theorem State.ckptRequest_of_unmounted (h : s.mounted = false) :
    s.ckptRequest = { s with vlt := { s.vlt with ckptBusy := true } } := if_neg (ne_true_of_eq_false h)

theorem State.closeDebug_of_open (h : s.lcs.debug ≠ 0) (cause : Nat) :
    s.closeDebug cause =
      let t := s.record 0x0502 0 3 (pay s.lcs.debug cause s.prf.dbgCount)
      State.programUnit { t with lcs := { t.lcs with debug := 0, violTimes := [] } } 20 := if_neg (mt beq_iff_eq.mp h)

theorem State.recommission_of_noKey (h : v.toNat / 65536 ≠ 0x5A3C ∨ v.getLsbD 1 = false) : s.recommission v = s := by
  refine if_pos (Bool.or_eq_true_iff.mpr ?_)
  exact h.imp bne_iff_ne.mpr (fun hb => by rw [hb, Bool.not_false])

/-- R427: a request with its key is judged by the one that runs, if one does, and by its own cause. -/
theorem State.recommission_of_key (hk : v.toNat / 65536 = 0x5A3C) (hb : v.getLsbD 1 = true) :
    s.recommission v =
      if s.tmp.recomState = 1 then
        if s.recomCheck = 0 then s else { s with tmp := { s.tmp with recomCause := s.recomCheck } }.recomRecord
      else if s.recomCheck ≠ 0 then
        { s with tmp := { s.tmp with recomCause := s.recomCheck, recomState := 3 } }.recomRecord
      else { s with tmp := { s.tmp with recomCause := 0, recomState := 1 } }.recomRecord.recomFormat := by
  simp only [State.recommission, hk, hb, bne_self_eq_false, Bool.not_true, Bool.or_self, Bool.false_eq_true, beq_iff_eq,
    bne_iff_ne, if_false]

/-- Log 74: a request that nothing refuses changes nothing while one runs. -/
theorem State.recommission_of_running (hs : s.tmp.recomState = 1) (hc : s.recomCheck = 0) : s.recommission v = s := by
  by_cases hk : v.toNat / 65536 = 0x5A3C
  · cases hb : v.getLsbD 1
    · exact State.recommission_of_noKey (.inr hb)
    · rw [State.recommission_of_key hk hb, if_pos hs, if_pos hc]
  · exact State.recommission_of_noKey (.inl hk)

end Write

section Format

variable {s t : State}

theorem State.bbramValid_of_keeps (h : s.keeps t) : t.bbramValid = s.bbramValid := by
  obtain ⟨-, -, -, hisl, hotp, -⟩ := h
  simp only [State.bbramValid, State.envCheck, State.rootSecret, hisl, hotp]

theorem State.bbramValid_of_unrefused (h : s.recomCheck = 0) : s.bbramValid = false := by
  refine eq_false_of_ne_true fun hb => ?_
  simp only [State.recomCheck, hb, if_true] at h
  split at h <;> contradiction

theorem State.recomFormat_of_ready (h : s.recomReady = true) :
    s.recomFormat =
      let k := s.drawBytes 257 32
      let p := k.2.drawBytes 258 32
      (p.2.formatVault k.1 p.1).startMount := if_pos h

theorem State.recomFormat_of_waiting (h : s.recomReady = false) : s.recomFormat = s := if_neg (ne_true_of_eq_false h)

/-- R427: a request that nothing refuses waits for the generators of its keys alone. -/
theorem State.recomReady_of_begun (hc : s.recomCheck = 0)
    (ht : t = { s with tmp := { s.tmp with recomCause := 0, recomState := 1 } }.recomRecord) :
    t.recomReady = (t.genSeeded 257 && t.genSeeded 258) := by
  have hkeep : State.keeps { s with tmp := { s.tmp with recomCause := 0, recomState := 1 } } t := by
    rw [ht]
    exact State.keeps_record _ _ _ _ _
  have hb : t.bbramValid = false := (State.bbramValid_of_keeps hkeep).trans (State.bbramValid_of_unrefused hc)
  have hs : t.tmp.recomState = 1 := by
    obtain ⟨-, -, -, -, -, -, -, -, -, htmp, -⟩ := hkeep
    rw [htmp]
  simp only [State.recomReady, hb, hs, beq_self_eq_true, Bool.not_false, Bool.true_and]

end Format

/-- Settles O21: each write that unit 3 lets through does what its register's law says, and the rest is the law of the
manager window. -/
theorem commandRegisters : Obligations.CommandRegisters := by
  intro s
  have reaches {off : Nat} {f : State → State} {t : State} (hp : s.writable off = true) (h : f s = t) :
      (.next (s.settle (s.atManager off f)) : Host.Outcome State Fault Refusal) = .next (s.settle t) :=
    next_settle_congr ((State.atManager_of_writable hp).trans h)
  refine ⟨fun hp => reaches hp rfl, fun n hp => reaches hp (State.violClear_of_number n), fun i => rfl,
    fun i v hp => reaches hp rfl, fun hp h => reaches hp (State.retest_of_failed h),
    fun hp h => reaches hp (State.retest_of_sound h), fun hp h => reaches hp (State.ckptRequest_of_mounted h),
    fun hp h => reaches hp (State.ckptRequest_of_unmounted h),
    fun hp h => ⟨_, rfl, reaches hp (State.closeDebug_of_open h 5)⟩, ?unchanged, ?again, ?refused, ?begun, ?rows⟩
  case unchanged =>
    intro v hp h
    obtain h | h | ⟨hs, hc⟩ := h
    · exact reaches hp (State.recommission_of_noKey (.inl h))
    · exact reaches hp (State.recommission_of_noKey (.inr h))
    · exact reaches hp (State.recommission_of_running hs hc)
  case again =>
    intro v hp hk hb hs hc
    exact reaches hp (by rw [State.recommission_of_key hk hb, if_pos hs, if_neg hc])
  case refused =>
    intro v hp hk hb hs hc
    exact reaches hp (by rw [State.recommission_of_key hk hb, if_neg hs, if_pos hc])
  case begun =>
    intro v hp hk hb hs hc
    refine ⟨_, rfl, ?_⟩
    generalize ht : State.recomRecord { s with tmp := { s.tmp with recomCause := 0, recomState := 1 } } = t
    have hready := State.recomReady_of_begun hc ht.symm
    have hwrite : s.recommission v = t.recomFormat := by
      rw [State.recommission_of_key hk hb, if_neg hs, if_neg (not_not_intro hc), ht]
    refine ⟨fun h257 h258 => ⟨_, _, _, rfl, rfl, rfl, ?_⟩, fun h => ?_⟩
    · exact reaches hp (hwrite.trans (State.recomFormat_of_ready (by rw [hready, h257, h258, Bool.and_self])))
    · exact reaches hp (hwrite.trans (State.recomFormat_of_waiting (hready.trans (Bool.and_eq_false_iff.mpr h))))
  case rows =>
    intro n i v u a r mv w on c off hmem
    obtain ⟨f, hrow⟩ := exec_commandRow s n i v u a r mv w on (c, off) hmem
    refine ⟨fun hdown => hrow.trans (next_settle_congr (State.atManager_of_down hdown)), fun t hup h => ?_⟩
    exact hrow.trans (next_settle_congr (State.atManager_of_refused hup h))

end Sys2Proof.Machine
end

section
/-! The fetch of a message and steps 1 to 4 (R61, R64, R78 to R80, R90 to R93, R405): which messages are fetched, how a check
that fails ends one, the commands of the UART, and the statement O44 on them. -/

namespace Sys2Proof.Machine

section Fetch

variable {s : State} {o : Op} {m : Msg} {f : Final}

theorem State.fetchable_of_uart (h : m.uart = true) : s.fetchable m = false := by
  simp only [State.fetchable, h, Bool.not_true, Bool.false_and]

theorem State.message_of_fetchable (h : s.fetchable m = true) : s.message o m = s.intake o m := by
  simp only [State.message, h, if_true]

theorem State.message_of_unfetchable (h : s.fetchable m = false) (ho : m.uart = false ∨ o ≠ .debugAuthorize) :
    s.message o m = s := by
  have hring : (m.uart && o == .debugAuthorize) = false := by
    simpa only [Bool.and_eq_false_iff, beq_eq_false_iff_ne] using ho
  simp only [State.message, h, hring, Bool.false_eq_true, if_false]

theorem exec_messageRow_of_message {t : State} (h : s.message o m = t) :
    exec (messageRow o m) s = .next (s.settle t) :=
  (exec_messageRow o m s).trans (next_settle_congr h)

theorem State.message_of_uart (h : m.uart = true) : s.message .debugAuthorize m = s.uartCommand m := by
  simp only [State.message, State.fetchable_of_uart h, h, beq_self_eq_true, Bool.and_self, Bool.false_eq_true, if_false,
    if_true]

/-- R79: the first of steps 1 to 3 that fails ends the message. -/
theorem State.message_of_refusedCell (h : s.fetchable m = true) (hc : (checkHeader m <|> checkOp o m) = some f) :
    s.message o m = (s.take o m).refuse (s.newRec o m) f := by
  simp only [State.message_of_fetchable h, State.intake, hc]

theorem State.message_of_refused4 (h : s.fetchable m = true) (h12 : checkHeader m = none) (h3 : checkOp o m = none)
    (h4 : (s.take o m).check4 o m.instN = some f) (hf : f.status ≠ Status.instanceUnbound) :
    s.message o m = (s.take o m).refuse4 (s.newRec o m) f := by
  have h123 : (checkHeader m <|> checkOp o m) = none := by rw [h12, h3]; rfl
  have hraise : (f.status == Status.instanceUnbound) = false := beq_eq_false_iff_ne.mpr hf
  simp only [State.message_of_fetchable h, State.intake, h123, h4, hraise, Bool.false_eq_true, if_false]

theorem checkOp_of_opcode (h : m.cell.opcode ≠ o.code) : checkOp o m = some (Final.plain Status.opcodeUnknown) := by
  simp [checkOp, failIf, h, Final.plain]

theorem checkOp_of_admin (h : m.cell.opcode = o.code) (ha : o.isAdmin = true) (hn : m.instN ≠ 0) :
    checkOp o m = some (Final.plain Status.adminOnly) := by
  simp [checkOp, failIf, h, ha, hn, Final.plain]

end Fetch

section Uart

variable {s t : State} {m : Msg} {r : MsgRec} {f : Final}

theorem exec_debugAuthorize_of_uart (hu : m.uart = true) (h : s.uartCommand m = t) :
    exec (.debugAuthorize m) s = .next (s.settle t) := by
  rw [← h, ← State.message_of_uart hu]
  rfl

/-- Log 97: RESP is not answered in IMAGO. -/
theorem State.uartCommand_of_imago (hb : s.pwr.booted = true) (hh : s.pwr.holdup = false) (hl : s.lcs.busy = false)
    (hd : debugMode m = 1) (hc : s.lc = 3)
    (hr : r = s.newRec .debugAuthorize { m with cell := { m.cell with outCap := 128 } })
    (ht : t = { s with sch := { s.sch with nextId := s.sch.nextId + 1, msgs := s.sch.msgs ++ [r] } }) :
    s.uartCommand m = t.refuse r (Final.refuse Status.lcState 1) := by
  subst hr ht
  have hlc (x : Sch) : State.lc { s with sch := x } = 3 := hc
  simp [State.uartCommand, hb, hh, hl, hd, hlc, failIf]

theorem State.complete_of_uart (hu : r.m.uart = true) (hr : r.reply f = none) (b : Bool) :
    s.complete r f b = { (s.closeSession r).dropMsg r.id with uart := uartAnswer f.status } := by
  simp only [State.complete, hr, State.writeCell, hu, if_true]

theorem State.closeSession_out (s : State) (r : MsgRec) : (s.closeSession r).out = s.out := by
  unfold State.closeSession
  split
  · exact State.modInst_out s r.inst _
  · rfl

end Uart

/-- Settles O44: the fetch decides first, then the checks in the order of R79, each by its law. -/
theorem refusedMessages : Obligations.RefusedMessages := by
  intro s o m
  have row {t : State} (h : s.message o m = t) := exec_messageRow_of_message h
  refine ⟨fun hf ho => row (State.message_of_unfetchable hf ho), fun hu => exec_debugAuthorize_of_uart hu rfl, ?response,
    ?answer, fun f hf hh => row (State.message_of_refusedCell hf ?header),
    fun hf hh hc => row (State.message_of_refusedCell hf ?opcode),
    fun hf hh hc ha hn => row (State.message_of_refusedCell hf ?admin),
    fun f hf hh h3 h4 hne => row (State.message_of_refused4 hf hh h3 h4 hne)⟩
  case response =>
    intro hu hb hh hl hd hc
    exact ⟨_, _, rfl, rfl, exec_debugAuthorize_of_uart hu (State.uartCommand_of_imago hb hh hl hd hc rfl rfl)⟩
  case answer =>
    intro r f b hu hr
    rw [State.complete_of_uart hu hr]
    exact ⟨rfl, State.closeSession_out s r⟩
  case header => rw [hh]; rfl
  case opcode => rw [hh, checkOp_of_opcode hc]; rfl
  case admin => rw [hh, checkOp_of_admin hc ha hn]; rfl

end Sys2Proof.Machine
end

section
/-! The execution of messages (R78, R110, R114, R117, R120): the record with which a control-path message is drawn, what it
does once its draws are served, and the statement O45 on both. -/

namespace Sys2Proof.Machine

section Record

variable {s : State} {r x : MsgRec} {m : Msg} {p : State × MsgRec}

/-- R360: no function of record mode is record mode itself. -/
theorem zrmOp_ne_zrmRecord (code : Nat) : (zrmOp code).getD .nop ≠ .zrmRecord := by
  unfold zrmOp
  split <;> decide

theorem State.zrmConvert_op_ne (h : s.zrmConvert r = .inr x) : x.op ≠ .zrmRecord := by
  unfold State.zrmConvert at h
  dsimp only at h
  split at h
  · cases h
  · split at h
    · cases h
    · split at h
      · cases h
      · split at h
        · cases h
        · cases h
          exact zrmOp_ne_zrmRecord _

theorem State.passed8_op (h : s.passed8 r = some p) : p.2.op = r.op := by
  rw [State.passed8_record s r p h]

theorem State.passed7_op_ne (hr : r.op = .zrmRecord) (h : s.passed7 r = some p) : p.2.op ≠ .zrmRecord := by
  unfold State.passed7 at h
  rw [hr] at h
  split at h
  · cases h
  · rw [if_pos (beq_self_eq_true _)] at h
    split at h
    · cases h
    · rename_i x hx
      split at h
      · cases h
      · rw [State.passed8_op h]
        exact State.zrmConvert_op_ne hx

/-- Steps 5 to 7 leave the opcode of a message to step 8. -/
theorem State.passed7_of_passed5 (h : s.passed5 r = some p) : ∃ t y, y.op = r.op ∧ State.passed7 t y = some p := by
  unfold State.passed5 at h
  split at h
  · cases h
  · dsimp only at h
    generalize (if r.op.isData && r.m.flowId != 0 then some r.m.flowId else none) = fl at h
    split at h
    · cases h
    · split at h
      · cases h
      · exact ⟨_, { r with flow := fl, m := Msg.whole r.m }, rfl, h⟩

/-- R354: a record begins to execute as the message it stands for. -/
theorem State.admitted_op_ne_of_zrmRecord (h : s.admitted .zrmRecord m = some p) : p.2.op ≠ .zrmRecord := by
  obtain ⟨q, hq, rfl⟩ := Option.map_eq_some_iff.mp h
  unfold State.passed at hq
  split at hq
  · cases hq
  · obtain ⟨t, y, hy, h7⟩ := State.passed7_of_passed5 hq
    have hop : q.2.op ≠ .zrmRecord := State.passed7_op_ne hy h7
    exact hop

end Record

section Drawn

variable {s u : State} {o : Op} {m : Msg} {r : MsgRec}

theorem State.op_ne_zrmRecord_of_drawn (h : s.drawn o m = some (u, r)) : o ≠ .zrmRecord := by
  rintro rfl
  unfold State.drawn at h
  split at h
  next p ha =>
    have hfind : (p.1.atAct .zrmRecord m).findMsg p.2.id = some p.2 := State.admitted_find s .zrmRecord m p ha
    have hop : (p.2.op == .zrmRecord) = false := beq_eq_false_iff_ne.mpr (State.admitted_op_ne_of_zrmRecord ha)
    simp only [hfind, hop, Bool.false_and, Bool.false_eq_true, if_false, reduceCtorEq] at h
  next => cases h

theorem State.drawnF_phase (f : Nat) (s : State) (id : Nat) (h : s.drawnF f id = some (u, r)) : r.phase = .ready := by
  induction f generalizing s with
  | zero => cases h
  | succ f ih =>
    unfold State.drawnF at h
    split at h
    · cases h
    · split at h
      · cases h
      · rename_i hready
        split at h
        · split at h
          · cases h
          · split at h
            · exact ih _ h
            · cases h
        · cases h
          exact Decidable.not_not.mp (mt bne_iff_ne.mpr hready)

theorem State.admitted_of_drawn (h : s.drawn o m = some (u, r)) : r.admitted = true := by
  unfold State.drawn at h
  split at h
  · split at h
    · split at h
      · have hready := State.drawnF_phase _ _ _ h
        simp only [MsgRec.admitted, hready]
      · cases h
    · cases h
  · cases h

theorem State.message_of_undone (h : s.drawn o m = some (u, r)) (hw : u.workDone r = false) :
    s.message o m = u.askInternal r (u.internalWork r) := by
  rw [State.message_of_drawn s o m _ (State.op_ne_zrmRecord_of_drawn h) h]
  exact if_neg (ne_true_of_eq_false hw)

theorem State.op_ne_zrmRecord_of_acting (h : s.acting o m = some (u, r)) : o ≠ .zrmRecord := by
  obtain ⟨t, hd, -, -⟩ := State.drawn_of_acting s o m _ h
  exact State.op_ne_zrmRecord_of_drawn hd

end Drawn

section Internal

variable {s : State} {r : MsgRec} {l : List IntWork}

theorem State.askInternal_of_usable (h : s.usableClusters ≠ []) : s.askInternal r l = s.submit (.message r.id) l := by
  simp only [State.askInternal, List.isEmpty_eq_false_iff.mpr h, Bool.false_eq_true, if_false]

/-- R117, R120: an admitted message whose work no engine can run. -/
theorem State.askInternal_of_noEngine (h : s.usableClusters = []) (hr : r.admitted = true) :
    s.askInternal r l = s.failMsg r (Final.plain Status.busyNoEngine) := by
  simp only [State.askInternal, h, hr, List.isEmpty_nil, if_true]

end Internal

/-- Settles O45: the path to step 10 has its laws already; what is left to wait for decides between the act and the internal
world. -/
theorem messagesExecute : Obligations.MessagesExecute := by
  intro s o m u r
  have row {t : State} (h : s.message o m = t) := exec_messageRow_of_message h
  refine ⟨fun h => ⟨exec_messageRow_of_admitted h, State.admitted_find s o m _ h, fun ho => ?record⟩,
    fun h => row (State.message_of_acting s o m _ (State.op_ne_zrmRecord_of_acting h) h),
    fun h hw hc => row ((State.message_of_undone h hw).trans (State.askInternal_of_usable hc)),
    fun h hw hc => row ((State.message_of_undone h hw).trans
      (State.askInternal_of_noEngine hc (State.admitted_of_drawn h))),
    fun x h hw => (State.runControlF_of_drawnF 8 (s.beginRead x) x.id _ h).trans (if_pos hw)⟩
  case record =>
    have hr := State.admitted_record s o m _ ho h
    exact ⟨congrArg MsgRec.op hr, congrArg MsgRec.m hr, congrArg MsgRec.phase hr⟩

end Sys2Proof.Machine
end

section
/-! The messages of flows (R95, R98, R102, R121, R182): the installation of a FLOW_OPEN, the steps of a FLOW_CLOSE, the result
that a DIGEST_RESULT gives, what a pause holds back, and the statement O47 on them. -/

namespace Sys2Proof.Machine

section Step10

variable {s : State} {r : MsgRec}

theorem State.thenIf_of_found {p : State → MsgRec → Bool} {f : State → MsgRec → State} {id : Nat}
    (h : s.findMsg id = some r) : s.thenIf id p f = if p s r then f s r else s := by
  simp only [State.thenIf, h]

theorem State.execute_of_flowOpen (h : r.op = .flowOpen) :
    s.execute r = (s.loadKeys r).thenIf r.id State.installable State.installFlow := by
  simp only [State.execute, h]

/-- R102: the flow is closed to later messages before a pause is looked at, which nothing of a flow decides. -/
theorem State.execute_of_flowClose (h : r.op = .flowClose) :
    s.execute r = if s.holdsBack r then s.beginClose r
      else ((s.beginClose r).closeFlow r).thenIf r.id State.closeDone State.endClose := by
  have hpause : (s.beginClose r).holdsBack r = s.holdsBack r := rfl
  simp only [State.execute, State.hardwareAct, h, hpause]

theorem State.execute_of_digestResult (h : r.op = .digestResult) :
    s.execute r = if s.holdsBack r then s else s.giveResult r := by
  simp only [State.execute, State.hardwareAct, h]

end Step10

section Result

variable {s : State} {r : MsgRec} {f : Flow}

theorem State.giveResult_of_noFlow (h : s.findFlow r.inst r.m.flowId = none) : s.giveResult r = s.abortMsg r := by
  simp only [State.giveResult, h]

theorem State.giveResult_of_kept {b : Bytes} (h : s.findFlow r.inst r.m.flowId = some f) (hb : f.result = some b) :
    s.giveResult r = s.complete r (Final.good b) false := by
  simp only [State.giveResult, h, hb]

/-- R182: a result that is not there yet ends the message with as many zero bytes. -/
theorem State.giveResult_of_missing (h : s.findFlow r.inst r.m.flowId = some f) (hb : f.result = none) :
    s.giveResult r = s.complete r { Final.plain Status.digestNotReady with output := zeros f.resultLen } false := by
  simp only [State.giveResult, h, hb]

theorem State.findFlow_dropFlows {p : Flow → Bool} {n id : Nat} (h : ∀ f : Flow, f.inst = n → f.id = id → p f = true) :
    (s.dropFlows p).findFlow n id = none := by
  simp only [State.findFlow, State.dropFlows, List.find?_eq_none, List.mem_filter, Bool.not_eq_true', Bool.and_eq_true,
    beq_iff_eq]
  rintro f ⟨-, hkept⟩ ⟨hn, hid⟩
  rw [h f hn hid] at hkept
  cases hkept

/-- Table 4.4: the entry of a closed flow is returned. -/
theorem State.findFlow_closeFlow (s : State) (r : MsgRec) : (s.closeFlow r).findFlow r.inst r.m.flowId = none := by
  refine State.findFlow_dropFlows fun f hn hid => ?_
  rw [hn, hid, beq_self_eq_true, beq_self_eq_true, Bool.and_self]

end Result

/-- Settles O47: step 10 of each of the three opcodes, and the law of what it goes on to. -/
theorem flowMessages : Obligations.FlowMessages := by
  intro s u m r
  have row {o : Op} {t : State} (ha : s.admitted o m = some (u, r)) (h : u.execute r = t) :
      exec (messageRow o m) s = .next (s.settle t) :=
    (exec_messageRow_of_admitted ha).trans (next_settle_congr h)
  have digest (ha : s.admitted .digestResult m = some (u, r)) : r.op = .digestResult :=
    State.admitted_op s .digestResult m _ nofun ha
  have free (ho : r.op = .digestResult) (hp : u.holdsBack r = false) : u.execute r = u.giveResult r :=
    (State.execute_of_digestResult ho).trans (if_neg (ne_true_of_eq_false hp))
  refine ⟨?opens, ?closes, fun ho hp => (State.execute_of_flowClose ho).trans (if_pos hp),
    fun ho hp => (State.execute_of_digestResult ho).trans (if_pos hp), State.findFlow_closeFlow u r,
    fun ho hp hf => (free ho hp).trans (State.giveResult_of_noFlow hf),
    fun f b ha hp hf hb => row ha ((free (digest ha) hp).trans (State.giveResult_of_kept hf hb)),
    fun f ha hp hf hb => row ha ((free (digest ha) hp).trans (State.giveResult_of_missing hf hb))⟩
  case opens =>
    intro y ha hy
    have hop : r.op = .flowOpen := State.admitted_op s .flowOpen m _ nofun ha
    have hexec := (State.execute_of_flowOpen (s := u) hop).trans (State.thenIf_of_found hy)
    exact ⟨fun hi => row ha (hexec.trans (if_pos hi)),
      fun hi => row ha (hexec.trans (if_neg (ne_true_of_eq_false hi)))⟩
  case closes =>
    rintro w y ha hp rfl hy
    have hop : r.op = .flowClose := State.admitted_op s .flowClose m _ nofun ha
    have hexec := ((State.execute_of_flowClose (s := u) hop).trans (if_neg (ne_true_of_eq_false hp))).trans
      (State.thenIf_of_found hy)
    exact ⟨fun hd => row ha (hexec.trans (if_pos hd)),
      fun hd => row ha (hexec.trans (if_neg (ne_true_of_eq_false hd)))⟩

end Sys2Proof.Machine
end

section
/-! Refusals of malformed messages (R48, R79, R81): a refusal that counts is its completion and one violation, neither of which
stops a ring, and the statement O51 on both. -/

namespace Sys2Proof.Machine

/-- What a stop of a ring or a doorbell would change: that it is enabled, that it is at fault, the tail taken last. -/
def Rings.standing (g : Rings) : Bool × Bool × Nat := (g.en, g.ringFault, g.tail)

def State.standing (s : State) (n : Nat) : Bool × Bool × Nat := (s.getInst n).rings.standing

section Standing

variable {s t : State}

theorem State.standing_of_inst (h : t.inst = s.inst) : t.standing = s.standing := by
  funext n
  rw [State.standing, State.standing, State.getInst, State.getInst, h]

theorem State.standing_modInst (s : State) (n : Nat) {f : InstRec → InstRec}
    (hf : ∀ i, (f i).rings.standing = i.rings.standing) : (s.modInst n f).standing = s.standing := by
  funext k
  simp only [State.standing, State.getInst, State.modInst, Vector.getElem?_setIfInBounds]
  split
  next hk =>
    subst hk
    split
    next hin => simp only [Option.getD_some, hf]
    next hout => rw [Vector.getElem?_eq_none (Nat.le_of_not_lt hout)]
  next => rfl

theorem State.standing_foldl {α : Type} {f : State → α → State} (hf : ∀ t a, (f t a).standing = t.standing) (l : List α)
    (s : State) : (l.foldl f s).standing = s.standing := by
  induction l generalizing s with
  | nil => rfl
  | cons a l ih => rw [List.foldl_cons, ih, hf]

theorem State.standing_setPending (s : State) (n v : Nat) (b : Bool) : (s.setPending n v b).standing = s.standing := by
  unfold State.setPending
  split
  · rfl
  · exact State.standing_modInst s n fun _ => rfl

theorem State.standing_raise (s : State) (n v : Nat) : (s.raise n v).standing = s.standing := by
  unfold State.raise
  split
  · rfl
  · split
    · exact State.standing_setPending s n v true
    · rfl

theorem State.standing_markPage (s : State) (n p : Nat) : (s.markPage n p).standing = s.standing := by
  unfold State.markPage
  dsimp only
  split
  · exact State.standing_modInst s n fun _ => rfl
  · generalize (if (s.getInst n).dirty.active then (s.getInst n).dirty.mapB else (s.getInst n).dirty.mapA) = map
    split
    · rfl
    · exact State.standing_modInst _ n fun _ => rfl

theorem State.standing_hostWrite (s : State) (w : HostWrite) : (s.hostWrite w).standing = s.standing := by
  unfold State.hostWrite
  dsimp only
  split
  · exact State.standing_foldl (fun t i => t.standing_markPage _ _) _ _
  · rfl

theorem State.standing_release (s : State) (r : MsgRec) (b : Bytes) : (s.release r b).1.standing = s.standing := by
  unfold State.release
  split
  · rfl
  · exact State.standing_foldl (fun t w => t.standing_hostWrite _) _ _

/-- R63: the cell of a completion moves the completion ring on. -/
theorem State.standing_putCell (s : State) (w : HostWrite) (n k : Nat) :
    ((s.hostWrite w).modInst n (fun i => { i with rings := i.rings.takeCell, maxWait := max i.maxWait k })).standing
      = s.standing := by
  refine (State.standing_modInst (s.hostWrite w) n ?_).trans (State.standing_hostWrite s w)
  exact fun _ => rfl

theorem State.standing_ite {c : Prop} [Decidable c] {x : Nat → Bool × Bool × Nat} (hs : s.standing = x)
    (ht : t.standing = x) : (if c then s else t).standing = x := by
  split
  · exact hs
  · exact ht

theorem State.standing_writeCell (s : State) (r : MsgRec) (f : Final) (b : Bool) :
    (s.writeCell r f b).standing = s.standing := by
  have hout (c : Bool) : (if c then (s.dropMsg r.id, r) else (s.dropMsg r.id).release r f.output).1.standing
      = s.standing := by
    cases c
    · exact State.standing_release _ r f.output
    · rfl
  have hwait {u : State} (h : u.standing = s.standing) :
      (if b then (0, u) else u.drawWait).2.standing = s.standing := by
    cases b <;> exact h
  have hend {u : State} (h : u.standing = s.standing) (c : Bool) (n : Nat) :
      (if c then u.raise n 0 else u).standing = s.standing :=
    State.standing_ite ((State.standing_raise u n 0).trans h) h
  unfold State.writeCell
  dsimp only
  refine State.standing_ite rfl (State.standing_ite rfl (State.standing_ite (hout _) (hend ?_ _ _)))
  exact (State.standing_putCell _ _ _ _).trans (hwait (hout _))

theorem State.standing_closeSession (s : State) (r : MsgRec) : (s.closeSession r).standing = s.standing := by
  unfold State.closeSession
  split
  · exact State.standing_modInst s r.inst fun _ => rfl
  · rfl

theorem State.standing_complete (s : State) (r : MsgRec) (f : Final) (b : Bool) :
    (s.complete r f b).standing = s.standing := by
  unfold State.complete
  dsimp only
  split <;> rw [State.standing_writeCell, State.standing_closeSession]

end Standing

section Record

theorem State.recorderStop_inst (s : State) : s.recorderStop.inst = s.inst := by
  unfold State.recorderStop
  generalize (if s.lc == 5 || s.lcs.lostCause == 4 then 1 else if s.evr.wearAvg ≥ 3000 then 2 else 0) = cause
  dsimp only
  split <;> rfl

theorem State.closeBatch_inst (s : State) : s.closeBatch.inst = s.inst := by
  unfold State.closeBatch
  split
  · rfl
  · exact State.recorderStop_inst s.storeBatch

theorem State.appendRecord_inst (s : State) (e : EvRecord) : (s.appendRecord e).inst = s.inst := by
  unfold State.appendRecord
  dsimp only
  split
  · rfl
  · split
    · exact State.closeBatch_inst _
    · rfl

/-- Every vector of the recorder is one of the physical function's, whose pending bits are the link's. -/
theorem State.raise_zero_inst (s : State) (v : Nat) : (s.raise 0 v).inst = s.inst := by
  unfold State.raise
  split
  · rfl
  · split <;> rfl

theorem State.holdRecord_inst (s : State) (e : EvRecord) : (s.holdRecord e).inst = s.inst := by
  have hfull : (if s.evr.lostNow.isEmpty then s.raise 0 3 else s).inst = s.inst := by
    split
    · exact State.raise_zero_inst s 3
    · rfl
  unfold State.holdRecord
  dsimp only
  split
  · rfl
  · split <;> exact hfull

theorem State.record_inst (s : State) (type source severity : Nat) (p : Bytes) :
    (s.record type source severity p).inst = s.inst := by
  unfold State.record State.recordWith
  dsimp only
  split
  · rfl
  · split
    · exact State.appendRecord_inst _ _
    · exact State.holdRecord_inst _ _

theorem InstRec.countViol_rings (i : InstRec) (kind : Nat) : (i.countViol kind).rings = i.rings := by
  unfold InstRec.countViol
  split <;> rfl

/-- R48: a violation counts and is recorded, and no ring is stopped for it. -/
theorem State.standing_violation (s : State) (n kind addr : Nat) : (s.violation n kind addr).standing = s.standing := by
  have hcount : (s.modInst n (fun i =>
      { i.countViol kind with violSec := assign i.violSec kind s.seconds })).standing = s.standing :=
    State.standing_modInst s n fun i => congrArg Rings.standing (i.countViol_rings kind)
  unfold State.violation
  dsimp only
  split
  · exact hcount
  · exact (State.standing_of_inst (State.record_inst _ _ _ _ _)).trans hcount

end Record

section Malformed

variable {s : State} {r : MsgRec} {f : Final} {st : BitVec 16}

theorem status_ne_of_malformed (h : st.toNat ≤ 0x0131) {x : BitVec 16} (hx : 0x0131 < x.toNat) : (st == x) = false := by
  rw [beq_eq_false_iff_ne]
  rintro rfl
  omega

/-- R81: none of the counted refusals is of a BUSY class. -/
theorem State.countRefusal_of_malformed (hlo : 0x0101 ≤ st.toNat) (hhi : st.toNat ≤ 0x0131) (n a : Nat) :
    s.countRefusal n a st = s.violation n violAmp a := by
  have hbusy : busyClass st = 0 := by
    have hne {x : BitVec 16} (hx : 0x0131 < x.toNat) := status_ne_of_malformed hhi hx
    simp only [busyClass, hne (x := Status.busyQuota) (by decide), hne (x := Status.busyDevice) (by decide),
      hne (x := Status.busyFlows) (by decide), hne (x := Status.busyNoEngine) (by decide), Bool.false_eq_true, if_false]
  have hcounts : countsMalformed st = true := by
    simp only [countsMalformed, hlo, hhi, decide_true, Bool.and_self]
  simp only [State.countRefusal, hbusy, hcounts, if_true]

/-- R81: such a status is no failed read of a list and none of record mode, each of which makes a violation more. -/
theorem State.refuse_of_malformed (hlo : 0x0101 ≤ f.status.toNat) (hhi : f.status.toNat ≤ 0x0131) (hr : r.reply f = none)
    (hu : r.m.uart = false) : s.refuse r f = (s.complete r f true).violation r.inst violAmp r.addr := by
  have hmem : (f.status == Status.hostMemError) = false := status_ne_of_malformed hhi (by decide)
  have hzrm : (f.status.toNat / 256 == 0x0A) = false := by rw [beq_eq_false_iff_ne]; omega
  simp only [State.refuse, hr, hu, hmem, hzrm, State.countRefusal_of_malformed hlo hhi, Option.isSome_none, Bool.or_self,
    Bool.and_false, Bool.false_eq_true, if_false]

end Malformed

/-- Settles O51: the refusal is a completion and a violation, and each leaves every ring standing. -/
theorem refusalsRecorded : Obligations.RefusalsRecorded := by
  intro s r f hlo hhi hr hu
  have hrefuse := State.refuse_of_malformed (s := s) hlo hhi hr hu
  refine ⟨hrefuse, fun n => ?_⟩
  have hstands : (s.refuse r f).standing n = s.standing n := by
    rw [hrefuse, State.standing_violation, State.standing_complete]
  simpa only [State.standing, Rings.standing, Prod.mk.injEq] using hstands

end Sys2Proof.Machine
end

section
/-! The ends of template builds and of negative templates (R95, R104 to R106, R250): the build of one template, and the
statement O25. -/

namespace Sys2Proof.Machine

/-- The builds that TEMPLATE_BUILD_COMPLETE ends. -/
def Template.isBuild (n : Nat) (o : Op) (ka kb : Nat) (t : Template) : Bool :=
  t.building && t.inst == n && t.op == o && t.keyA == ka && t.keyB == kb

/-- The templates that NEGATIVE_TEMPLATE_EXPIRY ends. -/
def Template.isNegative (n : Nat) (o : Op) (ka kb : Nat) (t : Template) : Bool :=
  !t.building && t.status != Status.ok && t.inst == n && t.op == o && t.keyA == ka && t.keyB == kb

section Build

variable {s : State} {t : Template} {n : Nat} {o : Op} {ka kb : Nat} {f : Final}

/-- The domain that a template is built in: that of the first message that waits for it, else the bound one. -/
def State.buildDomain (s : State) (t : Template) : Nat :=
  (((s.waitersOf t).head?).map (·.domain)).getD ((s.domainOf t.inst).getD 0)

/-- R95: a template is kept while the binding is still to the domain it was built in. -/
def State.keepBuilt (s : State) (t x : Template) : State :=
  if s.domainOf t.inst == some (s.buildDomain t) then s.putTemplate x else s.dropTemplates (fun y => y == t)

theorem State.keepBuilt_eq (s : State) (t x : Template) : s.keepBuilt t x =
    if s.domainOf t.inst = some (s.buildDomain t) then s.putTemplate x else s.dropTemplates (fun y => y == t) := by
  simp only [State.keepBuilt, beq_iff_eq]

/-- R104: what the keys of a template answer to its build. -/
def State.buildKeys (s : State) (t : Template) : Final ⊕ (Option Obj × Option Obj) :=
  s.useKeys (s.buildDomain t) t.inst t.op 0 (fit 16 (t.extra.take 2)) none t.keyA t.keyB

/-- R105, R106: a key that is refused leaves a negative template for a second. -/
theorem State.buildOne_of_refused (h : s.buildKeys t = .inl f) (hf : f.status ≠ Status.vaultIntegrity) :
    s.buildOne t = (s.keepBuilt t { t with building := false, status := f.status, detail := f.detail
                                           expires := s.opTime + 1000 }).eachWaiter (s.waitersOf t)
      (fun u r => u.refuseSeg r f) := by
  simp only [State.buildKeys, State.buildDomain] at h
  simp only [State.buildOne, h, beq_false_of_ne hf, Bool.false_eq_true, if_false]
  rfl

/-- R250: a key whose image cannot be read leaves no template. -/
theorem State.buildOne_of_unreadable (h : s.buildKeys t = .inl f) (hf : f.status = Status.vaultIntegrity) :
    s.buildOne t = (s.dropTemplates (fun y => y == t)).eachWaiter (s.waitersOf t) (fun u r => u.failMsg r f) := by
  simp only [State.buildKeys, State.buildDomain] at h
  simp only [State.buildOne, h, hf, beq_self_eq_true, if_true]

theorem State.buildOne_of_keys {a b : Option Obj} (h : s.buildKeys t = .inr (a, b)) :
    s.buildOne t = (s.keepBuilt t { t with building := false, refA := a.map Obj.ref, refB := b.map Obj.ref }).eachWaiter
      (s.waitersOf t) (fun u r => u.afterStep8 r (u.dataEnd8 { r with keyA := a.map Obj.ref, keyB := b.map Obj.ref })) := by
  simp only [State.buildKeys, State.buildDomain] at h
  simp only [State.buildOne, h]
  rfl

/-- R23: a restart of the control pair leaves every build as it is. -/
theorem State.buildTemplate_of_restart (h : s.glb.ctrlRestart = true) : s.buildTemplate n o ka kb = s := by
  simp only [State.buildTemplate, h, if_true]

theorem State.buildTemplate_of_one (h : s.glb.ctrlRestart = false)
    (ht : s.sch.templates.filter (Template.isBuild n o ka kb) = [t]) : s.buildTemplate n o ka kb = s.buildOne t := by
  have hall : s.buildTemplate n o ka kb = (s.sch.templates.filter (Template.isBuild n o ka kb)).foldl State.buildOne s :=
    if_neg (ne_true_of_eq_false h)
  rw [hall, ht, List.foldl_cons, List.foldl_nil]

theorem State.expireTemplate_of_one (ht : s.sch.templates.filter (Template.isNegative n o ka kb) = [t]) :
    s.expireTemplate n o ka kb = (s.advance t.expires).dropTemplates (Template.isNegative n o ka kb) := by
  have hall : s.expireTemplate n o ka kb =
      ((s.sch.templates.filter (Template.isNegative n o ka kb)).foldl (fun u t => u.advance t.expires) s).dropTemplates
        (Template.isNegative n o ka kb) := rfl
  rw [hall, ht, List.foldl_cons, List.foldl_nil]

end Build

/-- Settles O25: what the keys answer decides the end of the build, and a negative template goes at its end. -/
theorem templates : Obligations.Templates := by
  intro s n o ka kb
  refine ⟨fun t hc ht => ?build, fun hc => next_settle_congr (State.buildTemplate_of_restart hc),
    fun t ht => next_settle_congr (State.expireTemplate_of_one ht)⟩
  case build =>
    have built {u : State} (h : s.buildOne t = u) : exec (.templateBuildComplete n o ka kb) s = .next (s.settle u) :=
      next_settle_congr ((State.buildTemplate_of_one hc ht).trans h)
    refine ⟨fun f hk => ⟨fun hf => ?_, fun hf => built (State.buildOne_of_unreadable hk hf)⟩, fun a b hk => ?_⟩
    · exact built ((State.buildOne_of_refused hk hf).trans (by rw [State.keepBuilt_eq]; rfl))
    · exact built ((State.buildOne_of_keys hk).trans (by rw [State.keepBuilt_eq]; rfl))

end Sys2Proof.Machine
end

section
/-! Digest laps (R107, R172, R173): what a lap takes in, what the last one makes of it, and the statement O31: two laps take in
what one lap takes of both. -/

namespace Sys2Proof.Machine

/-- The chaining state that a lap goes on from: that of the laps before it, or the start of the hash or of its HMAC (R175). -/
def KeyRegs.digestState (k : KeyRegs) (j : Job) (c : Ctx) : List (BitVec 64) :=
  if c.hash.isEmpty then (if Op.isHmac j.op then k.padIn else j.hash.init) else c.hash

/-- The context once the bytes of a lap are taken in: the text in the hash, an expected MAC behind it held. -/
def KeyRegs.digestIn (k : KeyRegs) (j : Job) (c : Ctx) (chunk : Bytes) : Ctx :=
  let a := j.hash.absorb (k.digestState j c) c.buf (part chunk c.pos 0 j.hashed)
  { c with hash := a.1, buf := a.2, pos := c.pos + chunk.length, held := c.held ++ part chunk c.pos j.hashed j.total }

/-- What the last lap makes of the context at its end: the digest, the MAC, or the verdict on the MAC held. -/
def KeyRegs.digestOut (k : KeyRegs) (j : Job) (c : Ctx) : Ctx × Bytes :=
  let inner := digestInner j c
  let value := if Op.isHmac j.op then outerPass j.hash k.padOut inner else inner
  if j.op == .hmacVerify then ({ c with fail := value.take j.macLen != c.held }, [])
  else (c, if Op.isHmac j.op && j.route == 0 then value.take j.macLen else value)

section Lap

variable {k : KeyRegs} {j : Job} {c : Ctx}

theorem digestLap_of_more (x : Bytes) : digestLap k j c x false = (k.digestIn j c x, []) := rfl

theorem digestLap_of_last (x : Bytes) : digestLap k j c x true = k.digestOut j (k.digestIn j c x) := rfl

theorem KeyRegs.digestState_of_begun (h : c.hash ≠ []) : k.digestState j c = c.hash :=
  if_neg (by rwa [List.isEmpty_iff])

/-- A context that has begun goes on from its own state, so that the hash and the MAC held take the two parts as one. -/
theorem KeyRegs.digestIn_append (x y : Bytes) (h : (k.digestIn j c x).hash ≠ []) :
    k.digestIn j (k.digestIn j c x) y = k.digestIn j c (x ++ y) := by
  have hstate : k.digestState j (k.digestIn j c x) = (k.digestIn j c x).hash := KeyRegs.digestState_of_begun h
  have hhash : j.hash.absorb (k.digestState j c) c.buf (part (x ++ y) c.pos 0 j.hashed)
      = j.hash.absorb (k.digestIn j c x).hash (k.digestIn j c x).buf (part y (c.pos + x.length) 0 j.hashed) := by
    rw [part_append, Hash.absorb_append]
    rfl
  have hheld : c.held ++ part (x ++ y) c.pos j.hashed j.total
      = (k.digestIn j c x).held ++ part y (c.pos + x.length) j.hashed j.total := by
    rw [part_append, ← List.append_assoc]
    rfl
  have hpos : c.pos + (x ++ y).length = c.pos + x.length + y.length := by
    rw [List.length_append, Nat.add_assoc]
  unfold KeyRegs.digestIn at hstate hhash hheld ⊢
  dsimp only at hstate hhash hheld ⊢
  rw [hstate, hhash, hheld, hpos]

end Lap

/-- Settles O31: both ways take in the same bytes, and the end of a lap sees the context alone. -/
theorem digestLapsJoin : Obligations.DigestLapsJoin := by
  intro k j c x y last h
  have hin : k.digestIn j (k.digestIn j c x) y = k.digestIn j c (x ++ y) := KeyRegs.digestIn_append x y h
  rw [digestLap_of_more]
  cases last
  · rw [digestLap_of_more, digestLap_of_more, hin]
  · rw [digestLap_of_last, digestLap_of_last, hin]

end Sys2Proof.Machine
end

section
/-! The engines that admission asks for (R114 to R117): the limits of step 9 apart from its look at the clusters, and the
statement O52 on that look. -/

namespace Sys2Proof.Machine

/-- The limits of step 9 that come before the look at the clusters: quotas, entries of the device, entries of flows (R114 to
R116). -/
def State.limits9 (s : State) (r : MsgRec) : Option Final :=
  let i := s.getInst r.inst
  let dl := ((s.domRec (s.dom' r)).map (·.flowLimit)).getD 65535
  let opens := r.op == .flowOpen
  quotaFull (s.admittedOf r.inst ≥ i.outLimit) 0 i.outLimit
  <|> quotaFull (opens && s.flowsOf r.inst + s.opening (fun x => x.inst == r.inst) ≥ i.flowLimit) 1 i.flowLimit
  <|> quotaFull (opens && s.domainFlows (s.dom' r) + s.opening (fun x => x.domain == s.dom' r) ≥ dl) 2 dl
  <|> failIf (s.admittedOf r.inst ≥ 16 && s.sharedUsed ≥ s.sharedSize) Status.busyDevice 262144
  <|> failIf (opens && s.sch.flows.length + s.opening (fun _ => true) ≥ 65536) Status.busyFlows 0

/-- The look at the clusters for a message that needs an engine (R117). -/
def State.engines9 (s : State) (r : MsgRec) : Option Final :=
  failIf ((admitKind r).isSome && s.usableClusters.isEmpty) Status.busyNoEngine 0

section Step9

variable {s : State} {r : MsgRec} {f : Final} {c : Bool} {st : BitVec 16} {n : Nat}

theorem State.check9_eq : s.check9 r = if r.op == .cancel || r.m.uart then none else s.limits9 r <|> s.engines9 r := by
  simp only [State.check9, State.limits9, State.engines9, Option.orElse_eq_orElse, Option.orElse_eq_or, Option.or_assoc]

theorem status_of_failIf (h : failIf c st n = some f) : f.status = st := by
  unfold failIf at h
  split at h
  · cases h; rfl
  · cases h

theorem status_of_quotaFull {kind : Nat} (h : quotaFull c kind n = some f) : f.status = Status.busyQuota :=
  status_of_failIf h

/-- Every limit has a status of its own, and none of them is that of the clusters. -/
theorem State.status_of_limits9 (h : s.limits9 r = some f) :
    f.status = Status.busyQuota ∨ f.status = Status.busyDevice ∨ f.status = Status.busyFlows := by
  simp only [State.limits9, Option.orElse_eq_orElse, Option.orElse_eq_or, Option.or_eq_some_iff] at h
  obtain h | ⟨-, h | ⟨-, h | ⟨-, h | ⟨-, h⟩⟩⟩⟩ := h
  · exact .inl (status_of_quotaFull h)
  · exact .inl (status_of_quotaFull h)
  · exact .inl (status_of_quotaFull h)
  · exact .inr (.inl (status_of_failIf h))
  · exact .inr (.inr (status_of_failIf h))

theorem State.limits9_ne_noEngine (h : s.limits9 r = some f) : f.status ≠ Status.busyNoEngine := by
  obtain h | h | h := State.status_of_limits9 h <;> rw [h] <;> decide

theorem State.engines9_of_none (hk : (admitKind r).isSome = true) (hc : s.usableClusters = []) :
    s.engines9 r = some (Final.plain Status.busyNoEngine) := by
  simp only [State.engines9, hk, hc, List.isEmpty_nil, Bool.and_self, failIf, if_true, Final.plain]

theorem State.engines9_of_usable (hc : s.usableClusters ≠ []) : s.engines9 r = none := by
  simp only [State.engines9, List.isEmpty_eq_false_iff.mpr hc, Bool.and_false, failIf, Bool.false_eq_true, if_false]

/-- CANCEL, the one message of a ring that passes step 9 unseen, needs no engine. -/
theorem State.check9_of_kind (hk : (admitKind r).isSome = true) (hu : r.m.uart = false) :
    s.check9 r = (s.limits9 r <|> s.engines9 r) := by
  have hcancel : (r.op == .cancel) = false := by
    rw [beq_eq_false_iff_ne]
    intro ho
    rw [admitKind, ho] at hk
    cases hk
  simp only [State.check9_eq, hcancel, hu, Bool.or_self, Bool.false_eq_true, if_false]

theorem State.mem_usableClusters {k : Nat} : k ∈ s.usableClusters ↔
    k < 16 ∧ s.glb.enabled.getLsbD k = true ∧ s.glb.fenced.getLsbD k = false := by
  simp only [State.usableClusters, State.cluUsable, State.cluEnabled, State.cluFenced, List.mem_filter, List.mem_range,
    Bool.and_eq_true, Bool.not_eq_true']

end Step9

/-- Settles O52: no limit before the look at the clusters sees which of them are enabled or fenced, and the look at them sees
nothing else. -/
theorem noEngineLeft : Obligations.NoEngineLeft := by
  intro s r
  refine ⟨fun e v hk hu hc hpass => ?none, fun hc f hf => ?some, fun _ _ => rfl, fun _ => State.mem_usableClusters,
    fun o ho hop => ?flow⟩
  case none =>
    rw [State.check9_of_kind hk hu] at hpass ⊢
    have hlimits : s.limits9 r = none := by
      simp only [Option.orElse_eq_orElse, Option.orElse_eq_or, Option.or_eq_none_iff] at hpass
      exact hpass.1
    rw [hlimits, State.engines9_of_none hk hc]
    rfl
  case some =>
    rw [State.check9_eq] at hf
    split at hf
    · cases hf
    · simp only [Option.orElse_eq_orElse, Option.orElse_eq_or, State.engines9_of_usable hc, Option.or_none] at hf
      exact State.limits9_ne_noEngine hf
  case flow => simp only [admitKind, ho, hop, Option.bind_some]

end Sys2Proof.Machine
end

section
/-! The random messages (R121, R221, R223, R226, R228, R229): what a request of a generator answers, what a random message
and its wait do then, and the statements O49 and O39 on them. -/

namespace Sys2Proof.Machine

section Request

variable {s t : State} {r : MsgRec} {g n : Nat} {b : Bytes}

theorem State.request_of_unseeded (hp : s.rng.phase ≠ 5) (hg : s.genSeeded g = false) : s.request g n = .hold := by
  simp only [State.request, beq_false_of_ne hp, hg, Bool.not_false, Bool.false_eq_true, if_false, if_true]

theorem State.request_of_queued (hp : s.rng.phase ≠ 5) (hg : s.genSeeded g = true) (hq : s.takeQueue g n = some (b, t)) :
    s.request g n = .bytes b t := by
  simp only [State.request, beq_false_of_ne hp, hg, hq, Bool.not_true, Bool.false_eq_true, if_false]

/-- R221: a queue that holds too little is left, and a call is made for the request alone. -/
theorem State.request_of_short (hp : s.rng.phase ≠ 5) (hg : s.genSeeded g = true) (hq : s.takeQueue g n = none) :
    s.request g n = .call := by
  simp only [State.request, beq_false_of_ne hp, hg, hq, Bool.not_true, Bool.false_eq_true, if_false]

theorem MsgRec.wantsBlock_of_reseed (ho : r.op = .randomReseed) : r.wantsBlock = true := by
  simp only [MsgRec.wantsBlock, ho]

theorem MsgRec.wantsBlock_of_generate (ho : r.op = .randomGenerate) : r.wantsBlock = (r.m.field 44 1 == 1) := by
  simp only [MsgRec.wantsBlock, ho]

end Request

/-- The message waits for a seed or for a block of its own (R223, R228, R229). -/
def State.waitForSource (s : State) (r : MsgRec) : State :=
  s.modMsg r.id (fun x => { x with phase := .rngWait, gen := r.inst, want := r.m.field 40 4 })

/-- The message waits for a generate call of its own (R221). -/
def State.waitForCall (s : State) (r : MsgRec) : State :=
  s.modMsg r.id (fun x => { x with phase := .genCall, gen := r.inst, want := r.m.field 40 4 })

/-- The message asks the generator that serves its ring for bytes (R228). -/
def State.askGenerator (s : State) (r : MsgRec) : State :=
  match s.request r.inst (r.m.field 40 4) with
  | .bytes b t => t.complete r (Final.good b) false
  | _ => s.drawFor r r.inst (r.m.field 40 4)

section Random

variable {s t : State} {r : MsgRec} {b : Bytes}

theorem State.runRandom_of_failed (hp : s.rng.phase = 5) : s.runRandom r = s.randomFails r Status.rngFault := by
  simp only [State.runRandom, hp, beq_self_eq_true, if_true]

/-- A RANDOM_GENERATE whose bytes have been drawn ends with them; every other request is new. -/
theorem State.runRandom_of_new (hp : s.rng.phase ≠ 5)
    (hn : (r.op == .randomGenerate && r.random.length == r.m.field 40 4) = false) :
    s.runRandom r = if r.wantsBlock then s.waitForSource r else s.askGenerator r := by
  simp only [State.runRandom, beq_false_of_ne hp, hn, Bool.false_eq_true, if_false]
  rfl

theorem State.runRandom_of_reseed (hp : s.rng.phase ≠ 5) (ho : r.op = .randomReseed) :
    s.runRandom r = s.waitForSource r := by
  rw [State.runRandom_of_new hp (by rw [ho]; rfl), MsgRec.wantsBlock_of_reseed ho]
  rfl

theorem State.askGenerator_of_unseeded (hp : s.rng.phase ≠ 5) (hg : s.genSeeded r.inst = false) :
    s.askGenerator r = s.waitForSource r := by
  simp only [State.askGenerator, State.drawFor, State.request_of_unseeded hp hg, State.waitForSource]

theorem State.askGenerator_of_queued (hp : s.rng.phase ≠ 5) (hg : s.genSeeded r.inst = true)
    (hq : s.takeQueue r.inst (r.m.field 40 4) = some (b, t)) : s.askGenerator r = t.complete r (Final.good b) false := by
  simp only [State.askGenerator, State.request_of_queued hp hg hq]

theorem State.askGenerator_of_short (hp : s.rng.phase ≠ 5) (hg : s.genSeeded r.inst = true)
    (hq : s.takeQueue r.inst (r.m.field 40 4) = none) : s.askGenerator r = s.waitForCall r := by
  simp only [State.askGenerator, State.drawFor, State.request_of_short hp hg hq, State.waitForCall]

/-- R228: prediction resistance decides between a block and the generator. -/
theorem State.runRandom_of_generate (hp : s.rng.phase ≠ 5) (ho : r.op = .randomGenerate)
    (hl : r.random.length ≠ r.m.field 40 4) :
    s.runRandom r = if r.m.field 44 1 = 1 then s.waitForSource r else s.askGenerator r := by
  rw [State.runRandom_of_new hp (by rw [beq_false_of_ne hl, Bool.and_false]), MsgRec.wantsBlock_of_generate ho]
  simp only [beq_iff_eq]

/-- R121: a pause comes before the act of a random message. -/
theorem State.execute_of_random (ho : r.op = .randomGenerate ∨ r.op = .randomReseed) :
    s.execute r = if s.holdsBack r then s else s.runRandom r := by
  obtain ho | ho := ho <;> simp only [State.execute, State.hardwareAct, ho]

end Random

/-- Settles O49: step 10 hands both opcodes to the source, and the source, the prediction resistance asked for and the queue
decide in this order. -/
theorem randomMessages : Obligations.RandomMessages := by
  intro s u m r
  have row {o : Op} {t : State} (ha : s.admitted o m = some (u, r)) (ho : r.op = .randomGenerate ∨ r.op = .randomReseed)
      (hp : u.holdsBack r = false) (h : u.runRandom r = t) : exec (messageRow o m) s = .next (s.settle t) :=
    (exec_messageRow_of_admitted ha).trans
      (next_settle_congr ((State.execute_of_random ho).trans ((if_neg (ne_true_of_eq_false hp)).trans h)))
  refine ⟨fun ha hp => ?generate, fun ha hp => ?reseed, fun ho hp => (State.execute_of_random ho).trans (if_pos hp)⟩
  case generate =>
    have ho : r.op = .randomGenerate := State.admitted_op s .randomGenerate m _ nofun ha
    have ends {t : State} (h : u.runRandom r = t) : exec (.randomGenerate m) s = .next (s.settle t) :=
      row ha (.inl ho) hp h
    refine ⟨fun h5 => ends (State.runRandom_of_failed h5), fun h5 hl => ?_⟩
    have hrun := State.runRandom_of_generate h5 ho hl
    have asks (h1 : r.m.field 44 1 ≠ 1) : u.runRandom r = u.askGenerator r := hrun.trans (if_neg h1)
    exact ⟨fun h1 => ends (hrun.trans (if_pos h1)),
      fun h1 hg => ends ((asks h1).trans (State.askGenerator_of_unseeded h5 hg)),
      fun b t h1 hg hq => ends ((asks h1).trans (State.askGenerator_of_queued h5 hg hq)),
      fun h1 hg hq => ends ((asks h1).trans (State.askGenerator_of_short h5 hg hq))⟩
  case reseed =>
    have ho : r.op = .randomReseed := State.admitted_op s .randomReseed m _ nofun ha
    have ends {t : State} (h : u.runRandom r = t) : exec (.randomReseed m) s = .next (s.settle t) :=
      row ha (.inr ho) hp h
    exact ⟨fun h5 => ends (State.runRandom_of_failed h5), fun h5 => ends (State.runRandom_of_reseed h5 ho)⟩

/-- The record of a request to which bytes were served. -/
def MsgRec.served (r : MsgRec) (b : Bytes) : MsgRec := { r with random := r.random ++ b, phase := .ready, want := 0 }

section End

variable {s : State} {r : MsgRec} {x : HeldEnd} {st : BitVec 16} {id : Nat}

/-- R23: the restart of the control pair holds the end of no data message, hub message, random message or transition. -/
theorem State.endOrHold_of_now
    (h : s.glb.ctrlRestart = false ∨ r.op.needsControl = false ∨ r.op = .lcTransition) :
    s.endOrHold r x = s.endCommit r x := by
  refine if_neg ?_
  intro hheld
  simp only [Bool.and_eq_true, bne_iff_ne] at hheld
  obtain ⟨⟨hc, hn⟩, ho⟩ := hheld
  obtain h | h | h := h
  · exact absurd hc (ne_true_of_eq_false h)
  · exact absurd hn (ne_true_of_eq_false h)
  · exact ho h

theorem State.endOrHold_of_restart (hc : s.glb.ctrlRestart = true) (hn : r.op.needsControl = true)
    (ho : r.op ≠ .lcTransition) :
    s.endOrHold r x = { s with sch := { s.sch with heldEnds := s.sch.heldEnds ++ [(r.id, x)] } } := by
  refine if_pos ?_
  simp only [hc, hn, bne_iff_ne.mpr ho, Bool.and_self]

/-- The state in which a message of the random source ends: a transition has failed, and no engine stands in its record
(R208). -/
def State.randomEnd (s : State) (r : MsgRec) (st : BitVec 16) : State :=
  (if r.op = .lcTransition then s.lcFail s.lc (lcTarget r.m) st else s).modMsg r.id (fun y => { y with engine := 0xFF })

theorem State.randomFails_eq : s.randomFails r st =
    (s.randomEnd r st).endOrHold { r with engine := 0xFF } (.failed (Final.plain st)) := by
  simp only [State.randomFails, State.randomEnd, beq_iff_eq]

theorem State.heldRequest_iff : s.heldRequest r = true ↔
    r.phase = .rngWait ∧ (s.genSeeded r.gen = false ∨ (r.wantsBlock = true ∧ s.rng.phase ≠ 3)) := by
  simp only [State.heldRequest, Bool.and_eq_true, Bool.or_eq_true, Bool.not_eq_true', beq_iff_eq, bne_iff_ne]

section Found

variable (hr : s.findMsg id = some r)

include hr

theorem State.waitExpires_of_held (hh : s.heldRequest r = true) (he : s.endIsHeld r = false) :
    s.waitExpires id = (s.advance r.deadline).randomFails r (s.waitStatus r.gen) := by
  simp only [State.waitExpires, hr, hh, he, Bool.not_false, Bool.and_self, if_true]

theorem State.waitExpires_of_other (h : s.heldRequest r = false ∨ s.endIsHeld r = true) : s.waitExpires id = s := by
  have hno : (s.heldRequest r && !s.endIsHeld r) = false :=
    Bool.and_eq_false_iff.mpr (h.imp_right fun he => by rw [he, Bool.not_true])
  simp only [State.waitExpires, hr, hno, Bool.false_eq_true, if_false]

theorem State.callComplete_of_call (h : r.phase = .genCall) :
    s.callComplete id = (s.genBytes r.gen r.want).2.gotRandom id (s.genBytes r.gen r.want).1 := by
  simp only [State.callComplete, hr, h, beq_self_eq_true, if_true]

theorem State.callComplete_of_other (h : r.phase ≠ .genCall) : s.callComplete id = s := by
  simp only [State.callComplete, hr, beq_false_of_ne h, Bool.false_eq_true, if_false]

/-- The bytes served change neither the pause nor what it holds back. -/
theorem State.gotRandom_of_found (b : Bytes) : s.gotRandom id b =
    if r.op = .randomGenerate ∧ s.holdsBack r = false then
      (s.setMsg (r.served b)).complete (r.served b) (Final.good (r.random ++ b)) false
    else s.setMsg (r.served b) := by
  have hpause : (s.setMsg (r.served b)).holdsBack (r.served b) = s.holdsBack r := rfl
  simp only [State.gotRandom, hr]
  rw [← hpause]
  simp only [Bool.and_eq_true, beq_iff_eq, Bool.not_eq_true']
  rfl

end Found

end End

/-- Settles O39: a held request ends as every message of the source does, now or after a restart, and bytes that a call
makes go to its request. -/
theorem randomWaits : Obligations.RandomWaits := by
  intro s id r hr
  refine ⟨fun hh he => next_settle_congr (State.waitExpires_of_held hr hh he), State.heldRequest_iff, fun st => ?ends,
    fun h => next_settle_congr (State.waitExpires_of_other hr h),
    fun h => next_settle_congr (State.callComplete_of_call hr h),
    fun h => next_settle_congr (State.callComplete_of_other hr h), fun b ho hp => ?served, fun b h => ?kept⟩
  case ends =>
    refine ⟨_, _, _, rfl, rfl, rfl, fun hnow => ?_, fun hc hn ho => ?_⟩
    · exact State.randomFails_eq.trans (State.endOrHold_of_now hnow)
    · exact State.randomFails_eq.trans (State.endOrHold_of_restart hc hn ho)
  case served => exact ⟨_, rfl, (State.gotRandom_of_found hr b).trans (if_pos ⟨ho, hp⟩)⟩
  case kept =>
    refine (State.gotRandom_of_found hr b).trans (if_neg ?_)
    rintro ⟨ho, hp⟩
    obtain h | h := h
    · exact h ho
    · exact ne_true_of_eq_false hp h

end Sys2Proof.Machine
end

section
/-! Laps of the built-in cipher programs (R129, R135 to R146): a job under the registers of its own key, what a lap of each
opcode is, the output of a whole message in one lap, and the statement O28 on it. -/

namespace Sys2Proof.Machine

/-! The job under its registers -/

section Registers

variable {j : Job} {k : KeyRegs} {o : Op}

/-- Registers loaded twice are registers loaded. -/
theorem Job.withRegs_withRegs : (j.withRegs k).withRegs k = j.withRegs k := by
  obtain ⟨_, _, _, _, _, keyA, keyB, _⟩ := j
  cases keyA <;> cases keyB <;> rfl

/-- The key load of a cipher lap fills the registers with the keys of its job (R129). -/
theorem Job.withRegs_load (ho : (j.op.kind == some 1) = false) : j.withRegs j.load = j := by
  obtain ⟨op, _, _, _, _, keyA, keyB, _⟩ := j
  simp only [Job.withRegs, Job.load, ho, Bool.false_eq_true, if_false, Job.key, Job.key2]
  cases keyA <;> cases keyB <;> rfl

theorem Job.withRegs_load_op (ho : (o.kind == some 1) = false) :
    Job.withRegs { j with op := o } (Job.load { j with op := o }) = { j with op := o } :=
  Job.withRegs_load ho

@[simp] theorem Job.alg_withRegs : (j.withRegs k).alg = j.alg := by
  simp only [Job.alg, Job.withRegs, Option.map_map, Function.comp_def]

@[simp] theorem Job.tagLen_withRegs : (j.withRegs k).tagLen = j.tagLen := by
  unfold Job.tagLen Job.block
  rw [Job.alg_withRegs]
  rfl

end Registers

/-! What a lap is -/

/-- The end of a lap: a generated IV comes before the output of the first one, and a set verify flag leaves no output. -/
def Job.lapEnd (j : Job) (c : Ctx) (n : Nat) (r : Ctx × Bytes) : Ctx × Bytes :=
  ({ r.1 with pos := c.pos + n }, if r.1.fail then [] else (if c.pos == 0 && j.ivGen then c.iv else []) ++ r.2)

/-- The block that a chaining mode goes on from: that of the laps before it, or the IV. -/
def Job.chainFrom (j : Job) (c : Ctx) : Bytes :=
  if c.chain.isEmpty then (if j.ivGen then c.iv else j.p.take j.block) else c.chain

/-- A lap of decrypted text: as it is, or through the padding unit (R136). -/
def Job.decrypted (j : Job) (r : Ctx × Bytes) (segEnd last : Bool) : Ctx × Bytes :=
  if j.padding == 0 then r else unpadLap j r.1 r.2 segEnd last

/-- The context and the output that a chaining mode leaves, of the output and the block it goes on from. -/
def Ctx.chained (c : Ctx) (t : Bytes × Bytes) : Ctx × Bytes := ({ c with chain := t.2 }, t.1)

/-- What a wrapped text opens to (R146). -/
def Job.unwrapped (j : Job) (x : Bytes) : Option Bytes := if j.isKwp then kwpUnwrap j.key x else kwUnwrap j.key x

section Lap

variable {j : Job} {k : KeyRegs} (c : Ctx) (x e : Bytes) (s l : Bool)

theorem cipherLap_withRegs : cipherLap k (j.withRegs k) c x s l e = cipherLap k j c x s l e := by
  simp only [cipherLap, Job.withRegs_withRegs]

/-! Under the registers of its key a job's lap is that of its opcode's program, between the IV and the flag. -/

variable (hk : j.withRegs k = j)

include hk

theorem cipherLap_ecbEncrypt (ho : j.op = .ecbEncrypt) : cipherLap k j c x s l e = j.lapEnd c x.length
    (c, ecbRun (blockEnc j.alg j.key) j.block (x ++ if l then padBytes j.padding j.block j.total c.fill else [])) := by
  simp only [cipherLap, hk, ho]
  rfl

theorem cipherLap_ecbDecrypt (ho : j.op = .ecbDecrypt) : cipherLap k j c x s l e = j.lapEnd c x.length
    (j.decrypted (c, ecbRun (blockDec j.alg j.key) j.block x) s l) := by
  simp only [cipherLap, hk, ho]
  rfl

theorem cipherLap_cbcEncrypt (ho : j.op = .cbcEncrypt) : cipherLap k j c x s l e = j.lapEnd c x.length
    (c.chained (cbcEnc (blockEnc j.alg j.key)
        (chunks j.block (x ++ if l then padBytes j.padding j.block j.total c.fill else [])) (j.chainFrom c))) := by
  simp only [cipherLap, hk, ho]
  rfl

theorem cipherLap_cbcDecrypt (ho : j.op = .cbcDecrypt) : cipherLap k j c x s l e = j.lapEnd c x.length
    (j.decrypted (c.chained (cbcDec (blockDec j.alg j.key) (chunks j.block x) (j.chainFrom c))) s l) := by
  simp only [cipherLap, hk, ho]
  rfl

theorem cipherLap_cfbEncrypt (ho : j.op = .cfbEncrypt) : cipherLap k j c x s l e = j.lapEnd c x.length
    (c.chained (cfbRun j.key true (chunks 16 x) (j.chainFrom c))) := by
  simp only [cipherLap, hk, ho]
  rfl

theorem cipherLap_cfbDecrypt (ho : j.op = .cfbDecrypt) : cipherLap k j c x s l e = j.lapEnd c x.length
    (c.chained (cfbRun j.key false (chunks 16 x) (j.chainFrom c))) := by
  simp only [cipherLap, hk, ho]
  rfl

theorem cipherLap_ofbCrypt (ho : j.op = .ofbCrypt) : cipherLap k j c x s l e = j.lapEnd c x.length
    (c.chained (ofbRun j.key (chunks 16 x) (j.chainFrom c))) := by
  simp only [cipherLap, hk, ho]
  rfl

theorem cipherLap_ctrCrypt (ho : j.op = .ctrCrypt) : cipherLap k j c x s l e = j.lapEnd c x.length
    (c, xorB x (keystream j.key (ctrBlock j.ctrWidth j.p) c.pos x.length)) := by
  simp only [cipherLap, hk, ho]
  rfl

theorem cipherLap_xtsEncrypt (ho : j.op = .xtsEncrypt) : cipherLap k j c x s l e = j.lapEnd c x.length
    (c, xtsRun true j.key j.key2 j.unitLen x (leNat (fit 16 j.p) + c.pos / max 1 j.unitLen)) := by
  simp only [cipherLap, hk, ho]
  rfl

theorem cipherLap_xtsDecrypt (ho : j.op = .xtsDecrypt) : cipherLap k j c x s l e = j.lapEnd c x.length
    (c, xtsRun false j.key j.key2 j.unitLen x (leNat (fit 16 j.p) + c.pos / max 1 j.unitLen)) := by
  simp only [cipherLap, hk, ho]
  rfl

theorem cipherLap_dataWrap (ho : j.op = .dataWrap) : cipherLap k j c x s l e = j.lapEnd c x.length
    (c, if j.isKwp then kwpWrap j.key x else kwWrap j.key x) := by
  simp only [cipherLap, hk, ho]
  rfl

theorem cipherLap_dataUnwrap (ho : j.op = .dataUnwrap) : cipherLap k j c x s l e = j.lapEnd c x.length
    ({ c with fail := c.fail || (j.unwrapped x).isNone }, (j.unwrapped x).getD []) := by
  simp only [cipherLap, hk, ho]
  change j.lapEnd c x.length (match j.unwrapped x with | some y => (c, y) | none => ({ c with fail := true }, [])) = _
  cases j.unwrapped x
  · simp only [Option.isNone_none, Bool.or_true, Option.getD_none]
  · simp only [Option.isNone_some, Bool.or_false, Option.getD_some]

theorem cipherLap_gcm (ho : j.op = .gcmEncrypt ∨ j.op = .gcmDecrypt) :
    cipherLap k j c x s l e = j.lapEnd c x.length (gcmLap k.h j c x l) := by
  obtain ho | ho := ho <;> simp only [cipherLap, hk, ho] <;> rfl

theorem cipherLap_ccm (ho : j.op = .ccmEncrypt ∨ j.op = .ccmDecrypt) :
    cipherLap k j c x s l e = j.lapEnd c x.length (ccmLap j c x l) := by
  obtain ho | ho := ho <;> simp only [cipherLap, hk, ho] <;> rfl

theorem cipherLap_cmac (ho : j.op = .cmacGenerate ∨ j.op = .cmacVerify) :
    cipherLap k j c x s l e = j.lapEnd c x.length (cmacLap k.k1 k.k2 j c x l e) := by
  obtain ho | ho := ho <;> simp only [cipherLap, hk, ho] <;> rfl

end Lap

/-! A whole message in one lap -/

section Whole

variable {j : Job} {c : Ctx} {r lap : Ctx × Bytes} {n : Nat}

theorem Job.output_of_lap (hlap : lap = j.lapEnd c n r) (hf : r.1.fail = false) (hc : c.pos = 0) :
    lap.2 = (if j.ivGen then c.iv else []) ++ r.2 := by
  simp only [hlap, Job.lapEnd, hf, hc, beq_self_eq_true, Bool.true_and, Bool.false_eq_true, if_false]

theorem Job.output_of_namedIv (hlap : lap = j.lapEnd c n r) (hf : r.1.fail = false) (hv : j.ivGen = false) :
    lap.2 = r.2 := by
  simp only [hlap, Job.lapEnd, hf, hv, Bool.and_false, Bool.false_eq_true, if_false, List.nil_append]

theorem Job.output_of_flag (hlap : lap = j.lapEnd c n r) (hf : r.1.fail = true) : lap.2 = [] := by
  simp only [hlap, Job.lapEnd, hf, if_true]

theorem Job.output_of_none (hlap : lap = j.lapEnd c n r) (hr : r.2 = []) (hv : j.ivGen = false) : lap.2 = [] := by
  simp only [hlap, Job.lapEnd, hr, hv, Bool.and_false, Bool.false_eq_true, if_false, List.nil_append, ite_self]

theorem Job.flag_of_lap (hlap : lap = j.lapEnd c n r) : lap.1.fail = r.1.fail := by
  rw [hlap, Job.lapEnd]

theorem Job.chainFrom_of_new (hc : c.chain = []) : j.chainFrom c = if j.ivGen then c.iv else j.p.take j.block := by
  simp only [Job.chainFrom, hc, List.isEmpty_nil, if_true]

theorem Job.chainFrom_of_named (hc : c.chain = []) (hv : j.ivGen = false) : j.chainFrom c = j.p.take j.block := by
  simp only [Job.chainFrom_of_new hc, hv, Bool.false_eq_true, if_false]

section Padding

variable {q : Nat}

theorem Job.decrypted_of_unpadded (hp : j.padding = 0) : j.decrypted r true true = r := by
  simp only [Job.decrypted, hp, beq_self_eq_true, if_true]

variable (hp : j.padding ≠ 0) (hc : r.1.held = [])

include hp hc

theorem Job.decrypted_of_padded (h : padOn j.padding j.block (r.2.drop (r.2.length - j.block)) = some q) :
    j.decrypted r true true = ({ r.1 with held := [] }, r.2.take (r.2.length - q)) := by
  simp only [Job.decrypted, beq_false_of_ne hp, Bool.false_eq_true, if_false, unpadLap, hc, List.nil_append, if_true, h]

theorem Job.decrypted_of_malformed (h : padOn j.padding j.block (r.2.drop (r.2.length - j.block)) = none) :
    j.decrypted r true true = ({ r.1 with held := [], fail := true }, []) := by
  simp only [Job.decrypted, beq_false_of_ne hp, Bool.false_eq_true, if_false, unpadLap, hc, List.nil_append, if_true, h]

end Padding

/-- R146: the text that was wrapped, or the verify flag and no output. -/
theorem Job.opens {y : Option Bytes} (hlap : lap = j.lapEnd c n ({ c with fail := c.fail || y.isNone }, y.getD []))
    (hv : j.ivGen = false) (hf : c.fail = false) : lap.2 = y.getD [] ∧ lap.1.fail = y.isNone := by
  cases y with
  | none => exact ⟨Job.output_of_flag hlap (Bool.or_true _), (Job.flag_of_lap hlap).trans (Bool.or_true _)⟩
  | some y =>
    have hopen : (c.fail || (some y).isNone) = false := by rw [hf]; rfl
    exact ⟨Job.output_of_namedIv hlap hopen hv, (Job.flag_of_lap hlap).trans hopen⟩

/-- R136: the text without its padding, or the verify flag and no output. -/
theorem Job.strips (hlap : lap = j.lapEnd c n (j.decrypted r true true)) (hv : j.ivGen = false) (hc : r.1.held = [])
    (hf : r.1.fail = false) :
    (j.padding = 0 → lap.2 = r.2)
    ∧ (∀ k, j.padding ≠ 0 → padOn j.padding j.block (r.2.drop (r.2.length - j.block)) = some k →
        lap.2 = r.2.take (r.2.length - k))
    ∧ (j.padding ≠ 0 → padOn j.padding j.block (r.2.drop (r.2.length - j.block)) = none →
        lap.2 = [] ∧ lap.1.fail = true) := by
  refine ⟨fun hp => ?plain, fun k hp hk => ?padded, fun hp hk => ?malformed⟩
  case plain =>
    rw [Job.decrypted_of_unpadded hp] at hlap
    exact Job.output_of_namedIv hlap hf hv
  case padded =>
    rw [Job.decrypted_of_padded hp hc hk] at hlap
    exact Job.output_of_namedIv hlap hf hv
  case malformed =>
    rw [Job.decrypted_of_malformed hp hc hk] at hlap
    exact ⟨Job.output_of_flag hlap rfl, Job.flag_of_lap hlap⟩

end Whole

/-- Settles O28: under the registers of its own key a job is itself, so that each lap is that of its program, whose output
stands behind the generated IV and whose flag is that of the padding unit or of the unwrapping. -/
theorem cipherResults : Obligations.CipherResults := by
  intro j c x e hpos hchain hheld hfail
  have chain {o : Op} (hv : Op.hasIvGen o = false) : Job.chainFrom { j with op := o } c = j.p.take j.block :=
    Job.chainFrom_of_named hchain (by rw [Job.ivGen, hv, Bool.false_and])
  have tweak (u : Nat) : leNat (fit 16 j.p) + c.pos / u = leNat (fit 16 j.p) := by rw [hpos, Nat.zero_div, Nat.add_zero]
  refine ⟨?ecbEncrypt, ?ecbDecrypt, ?cbcEncrypt, ?cbcDecrypt, ?cfbEncrypt, ?cfbDecrypt, ?ofb, ?ctr, ?xtsEncrypt,
    ?xtsDecrypt, ?wrap, ?unwrap⟩
  case ecbEncrypt =>
    exact Job.output_of_namedIv (cipherLap_ecbEncrypt c x e true true (Job.withRegs_load_op rfl) rfl) hfail rfl
  case ecbDecrypt => exact Job.strips (cipherLap_ecbDecrypt c x e true true (Job.withRegs_load_op rfl) rfl) rfl hheld hfail
  case cbcEncrypt =>
    exact (Job.output_of_lap (cipherLap_cbcEncrypt c x e true true (Job.withRegs_load_op rfl) rfl) hfail hpos).trans
      (by rw [Job.chainFrom_of_new hchain]; rfl)
  case cbcDecrypt =>
    have hlap := cipherLap_cbcDecrypt c x e true true (Job.withRegs_load_op (j := j) (o := .cbcDecrypt) rfl) rfl
    rw [chain rfl] at hlap
    exact Job.strips hlap rfl hheld hfail
  case cfbEncrypt =>
    exact (Job.output_of_lap (cipherLap_cfbEncrypt c x e true true (Job.withRegs_load_op rfl) rfl) hfail hpos).trans
      (by rw [Job.chainFrom_of_new hchain]; rfl)
  case cfbDecrypt =>
    exact (Job.output_of_namedIv (cipherLap_cfbDecrypt c x e true true (Job.withRegs_load_op rfl) rfl) hfail rfl).trans
      (by rw [chain rfl]; rfl)
  case ofb =>
    exact (Job.output_of_namedIv (cipherLap_ofbCrypt c x e true true (Job.withRegs_load_op rfl) rfl) hfail rfl).trans
      (by rw [chain rfl]; rfl)
  case ctr =>
    exact (Job.output_of_namedIv (cipherLap_ctrCrypt c x e true true (Job.withRegs_load_op rfl) rfl) hfail rfl).trans
      (by rw [hpos]; rfl)
  case xtsEncrypt =>
    exact (Job.output_of_namedIv (cipherLap_xtsEncrypt c x e true true (Job.withRegs_load_op rfl) rfl) hfail rfl).trans
      (by rw [tweak]; rfl)
  case xtsDecrypt =>
    exact (Job.output_of_namedIv (cipherLap_xtsDecrypt c x e true true (Job.withRegs_load_op rfl) rfl) hfail rfl).trans
      (by rw [tweak]; rfl)
  case wrap => exact Job.output_of_namedIv (cipherLap_dataWrap c x e true true (Job.withRegs_load_op rfl) rfl) hfail rfl
  case unwrap => exact Job.opens (cipherLap_dataUnwrap c x e true true (Job.withRegs_load_op rfl) rfl) rfl hfail

end Sys2Proof.Machine
end

section
/-! CMAC (R130, R142, R148): the subkeys that the key load leaves, the program on a whole input, and the statement O29. -/

namespace Sys2Proof.Machine

/-- The context once a whole input is taken in: the blocks before the last are chained, the last is held. -/
def Ctx.macTaken (c : Ctx) (key x : Bytes) : Ctx :=
  let n := (x.length - 1) / 16 * 16
  { c with chain := cbcMacAes key (zeros 16) (chunks 16 (x.take n)), held := x.drop n }

section Cmac

variable {j : Job} {c : Ctx} {k1 k2 x e mac : Bytes}

theorem leBytes_length (n v : Nat) : (leBytes n v).length = n := by
  induction n generalizing v with
  | zero => rfl
  | succ n ih => rw [leBytes, List.length_cons, ih]

theorem beBytes_length (n v : Nat) : (beBytes n v).length = n := by
  rw [beBytes, List.length_reverse, leBytes_length]

theorem cmacDouble_length (b : Bytes) : (cmacDouble b).length = 16 := beBytes_length 16 _

theorem fit_of_length {n : Nat} {b : Bytes} (h : b.length = n) : fit n b = b := by
  rw [fit, h, Nat.sub_self, List.take_of_length_le (Nat.le_of_eq h), zeros, List.replicate_zero, List.append_nil]

theorem subkeyDouble_of_aes {b : Bytes} (h : b.length = 16) : subkeyDouble b = cmacDouble b := by
  simp only [subkeyDouble, h, Nat.reduceBEq, Bool.false_eq_true, if_false]

/-- The derived-value register holds the subkeys of SP 800-38B (R130). -/
theorem Job.load_subkeys (ho : (j.op.kind == some 1) = false) (ht : isTdea j.alg = false) :
    j.load.k1 = cmacDouble (aesEnc j.key (zeros 16)) ∧ j.load.k2 = cmacDouble (cmacDouble (aesEnc j.key (zeros 16))) := by
  have henc : blockEnc j.alg j.key (zeros j.block) = aesEnc j.key (zeros 16) := by
    simp only [Job.block, blockEnc, blockSize, ht, Bool.false_eq_true, if_false]
  simp only [Job.load, ho, Bool.false_eq_true, if_false, henc]
  rw [subkeyDouble_of_aes (aesEnc_length _ _), subkeyDouble_of_aes (cmacDouble_length _),
    fit_of_length (cmacDouble_length _), fit_of_length (cmacDouble_length _)]
  exact ⟨rfl, rfl⟩

/-- The program holds the last block back as SP 800-38B does. -/
theorem cmacLap_of_whole (hc : c.chain = []) (hh : c.held = []) (h1 : k1 = cmacDouble (aesEnc j.key (zeros 16)))
    (h2 : k2 = cmacDouble (cmacDouble (aesEnc j.key (zeros 16)))) :
    cmacLap k1 k2 j c x true e = macEnd j (c.macTaken j.key x) (cmac j.key x) e := by
  have hblocks : 16 * (if x.isEmpty then 0 else (x.length - 1) / 16) = (x.length - 1) / 16 * 16 := by
    cases x with
    | nil => rfl
    | cons a x => exact Nat.mul_comm _ _
  simp only [cmacLap, cmac, cmacFinal, hblocks, hc, hh, h1, h2, List.isEmpty_nil, List.nil_append, if_true]
  rfl

theorem macEnd_of_generate (ho : Op.isDecrypt j.op = false) : macEnd j c mac e = (c, mac.take j.tagLen) := by
  simp only [macEnd, ho, Bool.false_eq_true, if_false]

theorem macEnd_of_verify (ho : Op.isDecrypt j.op = true) :
    macEnd j c mac e = ({ c with fail := c.fail || mac.take j.tagLen != e.take j.tagLen }, []) := by
  simp only [macEnd, ho, if_true]

end Cmac

/-- Settles O29: the subkeys loaded are those of SP 800-38B, under which the lap computes its CMAC. -/
theorem cmacResults : Obligations.CmacResults := by
  intro j x e ht
  have whole {o : Op} (ho : (o.kind == some 1) = false) (hm : o = .cmacGenerate ∨ o = .cmacVerify) :
      cipherLap (Job.load { j with op := o }) { j with op := o } Ctx.reset x true true e =
        Job.lapEnd { j with op := o } Ctx.reset x.length
          (macEnd { j with op := o } (Ctx.reset.macTaken j.key x) (cmac j.key x) e) := by
    obtain ⟨h1, h2⟩ := Job.load_subkeys (j := { j with op := o }) ho ht
    rw [cipherLap_cmac Ctx.reset x e true true (Job.withRegs_load_op ho) hm, cmacLap_of_whole rfl rfl h1 h2]
    rfl
  have hgenerate := whole (o := .cmacGenerate) rfl (.inl rfl)
  have hverify := whole (o := .cmacVerify) rfl (.inr rfl)
  rw [macEnd_of_generate rfl] at hgenerate
  rw [macEnd_of_verify rfl] at hverify
  exact ⟨Job.output_of_namedIv hgenerate rfl rfl, (Bool.eq_iff_iff.mp (Job.flag_of_lap hverify)).trans bne_iff_ne,
    Job.output_of_none hverify rfl rfl⟩

end Sys2Proof.Machine
end

section
/-! The modes that make a stream of the cipher (R138, R140): what the second run sees of the blocks of the first, and the
statement O32. -/

namespace Sys2Proof.Machine

section Blocks

variable {key : Bytes}

/-- The first of the blocks of a text is a whole one, or the only one. -/
theorem chunks_block_append {a b : Bytes} (ha : a ≠ []) (h : a.length = 16 ∨ (a.length < 16 ∧ b = [])) :
    chunks 16 (a ++ b) = a :: chunks 16 b := by
  rw [chunks_cons 16 (by decide) _ (List.append_ne_nil_of_left_ne_nil ha b)]
  obtain h | ⟨h, rfl⟩ := h
  · rw [List.take_left' h, List.drop_left' h]
  · rw [List.append_nil, List.take_of_length_le (Nat.le_of_lt h), List.drop_eq_nil_of_le (Nat.le_of_lt h)]

/-- A block of keystream is as long as any block of the text. -/
theorem aesEnc_covers_block (x c : Bytes) : (x.take 16).length ≤ (aesEnc key c).length :=
  Nat.le_trans (List.length_take_le 16 x) (Nat.le_of_eq (aesEnc_length key c).symm)

/-- The first block of an output is the first block of the text under the cipher, whatever run makes of the rest. -/
theorem chunks_xorB_append {x c : Bytes} {run : List Bytes → Bytes} (hx : x ≠ []) (hrun : run [] = []) :
    chunks 16 (xorB (x.take 16) (aesEnc key c) ++ run (chunks 16 (x.drop 16)))
      = xorB (x.take 16) (aesEnc key c) :: chunks 16 (run (chunks 16 (x.drop 16))) := by
  have hlen : (xorB (x.take 16) (aesEnc key c)).length = min 16 x.length := by
    rw [xorB_length _ _ (aesEnc_covers_block x c), List.length_take]
  have hpos : 0 < x.length := List.length_pos_iff.mpr hx
  refine chunks_block_append (List.ne_nil_of_length_pos (by omega)) ?_
  rcases Nat.lt_or_ge x.length 16 with hshort | hlong
  · refine .inr ⟨by omega, ?_⟩
    rw [List.drop_eq_nil_of_le (Nat.le_of_lt hshort)]
    exact hrun
  · exact .inl (by omega)

/-- R140: the output blocks of OFB see the IV alone. -/
theorem ofbRun_ofbRun (x c : Bytes) : (ofbRun key (chunks 16 (ofbRun key (chunks 16 x) c).1) c).1 = x := by
  induction x using chunks_induction generalizing c with
  | h0 => rfl
  | h1 x hx ih =>
    rw [chunks_cons 16 (by decide) x hx]
    simp only [ofbRun]
    rw [chunks_xorB_append (run := fun l => (ofbRun key l (aesEnc key c)).1) hx rfl]
    simp only [ofbRun]
    rw [xorB_xorB _ _ (aesEnc_covers_block x c), ih, List.take_append_drop]

/-- R140: CFB feeds the same ciphertext back on both sides. -/
theorem cfbRun_decrypts (x c : Bytes) :
    (cfbRun key false (chunks 16 (cfbRun key true (chunks 16 x) c).1) c).1 = x := by
  induction x using chunks_induction generalizing c with
  | h0 => rfl
  | h1 x hx ih =>
    rw [chunks_cons 16 (by decide) x hx]
    simp only [cfbRun, if_true]
    rw [chunks_xorB_append (run := fun l => (cfbRun key true l (xorB (x.take 16) (aesEnc key c))).1) hx rfl]
    simp only [cfbRun, Bool.false_eq_true, if_false]
    rw [xorB_xorB _ _ (aesEnc_covers_block x c), ih, List.take_append_drop]

/-- A keystream is as long as the text that asks for it. -/
theorem keystream_covers (ctr : Nat → Bytes) (off n : Nat) : n ≤ (keystream key ctr off n).length :=
  Nat.le_of_eq (keystream_length key ctr off n).symm

/-- A text under a keystream of its own length, twice. -/
theorem xorB_keystream_twice (ctr : Nat → Bytes) (off : Nat) (x : Bytes) :
    xorB (xorB x (keystream key ctr off x.length)) (keystream key ctr off (xorB x (keystream key ctr off x.length)).length)
      = x := by
  have hlen : x.length ≤ (keystream key ctr off x.length).length := keystream_covers ctr off x.length
  rw [xorB_length _ _ hlen, xorB_xorB _ _ hlen]

end Blocks

/-- Settles O32: the runs of a mode start from one IV, and the mode takes its own ciphertext back to the text. -/
theorem streamModesInvert : Obligations.StreamModesInvert := by
  intro k j x e _
  refine ⟨?ctr, ?ofb, fun hv => ?cfb⟩
  case ctr =>
    have output (y : Bytes) : (cipherLap k { j with op := .ctrCrypt } Ctx.reset y true true e).2 =
        xorB y (keystream (j.withRegs k).key (ctrBlock j.ctrWidth j.p) 0 y.length) := by
      rw [← cipherLap_withRegs]
      exact Job.output_of_namedIv (cipherLap_ctrCrypt Ctx.reset y e true true Job.withRegs_withRegs rfl) rfl rfl
    rw [output, output, xorB_keystream_twice]
  case ofb =>
    have output (y : Bytes) : (cipherLap k { j with op := .ofbCrypt } Ctx.reset y true true e).2 =
        (ofbRun (j.withRegs k).key (chunks 16 y) (j.p.take (j.withRegs k).block)).1 := by
      rw [← cipherLap_withRegs]
      exact Job.output_of_namedIv (cipherLap_ofbCrypt Ctx.reset y e true true Job.withRegs_withRegs rfl) rfl rfl
    rw [output, output, ofbRun_ofbRun]
  case cfb =>
    replace hv : (Job.withRegs { j with op := .cfbEncrypt } k).ivGen = false := hv
    have encrypted : (cipherLap k { j with op := .cfbEncrypt } Ctx.reset x true true e).2 =
        (cfbRun (j.withRegs k).key true (chunks 16 x) (j.p.take (j.withRegs k).block)).1 := by
      rw [← cipherLap_withRegs]
      refine (Job.output_of_namedIv (cipherLap_cfbEncrypt Ctx.reset x e true true Job.withRegs_withRegs rfl) rfl hv).trans ?_
      rw [Job.chainFrom_of_named rfl hv]
      rfl
    have decrypted (y : Bytes) : (cipherLap k { j with op := .cfbDecrypt } Ctx.reset y true true e).2 =
        (cfbRun (j.withRegs k).key false (chunks 16 y) (j.p.take (j.withRegs k).block)).1 := by
      rw [← cipherLap_withRegs]
      exact Job.output_of_namedIv (cipherLap_cfbDecrypt Ctx.reset y e true true Job.withRegs_withRegs rfl) rfl rfl
    rw [encrypted, decrypted, cfbRun_decrypts]

end Sys2Proof.Machine
end

section
/-! GCM and CCM on a whole message (R145, R148): how the lengths of a message cut its input, the tag over additional data and
text, what the last lap does with it, and the statement O33. -/

namespace Sys2Proof.Machine

/-- The lengths of a message cut its input into additional data, text and tag. -/
structure Job.Cuts (j : Job) (a y g : Bytes) : Prop where
  aad   : j.aadLen = a.length
  tail  : j.tailLen = g.length
  total : j.total = (a ++ y ++ g).length

/-- The MAC over additional data and then a text, each filled up to whole blocks. -/
def macOver (step : Bytes → Bytes → Bytes) (start : Bytes × Bytes) (a y : Bytes) : Bytes × Bytes :=
  let m := feedEnd step (feed step start.1 start.2 a)
  feed step m.1 m.2 y

/-- The context once an input is taken in: the MAC so far, and the tag that came with it. -/
def Ctx.sealTaken (c : Ctx) (m : Bytes × Bytes) (g : Bytes) : Ctx := { c with acc := m.1, aadHeld := m.2, held := g }

/-- A text under the keystream of a seal. -/
def Job.ciphered (j : Job) (ctr : Nat → Bytes) (y : Bytes) : Bytes := xorB y (keystream j.key ctr 0 y.length)

/-- The tag of GCM over additional data and ciphertext, before TAG_LEN cuts it. -/
def Job.gcmTagOver (j : Job) (h a y : Bytes) : Bytes :=
  gcmTagWith (beNat h) j.key (j.p.take 12)
    (beNat (feedEnd (ghashStep h) (macOver (ghashStep h) ([], []) a y)).1) a.length y.length

/-- Where the MAC of CCM starts: behind B0, with the length of the additional data. -/
def Job.ccmStart (j : Job) : Bytes × Bytes := (ccmStep j.key (zeros 16) (ccmB0 j), ccmAadHead j.aadLen)

/-- The tag of CCM over additional data and text, before TAG_LEN cuts it. -/
def Job.ccmTagOver (j : Job) (a y : Bytes) : Bytes :=
  xorB (feedEnd (ccmStep j.key) (macOver (ccmStep j.key) j.ccmStart a y)).1 (aesEnc j.key (ccmCounter j 0))

section Cut

variable {j : Job} {a y g : Bytes}

theorem part_of_middle (u v w : Bytes) : part (u ++ v ++ w) 0 u.length (u.length + v.length) = v := by
  have hend : min (u ++ v ++ w).length (u.length + v.length) - u.length = v.length := by
    simp only [List.length_append]
    omega
  simp only [part, Nat.zero_max, Nat.sub_zero, Nat.zero_add, hend]
  rw [List.append_assoc, List.drop_left, List.take_left]

variable (hj : j.Cuts a y g)

include hj

theorem Job.Cuts.textEnd : j.textEnd = a.length + y.length := by
  rw [Job.textEnd, hj.total, hj.tail, List.length_append, List.length_append, Nat.add_sub_cancel]

theorem Job.Cuts.part_aad : part (a ++ y ++ g) 0 0 j.aadLen = a := by
  have h := part_of_middle [] a (y ++ g)
  rwa [List.nil_append, List.length_nil, Nat.zero_add, ← List.append_assoc, ← hj.aad] at h

theorem Job.Cuts.part_text : part (a ++ y ++ g) 0 j.aadLen j.textEnd = y := by
  rw [hj.textEnd, hj.aad, part_of_middle]

theorem Job.Cuts.part_tag : part (a ++ y ++ g) 0 j.textEnd j.total = g := by
  have h := part_of_middle (a ++ y) g []
  rwa [List.append_nil, ← List.length_append, ← hj.total, List.length_append, ← hj.textEnd] at h

/-- The first lap takes in the whole input when it is the only one. -/
theorem aeadLap_of_whole {c : Ctx} (hc : c.pos = 0) (hh : c.held = []) (step : Bytes → Bytes → Bytes)
    (ctr : Nat → Bytes) (b : Bool) : aeadLap j c (a ++ y ++ g) step ctr b =
      (c.sealTaken (macOver step (c.acc, c.aadHeld) a (if b then j.ciphered ctr y else y)) g, j.ciphered ctr y) := by
  have hwithin : j.aadLen ≤ (a ++ y ++ g).length := by
    simp only [hj.aad, List.length_append]
    omega
  simp only [aeadLap, hc, hh, hj.part_aad, hj.part_text, hj.part_tag, Nat.zero_le, Nat.zero_add, hwithin, decide_true,
    Bool.and_self, if_true, Nat.zero_max, Nat.sub_self, List.nil_append, Ctx.sealTaken, macOver, Job.ciphered]

theorem Job.Cuts.textLen : j.textEnd - j.aadLen = y.length := by
  rw [hj.textEnd, hj.aad, Nat.add_sub_cancel_left]

/-- R145: GCM takes its tag over the ciphertext, the output of one side and the input of the other. -/
theorem gcmLap_of_whole (hv : j.ivGen = false) (h : Bytes) :
    ∃ m : Bytes × Bytes, gcmLap h j Ctx.reset (a ++ y ++ g) true = aeadEnd j
      (Ctx.reset.sealTaken m g, j.ciphered (gcmCounter (j.p.take 12)) y)
      (j.gcmTagOver h a (if Op.isDecrypt j.op then y else j.ciphered (gcmCounter (j.p.take 12)) y)) := by
  refine ⟨macOver (ghashStep h) ([], []) a
    (if !Op.isDecrypt j.op then j.ciphered (gcmCounter (j.p.take 12)) y else y), ?_⟩
  have hlen : (j.ciphered (gcmCounter (j.p.take 12)) y).length = y.length :=
    xorB_length _ _ (keystream_covers _ _ _)
  simp only [gcmLap, hv, Bool.false_eq_true, if_false, if_true,
    aeadLap_of_whole hj (c := Ctx.reset) rfl rfl]
  rw [hj.textLen, hj.aad]
  cases Op.isDecrypt j.op
  · simp only [Job.gcmTagOver, Bool.not_false, Bool.false_eq_true, if_false, if_true, hlen]
    rfl
  · simp only [Job.gcmTagOver, Bool.not_true, Bool.false_eq_true, if_false, if_true]
    rfl

/-- R145: CCM takes its tag over the text, the input of one side and the output of the other. -/
theorem ccmLap_of_whole :
    ∃ m : Bytes × Bytes, ccmLap j Ctx.reset (a ++ y ++ g) true = aeadEnd j
      (Ctx.reset.sealTaken m g, j.ciphered (fun i => ccmCounter j (i + 1)) y)
      (j.ccmTagOver a (if Op.isDecrypt j.op then j.ciphered (fun i => ccmCounter j (i + 1)) y else y)) := by
  refine ⟨macOver (ccmStep j.key) j.ccmStart a
    (if Op.isDecrypt j.op then j.ciphered (fun i => ccmCounter j (i + 1)) y else y), ?_⟩
  have hlap := aeadLap_of_whole hj (c := { Ctx.reset with acc := j.ccmStart.1, aadHeld := j.ccmStart.2 }) rfl rfl
    (ccmStep j.key) (fun i => ccmCounter j (i + 1)) (Op.isDecrypt j.op)
  exact congrArg (fun r : Ctx × Bytes => aeadEnd j r
    (xorB (feedEnd (ccmStep j.key) (r.1.acc, r.1.aadHeld)).1 (aesEnc j.key (ccmCounter j 0)))) hlap

end Cut

/-! The tag at the last lap -/

section Tag

variable {j : Job} {c : Ctx} {r lap : Ctx × Bytes} {key tag : Bytes} {ah : Bytes × Bytes} {n : Nat}

theorem xorB_aesEnc_length {b : Bytes} (hb : b.length = 16) (v : Bytes) : (xorB b (aesEnc key v)).length = 16 := by
  rw [xorB_length _ _ (Nat.le_of_eq (hb.trans (aesEnc_length key v).symm)), hb]

theorem Job.gcmTagOver_length (h a y : Bytes) : (j.gcmTagOver h a y).length = 16 :=
  xorB_aesEnc_length (beBytes_length 16 _) _

/-- Every step of the CBC-MAC leaves a block. -/
theorem foldl_ccmStep_length (l : List Bytes) {acc : Bytes} (ha : acc.length = 16) :
    (l.foldl (ccmStep key) acc).length = 16 := by
  induction l generalizing acc with
  | nil => exact ha
  | cons b l ih => exact ih (aesEnc_length _ _)

theorem feedEnd_ccmStep_length (h : ah.1.length = 16) : (feedEnd (ccmStep key) ah).1.length = 16 := by
  unfold feedEnd
  split
  · exact h
  · exact aesEnc_length _ _

theorem macOver_ccmStep_length (h : ah.1.length = 16) (a y : Bytes) : (macOver (ccmStep key) ah a y).1.length = 16 :=
  foldl_ccmStep_length _ (feedEnd_ccmStep_length (foldl_ccmStep_length _ h))

theorem Job.ccmTagOver_length (a y : Bytes) : (j.ccmTagOver a y).length = 16 :=
  xorB_aesEnc_length (feedEnd_ccmStep_length (macOver_ccmStep_length (aesEnc_length _ _) a y)) _

theorem Job.output_of_seal (hlap : lap = j.lapEnd c n (aeadEnd j r tag)) (hd : Op.isDecrypt j.op = false)
    (hf : r.1.fail = false) (hv : j.ivGen = false) : lap.2 = r.2 ++ tag.take j.tagLen := by
  simp only [aeadEnd, hd, Bool.false_eq_true, if_false] at hlap
  exact Job.output_of_namedIv hlap hf hv

/-- R148: the text goes out under its own tag, and under no other. -/
theorem Job.opens_of_tag (hlap : lap = j.lapEnd c n (aeadEnd j r tag)) (hd : Op.isDecrypt j.op = true)
    (hf : r.1.fail = false) (hv : j.ivGen = false) :
    (r.1.held = tag.take j.tagLen → lap.2 = r.2 ∧ lap.1.fail = false)
    ∧ (r.1.held ≠ tag.take j.tagLen → lap.2 = [] ∧ lap.1.fail = true) := by
  simp only [aeadEnd, hd, if_true, beq_iff_eq] at hlap
  refine ⟨fun heq => ?same, fun hne => ?other⟩
  case same =>
    rw [if_pos heq] at hlap
    exact ⟨Job.output_of_namedIv hlap hf hv, (Job.flag_of_lap hlap).trans hf⟩
  case other =>
    rw [if_neg hne] at hlap
    exact ⟨Job.output_of_flag hlap rfl, Job.flag_of_lap hlap⟩

end Tag

/-- A whole input goes through an AEAD program in one lap: g is the tag that came with it, out the text under the
keystream. -/
def Job.SealLap (j : Job) (k : KeyRegs) (input e g out tag : Bytes) : Prop :=
  ∃ m : Bytes × Bytes, cipherLap k j Ctx.reset input true true e =
    j.lapEnd Ctx.reset input.length (aeadEnd j (Ctx.reset.sealTaken m g, out) tag)

/-- What encryption seals is a ciphertext and a tag, and decryption gives the text back under that tag alone. -/
def OpensItsSeal (k : KeyRegs) (j : Job) (a x e : Bytes) (enc dec : Op) : Prop :=
  let je : Job := { j with op := enc, total := (a ++ x).length }
  ∃ c t : Bytes,
    (cipherLap k je Ctx.reset (a ++ x) true true e).2 = c ++ t ∧ c.length = x.length ∧ t.length = je.tagLen
    ∧ ∀ g : Bytes, g.length = je.tagLen →
      let lap := cipherLap k { j with op := dec, total := (a ++ c ++ g).length } Ctx.reset (a ++ c ++ g) true true e
      (g = t → lap.2 = x ∧ lap.1.fail = false) ∧ (g ≠ t → lap.2 = [] ∧ lap.1.fail = true)

section Seal

variable {k : KeyRegs} {j : Job} {a x y g c e tag : Bytes} {enc dec : Op}

theorem Job.ciphered_length (ctr : Nat → Bytes) (y : Bytes) : (j.ciphered ctr y).length = y.length :=
  xorB_length _ _ (keystream_covers _ _ _)

theorem Job.ciphered_ciphered (ctr : Nat → Bytes) (y : Bytes) : j.ciphered ctr (j.ciphered ctr y) = y :=
  xorB_keystream_twice ctr 0 y

/-- A job under its registers does what the job does. -/
theorem OpensItsSeal.of_withRegs (h : OpensItsSeal k (j.withRegs k) a x e enc dec) : OpensItsSeal k j a x e enc dec := by
  have hlap (o : Op) (n : Nat) (x : Bytes) :
      cipherLap k { j.withRegs k with op := o, total := n } Ctx.reset x true true e =
        cipherLap k { j with op := o, total := n } Ctx.reset x true true e :=
    cipherLap_withRegs (j := { j with op := o, total := n }) ..
  have htag (n : Nat) :
      Job.tagLen { j.withRegs k with op := enc, total := n } = Job.tagLen { j with op := enc, total := n } :=
    Job.tagLen_withRegs (j := { j with op := enc, total := n })
  unfold OpensItsSeal at h
  dsimp only at h
  simp only [hlap, htag] at h
  exact h

/-- Two laps that come to one tag: decryption compares with what encryption appended. -/
theorem OpensItsSeal.of_laps (hops : Op.isDecrypt enc = false ∧ Op.isDecrypt dec = true)
    (hiv : Job.ivGen { j with op := enc } = false ∧ Job.ivGen { j with op := dec } = false)
    (htag : Job.tagLen { j with op := dec } = Job.tagLen { j with op := enc })
    (hcut : (tag.take (Job.tagLen { j with op := enc })).length = Job.tagLen { j with op := enc })
    (hseal : Job.SealLap { j with op := enc, total := (a ++ x).length } k (a ++ x) e [] c tag) (hc : c.length = x.length)
    (hopen : ∀ g : Bytes, g.length = Job.tagLen { j with op := dec } →
      Job.SealLap { j with op := dec, total := (a ++ c ++ g).length } k (a ++ c ++ g) e g x tag) :
    OpensItsSeal k j a x e enc dec := by
  obtain ⟨m, hseal⟩ := hseal
  refine ⟨c, tag.take (Job.tagLen { j with op := enc }), Job.output_of_seal hseal hops.1 rfl hiv.1, hc, hcut,
    fun g hg => ?_⟩
  obtain ⟨m, hopen⟩ := hopen g (hg.trans htag.symm)
  rw [← htag]
  exact Job.opens_of_tag hopen hops.2 rfl hiv.2

theorem Job.withRegs_with (hk : j.withRegs k = j) (o : Op) (n : Nat) :
    Job.withRegs { j with op := o, total := n } k = { j with op := o, total := n } :=
  congrArg (fun y : Job => { y with op := o, total := n }) hk

section Lap

variable (hk : j.withRegs k = j) (hj : j.Cuts a y g)

include hk hj

theorem Job.sealLap_of_gcm (ho : j.op = .gcmEncrypt ∨ j.op = .gcmDecrypt) (hv : j.ivGen = false) :
    j.SealLap k (a ++ y ++ g) e g (j.ciphered (gcmCounter (j.p.take 12)) y)
      (j.gcmTagOver k.h a (if Op.isDecrypt j.op then y else j.ciphered (gcmCounter (j.p.take 12)) y)) := by
  obtain ⟨m, hlap⟩ := gcmLap_of_whole hj hv k.h
  exact ⟨m, (cipherLap_gcm Ctx.reset _ e true true hk ho).trans (congrArg _ hlap)⟩

theorem Job.sealLap_of_ccm (ho : j.op = .ccmEncrypt ∨ j.op = .ccmDecrypt) :
    j.SealLap k (a ++ y ++ g) e g (j.ciphered (fun i => ccmCounter j (i + 1)) y)
      (j.ccmTagOver a (if Op.isDecrypt j.op then j.ciphered (fun i => ccmCounter j (i + 1)) y else y)) := by
  obtain ⟨m, hlap⟩ := ccmLap_of_whole hj
  exact ⟨m, (cipherLap_ccm Ctx.reset _ e true true hk ho).trans (congrArg _ hlap)⟩

end Lap

/-- B0 sees the lengths of data, text and tag, which both sides share. -/
theorem ccmB0_congr {i : Job} {b z f : Bytes} (hj : j.Cuts a y g) (hi : i.Cuts b z f) (hb : b.length = a.length)
    (hz : z.length = y.length) (hp : i.p = j.p) (hf : i.fp = j.fp) (ht : i.tagLen = j.tagLen) : ccmB0 i = ccmB0 j := by
  simp only [ccmB0, hj.textEnd, hi.textEnd, hj.aad, hi.aad, hb, hz, hp, ht, Job.nonceLen, hf]

section Sides

variable (hk : j.withRegs k = j)

include hk

/-- R145: both sides of GCM take the tag over the ciphertext. -/
theorem opensItsSeal_gcm (ha : Job.aadLen { j with op := .gcmEncrypt } = a.length)
    (hv : Job.ivGen { j with op := .gcmEncrypt } = false) (ht : Job.tagLen { j with op := .gcmEncrypt } ≤ 16) :
    OpensItsSeal k j a x e .gcmEncrypt .gcmDecrypt := by
  let ctr := gcmCounter (j.p.take 12)
  let c := j.ciphered ctr x
  refine OpensItsSeal.of_laps (c := c) (tag := j.gcmTagOver k.h a c) ⟨rfl, rfl⟩ ⟨hv, rfl⟩ rfl ?cut ?seals
    (Job.ciphered_length ctr x) fun g hg => ?opens
  case cut => rw [List.length_take, Job.gcmTagOver_length, Nat.min_eq_left ht]
  case seals =>
    have hlap : Job.SealLap { j with op := .gcmEncrypt, total := (a ++ x).length } k (a ++ x ++ []) e [] c
        (j.gcmTagOver k.h a c) :=
      Job.sealLap_of_gcm (Job.withRegs_with hk ..) ⟨ha, rfl, by rw [List.append_nil]⟩ (.inl rfl) hv
    rwa [List.append_nil] at hlap
  case opens =>
    have hlap : Job.SealLap { j with op := .gcmDecrypt, total := (a ++ c ++ g).length } k (a ++ c ++ g) e g
        (j.ciphered ctr c) (j.gcmTagOver k.h a c) :=
      Job.sealLap_of_gcm (Job.withRegs_with hk ..) ⟨ha, hg.symm, rfl⟩ (.inr rfl) rfl
    rwa [Job.ciphered_ciphered] at hlap

/-- R145: both sides of CCM take the tag over the text. -/
theorem opensItsSeal_ccm (ha : Job.aadLen { j with op := .ccmEncrypt } = a.length)
    (ht : Job.tagLen { j with op := .ccmEncrypt } ≤ 16) : OpensItsSeal k j a x e .ccmEncrypt .ccmDecrypt := by
  let je : Job := { j with op := .ccmEncrypt, total := (a ++ x).length }
  let ctr := fun i => ccmCounter j (i + 1)
  let c := j.ciphered ctr x
  have hc : c.length = x.length := Job.ciphered_length ctr x
  have hcuts : je.Cuts a x [] := ⟨ha, rfl, by rw [List.append_nil]⟩
  refine OpensItsSeal.of_laps (c := c) (tag := je.ccmTagOver a x) ⟨rfl, rfl⟩ ⟨rfl, rfl⟩ rfl ?cut ?seals hc
    fun g hg => ?opens
  case cut => rw [List.length_take, Job.ccmTagOver_length, Nat.min_eq_left ht]
  case seals =>
    have hlap : je.SealLap k (a ++ x ++ []) e [] c (je.ccmTagOver a x) :=
      Job.sealLap_of_ccm (Job.withRegs_with hk ..) hcuts (.inl rfl)
    rwa [List.append_nil] at hlap
  case opens =>
    let jd : Job := { j with op := .ccmDecrypt, total := (a ++ c ++ g).length }
    have hcuts' : jd.Cuts a c g := ⟨ha, hg.symm, rfl⟩
    have hlap : jd.SealLap k (a ++ c ++ g) e g (j.ciphered ctr c) (jd.ccmTagOver a (j.ciphered ctr c)) :=
      Job.sealLap_of_ccm (Job.withRegs_with hk ..) hcuts' (.inr rfl)
    have htag : jd.ccmTagOver a x = je.ccmTagOver a x := by
      have hB0 : ccmB0 jd = ccmB0 je := ccmB0_congr hcuts hcuts' rfl hc rfl rfl rfl
      simp only [Job.ccmTagOver, Job.ccmStart, hB0]
      rfl
    rwa [Job.ciphered_ciphered, htag] at hlap

end Sides

end Seal

/-- Settles O33: a job seals and opens as it does under its registers, and each of the two programs opens what it seals. -/
theorem aeadOpensItsSeal : Obligations.AeadOpensItsSeal := by
  intro k j a x e enc dec hops je ha hv ht
  have hk : (j.withRegs k).withRegs k = j.withRegs k := Job.withRegs_withRegs
  have htag : Job.tagLen { j.withRegs k with op := enc } ≤ 16 :=
    Nat.le_trans (Nat.le_of_eq (Job.tagLen_withRegs (j := { j with op := enc }))) ht
  refine OpensItsSeal.of_withRegs ?_
  obtain ⟨rfl, rfl⟩ | ⟨rfl, rfl⟩ := hops
  · exact opensItsSeal_gcm hk ha hv htag
  · exact opensItsSeal_ccm hk ha htag

end Sys2Proof.Machine
end

section
/-! Reads of the vault and batches of commits (R129, R244 to R250, R260): the end of a read for a key-cache miss, the close
of a batch, its switch or its failure, and the statement O40 on them. -/

namespace Sys2Proof.Machine

/-- What waits for an object goes on with it, each message once it waits for no other. -/
def State.keyArrived (t : State) (h : Nat) : State :=
  { t with sch := { t.sch with
      msgs := t.sch.msgs.map (fun r => r.keyRead h)
      internal := t.sch.internal.map (fun y => if y.awaits h then { y with reading := false } else y) } }

/-- R249, R250: why an object cannot be read, the state in which that is known, and the pages lost with it. It went with its
page before, or neither the read nor its retry is right. -/
def State.Unread (s : State) (o : Obj) (h : Nat) (x : VaultRead) (t : State) (lost : List Nat) : Prop :=
  (s.vlt.badHandles.contains h = true ∧ t = s ∧ lost = [])
  ∨ (s.vlt.badHandles.contains h = false ∧ s.readPage o x.first = none ∧ s.readPage o x.retry = none
    ∧ t = s.otherRead o x ∧ lost = s.pagesLost o.page x.retry)

section Read

variable {s t : State} {h g : Nat} {o : Obj} {x : VaultRead} {lost : List Nat} {r : MsgRec} {y : IntOp}

theorem State.otherRead_of_sound
    (hs : s.pageSound (s.otherPage o) x.other = true ∨ s.pageSound (s.otherPage o) x.otherRetry = true) :
    s.otherRead o x = s.cacheNodes (s.otherPage o) :=
  if_pos (Bool.or_eq_true_iff.mpr hs)

theorem State.otherRead_of_unsound (hf : s.pageSound (s.otherPage o) x.other = false)
    (hr : s.pageSound (s.otherPage o) x.otherRetry = false) :
    s.otherRead o x = s.integrityFailure (s.otherPage o) o.handle (s.pagesLost (s.otherPage o) x.otherRetry) :=
  if_neg (by rw [hf, hr]; decide)

theorem MsgRec.keyRead_of_last (hp : r.phase = .vaultRead [h]) : r.keyRead h = { r with phase := r.back } := by
  simp [MsgRec.keyRead, hp]

theorem MsgRec.keyRead_of_other (hg : g ≠ h) (hp : r.phase = .vaultRead [h, g]) :
    r.keyRead h = { r with phase := .vaultRead [g] } := by
  simp [MsgRec.keyRead, hp, hg]

theorem State.vaultReadDone_of_unawaited (hl : s.sch.msgs.filter (fun r => r.awaits h && !s.endIsHeld r) = [])
    (hy : s.sch.internal.filter (fun y => y.awaits h) = []) : s.vaultReadDone h x = s := by
  simp only [State.vaultReadDone, hl, hy, List.isEmpty_nil, Bool.and_self, Bool.true_or, if_true]

theorem State.readAttempts_of_none (hf : s.readPage o x.first = none) (hr : s.readPage o x.retry = none) :
    (s.readPage o x.first <|> s.readPage o x.retry) = none := by
  rw [hf, hr]
  rfl

section Found

variable (hm : s.mounted = true) (ho : s.findObj h = some o)

include hm ho

theorem State.vaultReadDone_of_read
    (hw : s.sch.msgs.filter (fun r => r.awaits h && !s.endIsHeld r) ≠ []
      ∨ s.sch.internal.filter (fun y => y.awaits h) ≠ [])
    (hb : s.vlt.badHandles.contains h = false)
    (hr : (s.readPage o x.first).isSome = true ∨ (s.readPage o x.retry).isSome = true) :
    s.vaultReadDone h x = (((s.otherRead o x).cacheNodes o.page).kcTouch o).keyArrived h := by
  have hwaits : ((s.sch.msgs.filter (fun r => r.awaits h && !s.endIsHeld r)).isEmpty
      && (s.sch.internal.filter (fun y => y.awaits h)).isEmpty) = false :=
    Bool.and_eq_false_iff.mpr (hw.imp List.isEmpty_eq_false_iff.mpr List.isEmpty_eq_false_iff.mpr)
  obtain ⟨b, hread⟩ : ∃ b, (s.readPage o x.first <|> s.readPage o x.retry) = some b := by
    rw [← Option.isSome_iff_exists, Option.orElse_eq_orElse, Option.orElse_eq_or, Option.isSome_or, Bool.or_eq_true]
    exact hr
  simp only [State.vaultReadDone, hwaits, hm, ho, hb, hread, Bool.not_true, Bool.or_self, Bool.false_eq_true, if_false]
  rfl

variable (hu : s.Unread o h x t lost)

include hu

/-- R250: the failure of a read ends the one message that waits for it. -/
theorem State.vaultReadDone_of_message (hl : s.sch.msgs.filter (fun r => r.awaits h && !s.endIsHeld r) = [r])
    (hy : s.sch.internal.filter (fun y => y.awaits h) = [])
    (hr : (t.integrityFailure o.page h lost).findMsg r.id = some r) :
    s.vaultReadDone h x =
      (t.integrityFailure o.page h lost).endOrHold r (.failed (Final.plain Status.vaultIntegrity)) := by
  obtain ⟨hb, rfl, rfl⟩ | ⟨hb, hfirst, hretry, rfl, rfl⟩ := hu
  · simp only [State.vaultReadDone, hl, hy, hm, ho, hb, List.isEmpty_cons, Bool.false_and, Bool.not_true, Bool.or_self,
      if_true, Bool.false_eq_true, if_false, List.foldl_nil, List.foldl_cons, hr]
  · simp only [State.vaultReadDone, hl, hy, hm, ho, hb, State.readAttempts_of_none hfirst hretry, List.isEmpty_cons,
      Bool.false_and, Bool.not_true, Bool.or_self, Bool.false_eq_true, if_false, List.foldl_nil, List.foldl_cons, hr]

/-- R250: and the one operation of the internal world. -/
theorem State.vaultReadDone_of_operation (hl : s.sch.msgs.filter (fun r => r.awaits h && !s.endIsHeld r) = [])
    (hy : s.sch.internal.filter (fun y => y.awaits h) = [y]) :
    s.vaultReadDone h x = (t.integrityFailure o.page h lost).opUnread y := by
  obtain ⟨hb, rfl, rfl⟩ | ⟨hb, hfirst, hretry, rfl, rfl⟩ := hu
  · simp only [State.vaultReadDone, hl, hy, hm, ho, hb, List.isEmpty_cons, Bool.and_false, Bool.not_true, Bool.or_self,
      if_true, Bool.false_eq_true, if_false, List.foldl_nil, List.foldl_cons]
  · simp only [State.vaultReadDone, hl, hy, hm, ho, hb, State.readAttempts_of_none hfirst hretry, List.isEmpty_cons,
      Bool.and_false, Bool.not_true, Bool.or_self, Bool.false_eq_true, if_false, List.foldl_nil, List.foldl_cons]

end Found

end Read

section Batch

variable {s t : State} {batch : List PendCommit} {rest : List (List PendCommit)} {failed : List Nat}

/-- R246: a closed batch joins those in flight, of which two are the most. -/
theorem State.batchClose_of_room (hb : s.vlt.batch ≠ []) (hf : s.vlt.flight.length < 2) (ht : s.vlt.throttled = false) :
    s.batchClose = { s with vlt := { s.vlt with
      flight := s.vlt.flight ++ [s.vlt.batch], batch := [], closeDue := false } } := by
  have hroom : ¬s.vlt.flight.length ≥ 2 := Nat.not_le.mpr hf
  simp only [State.batchClose, List.isEmpty_eq_false_iff.mpr hb, hroom, ht, decide_false, Bool.or_self, Bool.false_eq_true,
    if_false]

/-- R246, R260: two batches in flight, or a vault that is throttled, keep the batch open until there is room (log 71). -/
theorem State.batchClose_of_wait (hb : s.vlt.batch ≠ []) (hw : 2 ≤ s.vlt.flight.length ∨ s.vlt.throttled = true) :
    s.batchClose = { s with vlt := { s.vlt with closeDue := true } } := by
  have hfull : (decide (s.vlt.flight.length ≥ 2) || s.vlt.throttled) = true :=
    Bool.or_eq_true_iff.mpr (hw.imp_left decide_eq_true)
  simp only [State.batchClose, List.isEmpty_eq_false_iff.mpr hb, hfull, Bool.false_eq_true, if_false, if_true]

theorem State.batchClose_of_empty (hb : s.vlt.batch = []) : s.batchClose = s := by
  simp only [State.batchClose, hb, List.isEmpty_nil, if_true]

theorem State.commitSwitch_of_none (hf : s.vlt.flight = []) (b : Bool) : s.commitSwitch b failed = s := by
  simp only [State.commitSwitch, hf]

section Flight

variable (hf : s.vlt.flight = batch :: rest)

include hf

theorem State.commitSwitch_of_readBack : s.commitSwitch true failed =
    (State.finishBatch { s with vlt := { s.vlt with flight := rest, tries := 0 } } failed batch).closeWaiting := by
  simp only [State.commitSwitch, hf, if_true]

/-- R247: the first two times a batch that does not read back is programmed again. -/
theorem State.commitSwitch_of_retry (ht : t = s.spoilBatch batch failed) (hn : t.vlt.tries < 2) :
    s.commitSwitch false failed =
      { t with vlt := { t.vlt with tries := t.vlt.tries + 1, retried := satAdd 16 t.vlt.retried 1 } } := by
  subst ht
  have hmore : ¬(s.spoilBatch batch failed).vlt.tries + 1 ≥ 3 := by omega
  simp only [State.commitSwitch, hf, hmore, Bool.false_eq_true, if_false]

/-- R247: the third time it is given up, and its commits end. -/
theorem State.commitSwitch_of_lastTry (ht : t = s.spoilBatch batch failed) (hn : 2 ≤ t.vlt.tries) :
    s.commitSwitch false failed =
      (batch.foldl (State.failCommit · Status.vaultCommitFailed ·) { t with vlt := { t.vlt with
        flight := rest, tries := 0, failedBatches := satAdd 16 t.vlt.failedBatches 1 } }).closeWaiting := by
  subst ht
  have hlast : (s.spoilBatch batch failed).vlt.tries + 1 ≥ 3 := by omega
  simp only [State.commitSwitch, hf, hlast, Bool.false_eq_true, if_false, if_true]

end Flight

/-- R248: the controller of a vault that is mounted, or about to be, mounts it again without the commits that had not
switched. -/
theorem State.vaultRestart_of_vault (h : s.mounted = true ∨ s.vlt.state = 1)
    (ht : t = (s.failCommits Status.vaultCommitFailed).abortPostings) :
    s.vaultRestart = { t with vlt := { t.vlt with
      state := 1
      failedBatches := satAdd 16 t.vlt.failedBatches ((s.vlt.flight ++ [s.vlt.batch]).countP (fun b => !b.isEmpty)) } } := by
  have hvault : (s.vlt.state == 1 || s.mounted) = true := Bool.or_eq_true_iff.mpr (h.symm.imp_left beq_iff_eq.mpr)
  simp only [State.vaultRestart, hvault, if_true, ht]

theorem State.failed_endOrHold_of_running {r : MsgRec} {f : Final} (h : s.glb.ctrlRestart = false) :
    s.endOrHold r (.failed f) = s.failMsg r (r.withCounts f) :=
  State.endOrHold_of_now (.inl h)

end Batch

/-- Settles O40: each clause is the law of its event, of a read by what it finds, of a batch by its place and its
read-back. -/
theorem vaultReadsAndCommits : Obligations.VaultReadsAndCommits := by
  intro s
  refine ⟨fun h o x hm hw ho hb hr t ht => ?read,
    fun o x => ⟨_, rfl, State.otherRead_of_sound, State.otherRead_of_unsound⟩,
    fun r h => ⟨MsgRec.keyRead_of_last, fun g => MsgRec.keyRead_of_other⟩,
    fun h x hl hy => next_settle_congr (State.vaultReadDone_of_unawaited hl hy),
    fun h o x t u lost hm ho hu hfail => ?unread, fun t r f => State.failed_endOrHold_of_running,
    fun hb hf ht => next_settle_congr (State.batchClose_of_room hb hf ht),
    fun hb hw => next_settle_congr (State.batchClose_of_wait hb hw),
    fun hb => next_settle_congr (State.batchClose_of_empty hb), fun batch rest failed hf => ?switch,
    fun t batch failed => rfl,
    fun b failed hf => next_settle_congr (State.commitSwitch_of_none hf b),
    fun h => ⟨_, _, rfl, rfl, next_settle_congr (State.vaultRestart_of_vault h rfl)⟩⟩
  case read =>
    subst ht
    exact next_settle_congr (State.vaultReadDone_of_read hm ho hw hb hr)
  case unread =>
    subst hfail
    exact ⟨fun r hl hy hr => next_settle_congr (State.vaultReadDone_of_message hm ho hu hl hy hr),
      fun y hl hy => next_settle_congr (State.vaultReadDone_of_operation hm ho hu hl hy)⟩
  case switch =>
    exact ⟨next_settle_congr (State.commitSwitch_of_readBack hf), fun t ht =>
      ⟨fun hn => next_settle_congr (State.commitSwitch_of_retry hf ht hn),
        fun hn => next_settle_congr (State.commitSwitch_of_lastTry hf ht hn)⟩⟩

end Sys2Proof.Machine
end

section
/-! What the digest programs make of a whole message (R170, R174, R180), and the statement O30: the pad states of the key load
stand for the blocks that FIPS 198-1 hashes ahead of each pass (R175). -/

namespace Sys2Proof.Machine

section Pads

variable {h : Hash} {key p : Bytes}

theorem hmacPad_length (v : Byte) : (hmacPad h v key).length = h.block := by
  rw [hmacPad, List.length_map, hmacK0, fit_length]

/-- A pass that starts from the state after one block is the hash of that block and the text. -/
theorem Hash.final_of_block (hp : p.length = h.block) (x : Bytes) :
    h.final (h.absorb (h.step h.init p) [] x).1 (h.absorb (h.step h.init p) [] x).2 (h.block + x.length) 0
      = h.run (p ++ x) 0 := by
  rw [Hash.run, List.length_append, hp, Hash.absorb_pad h p x hp]

theorem outerPass_of_pad (inner : Bytes) :
    outerPass h (h.step h.init (hmacPad h 0x5C key)) inner = hmacOuter h key inner :=
  Hash.final_of_block (hmacPad_length 0x5C) inner

end Pads

/-- The input of a digest message in two: the text that is hashed, and the expected MAC behind it (R180). -/
structure Job.TextThenMac (j : Job) (t e : Bytes) : Prop where
  text  : j.hashed = t.length
  total : j.total = (t ++ e).length

section Whole

variable {k : KeyRegs} {j : Job} {x t e : Bytes}

theorem Job.textThenMac_of_verify (ho : j.op = .hmacVerify) (hn : j.total = (t ++ e).length) (he : e.length = j.macLen) :
    j.TextThenMac t e where
  text := by rw [Job.hashed, ho, beq_self_eq_true, if_pos rfl, hn, ← he, List.length_append, Nat.add_sub_cancel]
  total := hn

theorem Job.textThenMac_of_text (ho : j.op ≠ .hmacVerify) (hn : j.total = x.length) : j.TextThenMac x [] where
  text := by rw [Job.hashed, beq_false_of_ne ho, if_neg Bool.false_ne_true, hn]
  total := by rw [hn, List.append_nil]

theorem Job.TextThenMac.part_text (hj : j.TextThenMac t e) : part (t ++ e) 0 0 j.hashed = t := by
  have h := part_of_middle [] t e
  rwa [List.nil_append, List.length_nil, Nat.zero_add, ← hj.text] at h

/-- The only lap of a message holds the expected MAC. -/
theorem Job.TextThenMac.held (hj : j.TextThenMac t e) : (k.digestIn j Ctx.reset (t ++ e)).held = e := by
  have h := part_of_middle t e []
  rwa [List.append_nil, ← List.length_append, ← hj.total, ← hj.text] at h

/-- The only lap of a message ends the hash of its text, from the state that the lap starts with. -/
theorem Job.TextThenMac.digestInner_eq (hj : j.TextThenMac t e) :
    digestInner j (k.digestIn j Ctx.reset (t ++ e)) =
      j.hash.final (j.hash.absorb (k.digestState j Ctx.reset) [] t).1 (j.hash.absorb (k.digestState j Ctx.reset) [] t).2
        (t.length + (if Op.isHmac j.op then j.hash.block else 0)) (if Op.isShake j.op then j.outLen else 0) := by
  have hin : j.hash.absorb (k.digestState j Ctx.reset) Ctx.reset.buf (part (t ++ e) Ctx.reset.pos 0 j.hashed)
      = j.hash.absorb (k.digestState j Ctx.reset) [] t := congrArg _ hj.part_text
  rw [digestInner, hj.text, KeyRegs.digestIn, hin]

/-- R174: the operations whose key load leaves pad states. -/
theorem Op.isHmac_iff (o : Op) : Op.isHmac o = true ↔ o = .hmacGenerate ∨ o = .hmacVerify := by
  unfold Op.isHmac
  split
  case h_3 hg hv => exact ⟨fun h => absurd h Bool.false_ne_true, fun h => absurd h (not_or.mpr ⟨hg, hv⟩)⟩
  all_goals simp

theorem Op.kind_of_isHmac {o : Op} (hm : Op.isHmac o = true) : o.kind = some 1 := by
  rcases (Op.isHmac_iff o).mp hm with rfl | rfl <;> rfl

theorem Op.isShake_of_isHmac {o : Op} (hm : Op.isHmac o = true) : Op.isShake o = false := by
  rcases (Op.isHmac_iff o).mp hm with rfl | rfl <;> rfl

/-- An unkeyed program gives its function of the whole input; SHAKE squeezes the bytes asked for. -/
theorem digestLap_of_plain (hm : Op.isHmac j.op = false) (hn : j.total = x.length) :
    (digestLap k j Ctx.reset x true).2 = j.hash.run x (if Op.isShake j.op then j.outLen else 0) := by
  have hv : j.op ≠ .hmacVerify := fun h => Bool.false_ne_true (hm.symm.trans (congrArg Op.isHmac h))
  have hstate : k.digestState j Ctx.reset = j.hash.init := by
    rw [KeyRegs.digestState, hm]
    rfl
  have hinner := (Job.textThenMac_of_text hv hn).digestInner_eq (k := k)
  rw [hstate, hm, if_neg Bool.false_ne_true, List.append_nil, Nat.add_zero] at hinner
  rw [digestLap_of_last, KeyRegs.digestOut]
  simp only [hm, beq_false_of_ne hv, hinner, Bool.false_eq_true, Bool.false_and, if_false]
  rfl

section Hmac

variable (hm : Op.isHmac j.op = true)

include hm

theorem Job.load_of_hmac : j.load = { KeyRegs.reset with
    padIn := j.hash.step j.hash.init (hmacPad j.hash 0x36 j.key)
    padOut := j.hash.step j.hash.init (hmacPad j.hash 0x5C j.key) } := by
  rw [Job.load, if_pos (beq_iff_eq.mpr (Op.kind_of_isHmac hm)), if_pos hm]

/-- The pass buffer at the end of a message: the inner hash of FIPS 198-1 over its text. -/
theorem Job.TextThenMac.digestInner_of_hmac (hj : j.TextThenMac t e) :
    digestInner j (j.load.digestIn j Ctx.reset (t ++ e)) = j.hash.run (hmacPad j.hash 0x36 j.key ++ t) 0 := by
  have hstate : j.load.digestState j Ctx.reset = j.hash.step j.hash.init (hmacPad j.hash 0x36 j.key) := by
    rw [KeyRegs.digestState, hm, Job.load_of_hmac hm]
    rfl
  rw [hj.digestInner_eq, hstate, hm, Op.isShake_of_isHmac hm, if_pos rfl, if_neg Bool.false_ne_true, Nat.add_comm,
    Hash.final_of_block (hmacPad_length 0x36)]

theorem Job.TextThenMac.outerPass_eq (hj : j.TextThenMac t e) :
    outerPass j.hash j.load.padOut (digestInner j (j.load.digestIn j Ctx.reset (t ++ e))) = hmac j.hash j.key t := by
  rw [hj.digestInner_of_hmac hm, Job.load_of_hmac hm, outerPass_of_pad, hmac]

end Hmac

/-- R174: HMAC_GENERATE gives the MAC, cut to TAG_LEN with ROUTE 0. -/
theorem digestLap_of_generate (ho : j.op = .hmacGenerate) (hn : j.total = x.length) :
    (digestLap j.load j Ctx.reset x true).2 =
      if j.route == 0 then (hmac j.hash j.key x).take j.macLen else hmac j.hash j.key x := by
  have hm : Op.isHmac j.op = true := (Op.isHmac_iff _).mpr (.inl ho)
  have hv : (j.op == .hmacVerify) = false := by
    rw [ho]
    rfl
  have hvalue := (Job.textThenMac_of_text (ne_of_beq_false hv) hn).outerPass_eq hm
  rw [List.append_nil] at hvalue
  rw [digestLap_of_last, KeyRegs.digestOut]
  simp only [hm, hv, hvalue, Bool.true_and, Bool.false_eq_true, if_true, if_false]

/-- R180: HMAC_VERIFY compares TAG_LEN bytes of the MAC of the text with the MAC behind it, and gives no output. -/
theorem digestLap_of_verify (ho : j.op = .hmacVerify) (hj : j.TextThenMac t e) :
    digestLap j.load j Ctx.reset (t ++ e) true =
      ({ j.load.digestIn j Ctx.reset (t ++ e) with fail := (hmac j.hash j.key t).take j.macLen != e }, []) := by
  have hm : Op.isHmac j.op = true := (Op.isHmac_iff _).mpr (.inr ho)
  have hv : (j.op == .hmacVerify) = true := beq_iff_eq.mpr ho
  rw [digestLap_of_last, KeyRegs.digestOut]
  simp only [hm, hv, hj.outerPass_eq hm, hj.held, if_true]

end Whole

/-- Settles O30: an unkeyed program ends the hash of its input, and an HMAC program from the pad states of its key load the
HMAC of its text. -/
theorem digestResults : Obligations.DigestResults := by
  intro j x hn
  refine ⟨fun hm hs => ?plain, fun hs => ?shake, fun ho hr => ?tag, fun ho hr => ?full, fun t e ho hx he => ?verify⟩
  case plain => rw [digestLap_of_plain hm hn, hs, if_neg Bool.false_ne_true]
  case shake =>
    have hm : Op.isHmac j.op = false :=
      Bool.eq_false_iff.mpr fun hm => Bool.false_ne_true ((Op.isShake_of_isHmac hm).symm.trans hs)
    rw [digestLap_of_plain hm hn, hs, if_pos rfl, Job.outLen]
  case tag => rw [digestLap_of_generate ho hn, if_pos (beq_iff_eq.mpr hr)]
  case full => rw [digestLap_of_generate ho hn, if_neg (by rwa [beq_iff_eq])]
  case verify =>
    subst hx
    rw [digestLap_of_verify ho (Job.textThenMac_of_verify ho hn he)]
    exact ⟨bne_iff_ne, rfl⟩

end Sys2Proof.Machine
end

section
/-! Key management (R193, R226, R283 to R298): the answer of the act of each opcode in the cases its chapter tells apart, the
way from a command to that act, and the statement O55 on both. -/

namespace Sys2Proof.Machine

section Act

variable {s v t : State} {o : Op} {m : Msg} {x : MsgRec} {a : Acted} {f : Final} {l : List Change}

/-- R394: LC_TRANSITION alone goes to the custody pair before its act. -/
theorem State.actNow_of_controlAct (ho : x.op ≠ .lcTransition) (ha : v.controlAct x = a) : v.actNow x = acted x a := by
  rw [State.actNow, if_neg (mt beq_iff_eq.mp ho), ha]

theorem exec_messageRow_of_controlAct (h : s.acting o m = some (v, x)) (ho : o ≠ .lcTransition) (ha : v.controlAct x = a) :
    exec (messageRow o m) s = .next (s.settle (acted x a)) := by
  have hop : x.op = o := (State.acting_op s o m _ h).2
  rw [exec_messageRow_of_message (State.message_of_acting s o m _ (State.op_ne_zrmRecord_of_acting h) h),
    State.actNow_of_controlAct (hop ▸ ho) ha]

theorem exec_of_ends (h : s.acting o m = some (v, x)) (ho : o ≠ .lcTransition)
    (hact : x.op = o → v.controlAct x = a) (ha : a = .ends f t) :
    exec (messageRow o m) s = .next (s.settle (t.endAct x f)) := by
  rw [exec_messageRow_of_controlAct h ho ((hact (State.acting_op s o m _ h).2).trans ha), acted]

theorem exec_of_commits (h : s.acting o m = some (v, x)) (ho : o ≠ .lcTransition)
    (hact : x.op = o → v.controlAct x = a) (ha : a = .commit l f t) :
    exec (messageRow o m) s = .next (s.settle (t.accept (some x.id) l f)) := by
  rw [exec_messageRow_of_controlAct h ho ((hact (State.acting_op s o m _ h).2).trans ha), acted]

theorem State.controlAct_of_keyGenerate (h : x.op = .keyGenerate) : v.controlAct x = keyGenerateAct v x := by
  simp only [State.controlAct, h]

theorem State.controlAct_of_keyUpdate (h : x.op = .keyUpdate) : v.controlAct x = keyUpdateAct v x := by
  simp only [State.controlAct, h]

theorem State.controlAct_of_receiveKeyGet (h : x.op = .receiveKeyGet) : v.controlAct x = receiveKeyGetAct v x := by
  simp only [State.controlAct, h]

theorem State.controlAct_of_keyComponent (h : x.op = .keyComponent) : v.controlAct x = keyComponentAct v x := by
  simp only [State.controlAct, h]

theorem State.controlAct_of_keyExport (h : x.op = .keyExport) : v.controlAct x = keyExportAct v x := by
  simp only [State.controlAct, h]

theorem State.controlAct_of_keyRestore (h : x.op = .keyRestore) : v.controlAct x = keyRestoreAct v x := by
  simp only [State.controlAct, h]

end Act

section Generate

variable {v : State} {x : MsgRec}

/-- R226, R286: a pair waits for its engine, unless its source is unhealthy and no pause holds it back. -/
theorem State.execute_of_makesPair (hp : x.makesPair = true) :
    v.execute x = if v.keyGenFault 259 && !v.holdsBack x then v.randomFails x Status.rngFault else v := by
  have hop : x.op = .keyGenerate := by
    rw [MsgRec.makesPair, Bool.and_eq_true] at hp
    exact beq_iff_eq.mp hp.1
  have hdata : Op.isData .keyGenerate = false := rfl
  have hrun : v.runnable x = false := by
    simp only [State.runnable, MsgRec.onControl, hp, Bool.or_true, Bool.not_true, Bool.and_false, Bool.false_and]
  simp only [State.execute, hop, hdata, hp, hrun, Bool.true_and, Bool.false_eq_true, if_false]

theorem keyGenerateAct_of_secret (h4 : x.attrAlg / 256 ≠ 4) (h2 : x.attrAlg / 256 ≠ 2) :
    keyGenerateAct v x =
      .commit [.create (attrObj x.m.input (x.reserved.getD 0) x.random false 1 v.seconds)] (Final.good []) v := by
  simp only [keyGenerateAct, beq_eq_false_iff_ne.mpr h4, beq_eq_false_iff_ne.mpr h2, Bool.false_eq_true, if_false]

/-- R286: the draws of a TDEA key go on until its parts differ. -/
theorem keyGenerateAct_of_tdea (h2 : x.attrAlg / 256 = 2) :
    keyGenerateAct v x = .commit [.create (attrObj x.m.input (x.reserved.getD 0)
        (redrawF x.random.length 64 v x.random).1 false 1 v.seconds)] (Final.good [])
      (redrawF x.random.length 64 v x.random).2 := by
  have h4 : (x.attrAlg / 256 == 4) = false := by rw [h2]; rfl
  simp only [keyGenerateAct, h4, beq_iff_eq.mpr h2, Bool.false_eq_true, if_false, if_true]

end Generate

section Update

variable {v w : State} {x : MsgRec} {o : Obj}

/-- The state in which a Key Update Message begins its commit: the counter of the domain is that of the message (R292). -/
def State.kumCounted (w : State) (d : Nat) (b : Bytes) : State :=
  { (w.prfWrite (prfKum d)).2 with prf := { (w.prfWrite (prfKum d)).2.prf with
      kumCounters := assign (w.prfWrite (prfKum d)).2.prf.kumCounters d (leAt b 8 8) } }

/-- R289: a change of attributes alone carries no material. -/
theorem keyUpdateAct_eq (hw : w = v.mendAuth (v.dom' x))
    (ho : o = attrObj (slice x.m.input 80 72) (leAt x.m.input 64 5)
      (if byteAt x.m.input 7 = 3 then [] else (w.kumMaterial (v.dom' x) x.m.input).getD []) (w.kumPair x.m.input) 2
      w.seconds) :
    keyUpdateAct v x = .commit [if byteAt x.m.input 7 = 1 then .create o else .replace o (leAt x.m.input 72 4)]
      (Final.good []) (w.kumCounted (v.dom' x) x.m.input) := by
  subst hw ho
  simp only [keyUpdateAct, beq_iff_eq, State.kumCounted]

end Update

section Component

variable {v : State} {x : MsgRec} {c : CompSession} {key : Bytes}

/-- R296: part 1 opens the session, in the place of any that is open. -/
theorem keyComponentAct_of_first (h1 : x.m.field 44 1 = 1) :
    keyComponentAct v x = .ends (Final.good (zeros 5 ++ checkValue (BitVec.ofNat 16 x.attrAlg) (x.m.input.drop 72) []))
      (v.modInst x.inst (fun i => { i with
        compSession := some { object := x.m.field 40 4, parts := x.m.field 45 1, attr := x.m.input.take 72
                              comps := [x.m.input.drop 72], until_ := v.opTime + 120000 } })) :=
  if_pos (beq_iff_eq.mpr h1)

theorem keyComponentAct_of_middle (h1 : x.m.field 44 1 ≠ 1) (hc : v.sessionFor x = some c) (hn : x.m.field 44 1 ≠ c.parts) :
    keyComponentAct v x = .ends (Final.good (zeros 5 ++ checkValue (BitVec.ofNat 16 (leAt c.attr 0 2)) x.m.input []))
      (v.modInst x.inst (fun i => { i with compSession := some { c with comps := c.comps ++ [x.m.input] } })) := by
  simp only [keyComponentAct, beq_eq_false_iff_ne.mpr h1, hc, bne_iff_ne.mpr hn, Bool.false_eq_true, if_false, if_true]

/-- R295, R296: the final part ends the session, and the key that the components make passes two checks before it is
created. -/
theorem keyComponentAct_of_final (h1 : x.m.field 44 1 ≠ 1) (hc : v.sessionFor x = some c) (hn : x.m.field 44 1 = c.parts)
    (hk : key = (c.comps ++ [x.m.input]).foldl xorB (zeros ((fixedLen (leAt c.attr 0 2)).getD 0))) :
    keyComponentAct v x =
      if leAt c.attr 0 2 / 256 = 2 ∧ tdeaDistinct key = false then
        .ends (Final.plain Status.keyAlgorithm) (v.endSession x.inst)
      else if checkValue (BitVec.ofNat 16 (leAt c.attr 0 2)) key [] ≠ attrKcv c.attr then
        .ends (Final.plain Status.keyCheckMismatch) (v.endSession x.inst)
      else .commit [.create (attrObj c.attr (x.reserved.getD 0) key false 4 v.seconds)] (Final.good [])
        (v.endSession x.inst) := by
  simp only [keyComponentAct, beq_eq_false_iff_ne.mpr h1, hc, bne_eq_false_iff_eq.mpr hn, ← hk, bne_iff_ne,
    Bool.and_eq_true, beq_iff_eq, Bool.not_eq_true', Bool.false_eq_true, if_false]

end Component

section Backup

variable {v : State} {x : MsgRec} {k : Obj} {l : List Obj} {st : BitVec 16}

/-- The header of an export, which its tag covers: the range and how many of its objects leave, the identity, and the
encapsulation to the key of the backup (R297). -/
def exportHead (v : State) (x : MsgRec) (k : Obj) : Bytes :=
  let d := v.dom' x
  let first := exportFirst x.m
  let count := exportCount x.m
  let l := v.exportable d first count
  [0x4B, 0x42, 0x45, 0x31] ++ leBytes 2 d ++ zeros 2 ++ leBytes 4 first ++ leBytes 4 count
    ++ leBytes 4 l.length ++ leBytes 4 (count - l.length) ++ leBytes 8 v.seconds ++ v.identDigest ++ k.check ++ zeros 5
    ++ leBytes 8 ((l.flatMap exportEntry).length + 16) ++ v.idMldsa.1 ++ v.idPoint
    ++ (kemEncaps mlkem1024 k.publicKey (slice x.random 12 32)).1 ++ x.random.take 12

/-- The entries of an export sealed under its header: their ciphertext, and the tag. -/
def exportSeal (v : State) (x : MsgRec) (k : Obj) : Bytes × Bytes :=
  gcmSeal (bodyKey (kemEncaps mlkem1024 k.publicKey (slice x.random 12 32)).2 (exportFirst x.m) (exportCount x.m) v.seconds)
    (x.random.take 12) (exportHead v x k)
    ((v.exportable (v.dom' x) (exportFirst x.m) (exportCount x.m)).flatMap exportEntry)

/-- The body of an export: the ciphertext of its entries, then their tag. -/
def exportBody (v : State) (x : MsgRec) (k : Obj) : Bytes := (exportSeal v x k).1 ++ (exportSeal v x k).2

theorem keyExportAct_of_sound (hk : v.readObj x.m.keyB = .inr k)
    (hb : (v.exportable (v.dom' x) (exportFirst x.m) (exportCount x.m)).any (fun o => v.vlt.badHandles.contains o.handle)
      = false) :
    keyExportAct v x = .ends (Final.good (exportHead v x k ++ exportBody v x k
      ++ v.idSign (exportHead v x k ++ exportBody v x k) (x.random.drop 44))) v := by
  have hall : exportHead v x k ++ exportBody v x k = exportHead v x k ++ (exportSeal v x k).1 ++ (exportSeal v x k).2 :=
    (List.append_assoc ..).symm
  rw [hall]
  simp only [keyExportAct, hk, hb, Bool.false_eq_true, if_false]
  rfl

theorem MsgRec.withCounts_of_restore (ho : x.op = .keyRestore) (f : Final) :
    x.withCounts f = { f with output := restoreCounts x } := if_pos (beq_iff_eq.mpr ho)

theorem keyRestoreAct_of_unread (hk : v.readObj x.m.keyA = .inr k) (he : restoreEntries (v.dom' x) k x.m.input = .inl st) :
    keyRestoreAct v x = .ends (x.withCounts (Final.plain st)) v := by
  simp only [keyRestoreAct, hk, he]

theorem keyRestoreAct_of_entries (hk : v.readObj x.m.keyA = .inr k) (he : restoreEntries (v.dom' x) k x.m.input = .inr l) :
    keyRestoreAct v x = restoreNext v x l := by
  simp only [keyRestoreAct, hk, he]

theorem restoreNext_of_done (h : l.drop x.done_ = []) : restoreNext v x l = .ends (x.withCounts (Final.good [])) v :=
  if_pos (List.isEmpty_iff.mpr h)

/-- The entries of the next batch of a restore that are committed: those whose number is free, and those that stand in for an
object lost with its page (R250, R298). -/
def restoreBatch (v : State) (x : MsgRec) (l : List Obj) : List Obj :=
  ((l.drop x.done_).take 32).filter (fun o => !v.numberTaken o.handle || (v.vlt.badHandles.contains o.handle && !o.internal))

/-- R298: a batch is committed, its numbers being reserved until then. -/
theorem restoreNext_of_more (h : l.drop x.done_ ≠ []) :
    ∃ t : State, restoreNext v x l = .commit ((restoreBatch v x l).map .create) (Final.good []) t
      ∧ t.vlt.reserved = v.vlt.reserved ++ (restoreBatch v x l).map (·.handle) :=
  ⟨_, if_neg (mt List.isEmpty_iff.mp h), rfl⟩

end Backup

/-- Settles O55: the row of a message carries out what its act answers, and each clause is a case of that answer. -/
theorem keyManagement : Obligations.KeyManagement := by
  intro s v m x
  refine ⟨?pair, fun h h4 h2 => exec_of_commits h nofun State.controlAct_of_keyGenerate (keyGenerateAct_of_secret h4 h2),
    fun h h2 => exec_of_commits h nofun State.controlAct_of_keyGenerate (keyGenerateAct_of_tdea h2), ?update,
    fun ho => State.actNow_of_controlAct (ho ▸ nofun) (State.controlAct_of_receiveKeyGet ho),
    fun h => exec_of_ends h nofun State.controlAct_of_receiveKeyGet rfl,
    fun h h1 => exec_of_ends h nofun State.controlAct_of_keyComponent (keyComponentAct_of_first h1), ?parts,
    ?backup, ?unread, ?entries⟩
  case pair =>
    intro h hp
    have hrow := exec_messageRow_of_admitted h
    rw [State.execute_of_makesPair hp] at hrow
    constructor
    · intro hf hh
      rwa [hf, hh] at hrow
    · rintro (hf | hh)
      · rwa [hf] at hrow
      · rwa [hh, Bool.not_true, Bool.and_false] at hrow
  case update =>
    intro h
    exact ⟨_, _, _, rfl, exec_of_commits h nofun State.controlAct_of_keyUpdate (keyUpdateAct_eq rfl rfl), rfl, rfl⟩
  case parts =>
    intro c h h1 hc
    refine ⟨fun hn => exec_of_ends h nofun State.controlAct_of_keyComponent (keyComponentAct_of_middle h1 hc hn),
      fun key hn hk => ?_⟩
    have final := keyComponentAct_of_final h1 hc hn hk
    refine ⟨fun h2 hd => exec_of_ends h nofun State.controlAct_of_keyComponent (final.trans (if_pos ⟨h2, hd⟩)),
      fun hd => ?_⟩
    have hkey : ¬(leAt c.attr 0 2 / 256 = 2 ∧ tdeaDistinct key = false) := fun ⟨h2, hf⟩ =>
      hd.elim (fun hn2 => hn2 h2) fun ht => Bool.false_ne_true (hf.symm.trans ht)
    rw [if_neg hkey] at final
    exact ⟨fun hv => exec_of_ends h nofun State.controlAct_of_keyComponent (final.trans (if_pos hv)),
      fun hv => exec_of_commits h nofun State.controlAct_of_keyComponent (final.trans (if_neg (not_not_intro hv)))⟩
  case backup =>
    intro k h hk hb
    exact ⟨exportHead v x k, exportBody v x k,
      exec_of_ends h nofun State.controlAct_of_keyExport (keyExportAct_of_sound hk hb), rfl⟩
  case unread =>
    intro k st h hk he
    rw [← MsgRec.withCounts_of_restore (State.acting_op s .keyRestore m _ h).2]
    exact exec_of_ends h nofun State.controlAct_of_keyRestore (keyRestoreAct_of_unread hk he)
  case entries =>
    intro k l h hk he
    have next := keyRestoreAct_of_entries hk he
    refine ⟨fun hd => ?_, fun hd => ?_⟩
    · rw [← MsgRec.withCounts_of_restore (State.acting_op s .keyRestore m _ h).2]
      exact exec_of_ends h nofun State.controlAct_of_keyRestore (next.trans (restoreNext_of_done hd))
    · obtain ⟨t, hnext, hres⟩ := restoreNext_of_more (v := v) hd
      exact ⟨t, restoreBatch v x l, rfl, exec_of_commits h nofun State.controlAct_of_keyRestore (next.trans hnext), hres⟩

end Sys2Proof.Machine
end

section
/-! The rows of the random source (R213, R216 to R222, R224, R225): what a window of the noise cells does in each phase, the
restart of the oscillators, whom a conditioned block serves, reseeds that fall due and refills, and the statement O38. -/

namespace Sys2Proof.Machine

/-- A window of the cells is noted, and the known-answer tests are behind it. -/
def State.noteWindow (s : State) (cells : List (Nat × Nat)) : State :=
  { s with rng := { s.rng.window cells with kat := true } }

@[simp] theorem Rng.window_retries (r : Rng) (cells : List (Nat × Nat)) : (r.window cells).retries = r.retries := rfl

section Window

variable {s : State} {cells : List (Nat × Nat)} {kat : Bool}

/-- R216, R224: a source that is off has no windows, and one that the restart cuts short is not evaluated. -/
theorem State.noiseWindow_of_unevaluated (h : s.rng.phase = 0 ∨ s.rng.stopped = true) : s.noiseWindow cells kat = s :=
  if_pos (Bool.or_eq_true_iff.mpr (h.imp_left beq_iff_eq.mpr))

section Evaluated

variable (hs : s.rng.stopped = false)

include hs

/-- R222, R225: a known-answer test that fails at the start fails the source, whatever the window shows. -/
theorem State.noiseWindow_of_failedKat (hp : s.rng.phase = 1) (hk : s.rng.kat = false) :
    s.noiseWindow cells false = s.sourceFailed := by
  simp only [State.noiseWindow, hp, hs, hk, Nat.reduceBEq, Bool.or_self, Bool.not_false, Bool.and_self, Bool.false_eq_true,
    if_false, if_true]

/-- R222: a good window at the start is followed by the seeding. -/
theorem State.noiseWindow_of_starting (hp : s.rng.phase = 1) : s.noiseWindow cells true =
    if cellMask cells ≠ 0 then (s.noteWindow cells).healthFailure
    else { s with rng := { s.rng.window cells with kat := true, phase := 2, testing := false } } := by
  simp only [State.noiseWindow, State.noteWindow, hp, hs, Nat.reduceBEq, Bool.or_self, Bool.not_true, Bool.and_false,
    Bool.false_eq_true, if_false, bne_iff_ne]

/-- R216: a source that seeds or is healthy goes on after a good window. -/
theorem State.noiseWindow_of_producing (hp : s.rng.phase = 2 ∨ s.rng.phase = 3) : s.noiseWindow cells true =
    if cellMask cells ≠ 0 then (s.noteWindow cells).healthFailure else s.noteWindow cells := by
  obtain hp | hp := hp <;>
    simp only [State.noiseWindow, State.noteWindow, hp, hs, Nat.reduceBEq, Bool.or_self, Bool.false_and, Bool.false_eq_true,
      if_false, bne_iff_ne]

/-- R224: a window that fails before a retest is a health-test failure. -/
theorem State.noiseWindow_of_failure (hp : s.rng.phase = 1 ∨ s.rng.phase = 2 ∨ s.rng.phase = 3)
    (hc : cellMask cells ≠ 0) : s.noiseWindow cells true = (s.noteWindow cells).healthFailure := by
  obtain hp | hp := hp
  · exact (State.noiseWindow_of_starting hs hp).trans (if_pos hc)
  · exact (State.noiseWindow_of_producing hs hp).trans (if_pos hc)

/-- R225: the first and the second failed retest return to the restart of the oscillators. -/
theorem State.noiseWindow_of_failedRetest (hp : s.rng.phase = 4) (hc : cellMask cells ≠ 0) (hr : s.rng.retries < 2) :
    s.noiseWindow cells true = { s with rng := { s.rng.window cells with
      kat := true, retries := s.rng.retries + 1, stopped := true, testing := false } } := by
  have hthird : ¬ 3 ≤ s.rng.retries + 1 := by omega
  have hbad : (cellMask cells != 0) = true := bne_iff_ne.mpr hc
  simp only [State.noiseWindow, hp, hs, hbad, hthird, Rng.window_retries, Nat.reduceBEq, Bool.or_self, Bool.false_and,
    Bool.not_true, Bool.false_eq_true, if_false]

end Evaluated

end Window

section Supply

variable {s : State} {raw : Bytes} {g : Nat}

theorem State.oscillatorRestart_of_stopped (hp : s.rng.phase = 4) (hs : s.rng.stopped = true) :
    s.oscillatorRestart = { s with rng := { s.rng with
      stopped := false, testing := true, restarts := satAdd 16 s.rng.restarts 1 } } :=
  if_pos (Bool.and_eq_true_iff.mpr ⟨beq_iff_eq.mpr hp, hs⟩)

theorem State.oscillatorRestart_of_other (h : s.rng.phase ≠ 4 ∨ s.rng.stopped = false) : s.oscillatorRestart = s :=
  if_neg (ne_true_of_eq_false (Bool.and_eq_false_iff.mpr (h.imp_left beq_false_of_ne)))

/-- R217, R220: a block that no request waits for seeds the next generator. -/
theorem State.takeBlock_of_noRequest (hg : s.nextGen = some g) (hr : s.blockRequest g = none) :
    s.takeBlock raw = ((s.seedGen g (sha256 raw) []).rngSettle, .none) := by
  simp only [State.takeBlock, hg, hr]

theorem State.conditioned_of_producing (hm : s.mayseed = true) (hs : s.rng.stopped = false)
    (hp : s.rng.phase = 2 ∨ s.rng.phase = 3) (hg : s.nextGen = some g) (hr : s.blockRequest g = none) :
    s.conditioned raw = (s.seedGen g (sha256 raw) []).rngSettle := by
  have hphase : (s.rng.phase == 2 || s.rng.phase == 3) = true :=
    Bool.or_eq_true_iff.mpr (hp.imp beq_iff_eq.mpr beq_iff_eq.mpr)
  simp only [State.conditioned, hm, hs, hphase, Bool.not_true, Bool.or_self, Bool.false_eq_true, if_false,
    State.takeBlock_of_noRequest hg hr]

/-- R224: no block comes of a source that is stopped, and none is taken before a scrub is complete. -/
theorem State.conditioned_of_barred (h : s.mayseed = false ∨ s.rng.stopped = true) : s.conditioned raw = s := by
  obtain h | h := h <;> simp only [State.conditioned, h, Bool.not_false, Bool.true_or, Bool.or_true, if_true]

end Supply

section Generator

variable {s : State} {g : Nat}

/-- R219: the calls made decide alone once there are 65,536, and before that the time since the seed. -/
theorem State.reseedDue_of_seeded (hg : (s.rng.getGen g).seeded = true) (hb : (s.rng.getGen g).background = false) :
    s.reseedDue g = if 65536 ≤ (s.rng.getGen g).calls then s.modGen g (fun x => { x with background := true })
      else (s.modGen g (fun x => { x with background := true })).advance ((s.rng.getGen g).since + 60000) := by
  simp only [State.reseedDue, hg, hb, Bool.not_false, Bool.and_self, if_true, ge_iff_le]

theorem State.queueRefill_of_low (hg : (s.rng.getGen g).seeded = true) (hq : (s.rng.getGen g).queue.length < 3072) :
    s.queueRefill g = (s.refillGen g).rngSettle :=
  if_pos (Bool.and_eq_true_iff.mpr ⟨hg, decide_eq_true hq⟩)

theorem State.queueRefill_of_other (h : (s.rng.getGen g).seeded = false ∨ 3072 ≤ (s.rng.getGen g).queue.length) :
    s.queueRefill g = s :=
  if_neg (ne_true_of_eq_false (Bool.and_eq_false_iff.mpr (h.imp_right fun hq => decide_eq_false (Nat.not_lt.mpr hq))))

end Generator

/-- Settles O38: each clause is the law of its event, of a window by the phase and what it shows, of a reseed by the calls
made, of a refill by the queue. -/
theorem randomSource : Obligations.RandomSource := by
  intro s
  refine ⟨fun _ _ h => next_settle_congr (State.noiseWindow_of_unevaluated h),
    fun _ hp hs hk => next_settle_congr (State.noiseWindow_of_failedKat hs hp hk),
    fun _ hp hs hc => next_settle_congr ((State.noiseWindow_of_starting hs hp).trans (if_neg (not_not_intro hc))),
    fun _ hp hs hc => next_settle_congr ((State.noiseWindow_of_producing hs hp).trans (if_neg (not_not_intro hc))),
    fun _ hp hs hc => next_settle_congr (State.noiseWindow_of_failure hs hp hc),
    fun _ hp hs hc hr => next_settle_congr (State.noiseWindow_of_failedRetest hs hp hc hr),
    fun hp hs => next_settle_congr (State.oscillatorRestart_of_stopped hp hs),
    fun h => next_settle_congr (State.oscillatorRestart_of_other h),
    fun _ _ hm hs hp hg hr => next_settle_congr (State.conditioned_of_producing hm hs hp hg hr),
    fun _ h => next_settle_congr (State.conditioned_of_barred h), ?reseed,
    fun _ hg hq => next_settle_congr (State.queueRefill_of_low hg hq),
    fun _ h => next_settle_congr (State.queueRefill_of_other h)⟩
  case reseed =>
    intro g hg hb
    have hdue := State.reseedDue_of_seeded hg hb
    exact ⟨fun hc => next_settle_congr (hdue.trans (if_pos hc)),
      fun hc => next_settle_congr (hdue.trans (if_neg (Nat.not_le.mpr hc)))⟩

end Sys2Proof.Machine
end

section
/-! The vault controller's rows for mounts, collection and QDR (R243, R244, R251 to R261): what a mount finds, the pass of a
collection, the erasure of superseded images, an error of a QDR block by its region, and the statement O41 on them. -/

namespace Sys2Proof.Machine

section Mount

variable {s : State} {r : RootRec} {x : MountRead}

/-- The root record with which a mount goes on stands in BBRAM: that of a PRF checkpoint is written there (R259). -/
def State.takeRoot (s : State) (r : RootRec) : State :=
  if s.isl.rootSlots.isEmpty then { s with isl := { s.isl with rootSlots := [r] } } else s

/-- R257, R258: the tests of a mount in their order, each with its cause. -/
theorem State.vaultMount_of_root (hv : s.vlt.state = 1) (hr : s.mountRoot (s.isl.envelope.getD []) = some r) :
    s.vaultMount x =
      if x.root = .unreadable then s.mountFails 6
      else if s.rootOk (s.isl.envelope.getD []) r x.root = false then s.mountFails 4
      else if s.nodesOk x.nodes = false then s.mountFails 6
      else if s.recordsOk (s.isl.envelope.getD []) r x.records = false then s.mountFails 5
      else (s.takeRoot r).mountDone (s.takeRoot r).vlt.log.length := by
  simp only [State.vaultMount, bne_eq_false_iff_eq.mpr hv, hr, State.takeRoot, Bool.false_eq_true, if_false, beq_iff_eq,
    Bool.not_eq_true']

theorem State.vaultMount_of_noRoot (hv : s.vlt.state = 1) (hr : s.mountRoot (s.isl.envelope.getD []) = none) :
    s.vaultMount x = s.mountFails 7 := by
  simp only [State.vaultMount, bne_eq_false_iff_eq.mpr hv, hr, Bool.false_eq_true, if_false]

theorem State.vaultMount_of_other (hv : s.vlt.state ≠ 1) : s.vaultMount x = s :=
  if_pos (bne_iff_ne.mpr hv)

/-- The step that follows the tests of a mount (R257, R258). -/
theorem State.vaultMount_of_sound (hv : s.vlt.state = 1) (hr : s.mountRoot (s.isl.envelope.getD []) = some r)
    (hread : x.root ≠ .unreadable) (hroot : s.rootOk (s.isl.envelope.getD []) r x.root = true)
    (hnodes : s.nodesOk x.nodes = true) (hrecs : s.recordsOk (s.isl.envelope.getD []) r x.records = true) :
    s.vaultMount x = (s.takeRoot r).mountDone (s.takeRoot r).vlt.log.length := by
  rw [State.vaultMount_of_root hv hr, if_neg hread, if_neg (ne_false_of_eq_true hroot),
    if_neg (ne_false_of_eq_true hnodes), if_neg (ne_false_of_eq_true hrecs)]

theorem State.takeRoot_of_held (h : s.isl.rootSlots.isEmpty = false) : s.takeRoot r = s :=
  if_neg (ne_true_of_eq_false h)

theorem State.takeRoot_of_empty (h : s.isl.rootSlots.isEmpty = true) :
    s.takeRoot r = { s with isl := { s.isl with rootSlots := [r] } } := if_pos h

/-- R259: the PRF checkpoint stands in at the exit from DIAPAUSE alone. -/
theorem State.mountRoot_of_noExit (h : s.vlt.diaExit = false) (env : Bytes) : s.mountRoot env = s.bbramRoot := by
  rw [State.mountRoot, h, if_neg Bool.false_ne_true, Option.orElse_eq_orElse, Option.orElse_eq_or, Option.or_none]

/-- R251: a vault that nothing has made read-only mounts for writing, with the commit records that it has rolled forward. -/
theorem State.mountDone_of_writable (hf : s.vlt.fresh = false) (hro : s.vlt.roCause = 0) (he : s.endurance = 0) (n : Nat) :
    s.mountDone n = { s with vlt := { s.vlt with
      state := 2, mountCause := 0, rolled := min n 4095, cache := [], diaExit := false
      sealed := max s.vlt.sealed s.vlt.seq } } := by
  simp only [State.mountDone, hf, hro, he, Bool.false_eq_true, if_false, bne_self_eq_false, beq_self_eq_true, if_true,
    List.foldl_nil]

end Mount

section Collection

variable {s t : State} {l : List Nat}

theorem State.garbageCollection_of_unmounted (hm : s.mounted = false) : s.garbageCollection l = s := by
  simp only [State.garbageCollection, hm, Bool.not_false, if_true]

/-- R260: a pass closes the open batch when commits wait for space. -/
theorem State.garbageCollection_of_mounted (hm : s.mounted = true) (ht : t = (s.reclaim s.vlt.passBlocks l).checkEndurance) :
    s.garbageCollection l = if t.vlt.closeDue = true ∨ t.vlt.throttled = true then t.forceClose else t := by
  simp only [State.garbageCollection, hm, ← ht, Bool.not_true, Bool.false_eq_true, if_false, Bool.or_eq_true]

theorem exec_garbageCollection_of_unmounted (hm : s.mounted = false) :
    exec (.garbageCollection l) s = .next (s.settle s) :=
  next_settle_congr (ite_eq_right_iff.mpr fun _ => State.garbageCollection_of_unmounted hm)

end Collection

section Booted

variable {s t : State} (hb : s.pwr.booted = true)

include hb

theorem exec_garbageCollection_of_booted {l : List Nat} (h : s.garbageCollection l = t) :
    exec (.garbageCollection l) s = .next (s.settle t) := next_settle_congr ((if_pos hb).trans h)

theorem exec_supersededErase_of_booted (n : Nat) :
    exec (.supersededErase n) s = .next (s.settle (s.reclaim (s.vlt.deadBlocks.take n) []).checkEndurance) :=
  next_settle_congr (if_pos hb)

theorem exec_qdrError_of_booted {g : QdrRegion} {flips : List (Fin 576)} (h : s.qdrError g flips = t) :
    exec (.qdrError { region := g, flips := flips }) s = .next (s.settle t) := next_settle_congr ((if_pos hb).trans h)

end Booted

section Qdr

variable {s t : State} {g : QdrRegion} {flips : List (Fin 576)} {i : Nat}

/-- R254: the times of the uncorrectable errors of the second that ends now. -/
def State.qdrRecent (s : State) : List Nat := s.vlt.qdrTimes.filter (fun t => s.opTime < t + 1000)

/-- R254: an uncorrectable error is counted, and its time noted. -/
def State.noteQdrLoss (s : State) : State :=
  { s with vlt := { s.vlt with qdrUncorr := satAdd 16 s.vlt.qdrUncorr 1, qdrTimes := s.qdrRecent ++ [s.opTime] } }

/-- R252: one flipped bit is corrected and counted. -/
theorem State.qdrError_of_correctable (h : correctable flips = true) :
    s.qdrError g flips = { s with vlt := { s.vlt with qdrCorr := satAdd 16 s.vlt.qdrCorr 1 }
                                  hlt := { s.hlt with qdrNow := s.hlt.qdrNow + 1 } } := if_pos h

/-- R254: with at most 16 errors within a second, QDR itself goes on, and the region loses what it held. -/
theorem State.qdrError_of_uncorrectable (h : correctable flips = false) (hn : s.qdrRecent.length < 16) :
    s.qdrError g flips = s.noteQdrLoss.qdrRegion g := by
  have hfew : ¬(s.qdrRecent ++ [s.opTime]).length > 16 := by
    rw [List.length_append, List.length_singleton]
    omega
  refine (if_neg (ne_true_of_eq_false h)).trans (if_neg ?_)
  rw [Bool.and_eq_true, decide_eq_true_iff]
  exact fun hmany => hfew hmany.1

theorem State.qdrRegion_of_building (h : (t.sch.templates[i]?).any (·.building) = true) : t.qdrRegion (.template i) = t :=
  if_pos h

theorem State.qdrRegion_of_built (h : (t.sch.templates[i]?).any (·.building) = false) :
    t.qdrRegion (.template i) = { t with sch := { t.sch with templates := t.sch.templates.eraseIdx i } } :=
  if_neg (ne_true_of_eq_false h)

theorem State.qdrRegion_of_message {id : Nat} {r : MsgRec} (h : t.findMsg id = some r) :
    t.qdrRegion (.message id) = t.loseMsg r := by
  simp only [State.qdrRegion, h]

end Qdr

/-- Settles O41: a mount goes through its tests in their order, a collection pass closes the batch that waits for it, and an
error of QDR falls to its region. -/
theorem vaultMountAndQdr : Obligations.VaultMountAndQdr := by
  intro s env henv
  subst henv
  refine ⟨?mount, fun x hv hr => next_settle_congr (State.vaultMount_of_noRoot hv hr),
    fun h => State.mountRoot_of_noExit h _, fun x hv => next_settle_congr (State.vaultMount_of_other hv), ?done, ?collect,
    fun l hm => exec_garbageCollection_of_unmounted hm, fun n hb => exec_supersededErase_of_booted hb n,
    fun g flips hb h => exec_qdrError_of_booted hb (State.qdrError_of_correctable h), ?lost, rfl⟩
  case mount =>
    intro r x hv hr
    have tests := State.vaultMount_of_root (x := x) hv hr
    refine ⟨fun h => next_settle_congr (tests.trans (if_pos h)), fun hread hroot => ?_, fun hread hroot hnodes => ?_,
      fun hread hroot hnodes hrecs => ?_, fun hread hroot hnodes hrecs => ?_⟩
    · rw [if_neg hread, if_pos hroot] at tests
      exact next_settle_congr tests
    · rw [if_neg hread, if_neg (ne_false_of_eq_true hroot), if_pos hnodes] at tests
      exact next_settle_congr tests
    · rw [if_neg hread, if_neg (ne_false_of_eq_true hroot), if_neg (ne_false_of_eq_true hnodes), if_pos hrecs] at tests
      exact next_settle_congr tests
    · have sound := State.vaultMount_of_sound hv hr hread hroot hnodes hrecs
      constructor <;> intro hslots
      · rw [State.takeRoot_of_held hslots] at sound
        exact next_settle_congr sound
      · rw [State.takeRoot_of_empty hslots] at sound
        exact next_settle_congr sound
  case done =>
    intro n hf hro he
    rw [State.mountDone_of_writable hf hro he]
    exact ⟨rfl, rfl⟩
  case collect =>
    intro l hb hm
    have pass := State.garbageCollection_of_mounted (l := l) hm rfl
    exact ⟨_, rfl, fun hwait => exec_garbageCollection_of_booted hb (pass.trans (if_pos hwait)), fun hc ht =>
      exec_garbageCollection_of_booted hb (pass.trans (if_neg (not_or.mpr
        ⟨ne_true_of_eq_false hc, ne_true_of_eq_false ht⟩)))⟩
  case lost =>
    intro flips hb h hn t ht
    obtain rfl : t = s.noteQdrLoss := ht
    have row {g u} (hu : s.noteQdrLoss.qdrRegion g = u) :
        exec (.qdrError { region := g, flips := flips }) s = .next (s.settle u) :=
      exec_qdrError_of_booted hb ((State.qdrError_of_uncorrectable h hn).trans hu)
    exact ⟨fun l i => row rfl, fun k => row rfl, row rfl, fun i hi => row (State.qdrRegion_of_built hi),
      fun i hi => row (State.qdrRegion_of_building hi), fun d c => row rfl,
      fun id r hr => row (State.qdrRegion_of_message hr)⟩

end Sys2Proof.Machine
end

section
/-! The reading opcodes and the opcodes that end in a commit (R265 to R268, R287, R302, R317 to R323, R365, R455, R460): the
way from a command to an act that the opcode alone selects, the acts that tell cases apart, and the statements O53 and O54. -/

namespace Sys2Proof.Machine

section Act

variable {s v t : State} {o : Op} {m : Msg} {x : MsgRec} {a : Acted} {f : Final} {l : List Change}

/-- The opcode of a message selects its act. -/
theorem State.controlAct_of_op (h : x.op = o) (ha : v.controlAct { x with op := o } = a) : v.controlAct x = a := by
  subst h
  exact ha

theorem exec_of_opEnds (h : s.acting o m = some (v, x)) (ho : o ≠ .lcTransition)
    (ha : v.controlAct { x with op := o } = .ends f t) : exec (messageRow o m) s = .next (s.settle (t.endAct x f)) :=
  exec_of_ends h ho (State.controlAct_of_op · ha) rfl

theorem exec_of_opCommits (h : s.acting o m = some (v, x)) (ho : o ≠ .lcTransition)
    (ha : v.controlAct { x with op := o } = .commit l f t) :
    exec (messageRow o m) s = .next (s.settle (t.accept (some x.id) l f)) :=
  exec_of_commits h ho (State.controlAct_of_op · ha) rfl

end Act

section Readers

variable {v u : State} {x r y : MsgRec} {o : Obj} {h : Nat}

theorem objectInfoAct_of_found (hr : v.readObj x.m.keyA = .inr o) : objectInfoAct v x = .ends (Final.good o.info) v := by
  simp only [objectInfoAct, hr]

theorem publicKeyGetAct_of_found (hr : v.readObj x.m.keyA = .inr o) :
    publicKeyGetAct v x = .ends (Final.good o.publicKey) v := by
  simp only [publicKeyGetAct, hr]

theorem labelLookupAct_of_known (hl : v.lookupLabel (v.dom' x) x.m.input = some h) :
    labelLookupAct v x = .ends (Final.good (leBytes 5 h ++ ((v.findObj h).map Obj.check).getD (zeros 3))) v := by
  simp only [labelLookupAct, hl]

/-- R453: a read that begins is found with the batches that are held then. -/
theorem State.findMsg_beginRead_of_unread (ho : r.op = .recorderRead) (hn : r.read = none) (hf : u.findMsg r.id = some r) :
    (u.beginRead r).findMsg r.id = some { r with read := some (u.recorderTake r.m) } := by
  have hbegins : (r.op == .recorderRead && r.read.isNone) = true := by
    rw [ho, hn]
    rfl
  rw [State.beginRead, if_pos hbegins]
  exact State.findMsg_modMsg u r.id _ r (fun _ => rfl) hf

end Readers

/-- Settles O53: each reader is selected by its opcode, and its act ends with what it reads. -/
theorem readersAnswer : Obligations.ReadersAnswer := by
  intro s v m x
  refine ⟨fun o h hr => exec_of_opEnds h nofun (objectInfoAct_of_found hr),
    fun o h hr => exec_of_opEnds h nofun (publicKeyGetAct_of_found hr), fun h => exec_of_opEnds h nofun rfl,
    fun h => exec_of_opEnds h nofun rfl, fun h => exec_of_opEnds h nofun rfl, fun h => exec_of_opEnds h nofun rfl,
    fun k h hl => exec_of_opEnds h nofun (labelLookupAct_of_known hl), fun h => exec_of_opEnds h nofun rfl, ?begins⟩
  case begins =>
    intro u r y ho hn hf hy
    obtain rfl := Option.some.inj ((State.findMsg_beginRead_of_unread ho hn hf).symm.trans hy)
    rfl

section Domains

variable {v : State} {x : MsgRec}

/-- R302, R322: the record of domain 0 is no object of the vault, so its quota is set without a commit. -/
theorem domainQuotaAct_of_zero (hd : x.m.field 40 2 = 0) :
    domainQuotaAct v x = .ends (Final.good [])
      (v.setDomRec 0 { v.dom.rec0 with unitQuota := x.m.field 48 8, flowLimit := x.m.field 56 2 }) :=
  if_pos (beq_iff_eq.mpr hd)

theorem domainQuotaAct_of_other (hd : x.m.field 40 2 ≠ 0) :
    domainQuotaAct v x = .commit [.quota (x.m.field 40 2) (x.m.field 48 8) (x.m.field 56 2)] (Final.good []) v :=
  if_neg (mt beq_iff_eq.mp hd)

/-- R317: domain 0 keeps its policy in the PRF, and the change is recorded once it is there. -/
theorem policySetAct_of_zero (hd : v.dom' x = 0) (hok : (v.setPolicy0 x.m.input).1.status = Status.ok) :
    policySetAct v x = .ends (v.setPolicy0 x.m.input).1 ((v.setPolicy0 x.m.input).2.domainRecord .policySet 0 x.inst) :=
  (if_pos (beq_iff_eq.mpr hd)).trans (congrArg (Acted.ends _) (if_pos (beq_iff_eq.mpr hok)))

theorem policySetAct_of_other (hd : v.dom' x ≠ 0) :
    policySetAct v x = .commit [.policy (v.dom' x) (BitVec.ofNat 32 (leAt x.m.input 0 4)) (byteAt x.m.input 4)
      (x.m.input.drop 64)] (Final.good []) v :=
  if_neg (mt beq_iff_eq.mp hd)

/-- Domain 0 with a new roster, its PRF words written (R319). -/
def State.withRoster0 (v : State) (b : Bytes) : State :=
  { (v.prfWrite prfRoster).2 with prf := { (v.prfWrite prfRoster).2.prf with roster0 := parseRoster b } }

/-- R319: a new roster of domain 0 discards the tandems of the domain. -/
theorem rosterSetAct_of_zero (hd : v.dom' x = 0) (hw : (v.prfWrite prfRoster).1 = true) :
    rosterSetAct v x = .ends (Final.good []) (((v.withRoster0 x.m.input).discardTandems
      (fun y => y.domain == 0)).domainRecord .rosterSet 0 x.inst) :=
  (if_pos (beq_iff_eq.mpr hd)).trans (if_neg (by rw [hw]; decide))

theorem rosterSetAct_of_other (hd : v.dom' x ≠ 0) :
    rosterSetAct v x = .commit [.roster (v.dom' x) (parseRoster x.m.input)] (Final.good []) v :=
  if_neg (mt beq_iff_eq.mp hd)

end Domains

/-- Settles O54: each opcode commits the changes that it names; quota, policy and roster of domain 0, which are no objects of
the vault, are set at once. -/
theorem commitsAccepted : Obligations.CommitsAccepted := by
  intro s v m x commit
  exact ⟨fun h => exec_of_opCommits h nofun rfl, fun h => exec_of_opCommits h nofun rfl,
    fun h => exec_of_opCommits h nofun rfl, fun h => exec_of_opCommits h nofun rfl,
    fun h => exec_of_opCommits h nofun rfl, fun h => exec_of_opCommits h nofun rfl,
    fun h => exec_of_opCommits h nofun rfl,
    fun h hd => exec_of_opCommits h nofun (domainQuotaAct_of_other hd),
    fun h hd => exec_of_opEnds h nofun (domainQuotaAct_of_zero hd),
    fun h hd => exec_of_opCommits h nofun (policySetAct_of_other hd),
    fun h hd hok => exec_of_opEnds h nofun (policySetAct_of_zero hd hok),
    fun h hd => exec_of_opCommits h nofun (rosterSetAct_of_other hd),
    fun h hd hw => ⟨_, rfl, exec_of_opEnds h nofun (rosterSetAct_of_zero hd hw)⟩⟩

end Sys2Proof.Machine
end

section
/-! The times that pass (R296, R309, R313, R448, R451): a tandem, a component session, the open batch of the recorder and a
freeze at their ends, and the statement O42. -/

namespace Sys2Proof.Machine

section Expiry

variable {s : State} {n tid till : Nat}

theorem State.tandemExpires_of_found {t : Tandem} (h : s.dom.tandems.find? (fun t => t.tid == tid) = some t) :
    s.tandemExpires tid = (s.advance t.expires).dropExpired := by
  simp only [State.tandemExpires, h]

theorem State.tandemExpires_of_unknown (h : s.dom.tandems.find? (fun t => t.tid == tid) = none) :
    s.tandemExpires tid = s := by
  simp only [State.tandemExpires, h]

theorem State.sessionExpires_of_open {c : CompSession} (h : (s.getInst n).compSession = some c) :
    s.sessionExpires n = (s.advance c.until_).endSession n := by
  simp only [State.sessionExpires, h]

theorem State.sessionExpires_of_closed (h : (s.getInst n).compSession = none) : s.sessionExpires n = s := by
  simp only [State.sessionExpires, h]

/-- R448: a recorder that runs closes its batch 1 s after the first record. -/
theorem State.batchTimeout_of_running {r : EvRecord} {l : List EvRecord} (hb : s.pwr.booted = true)
    (hl : s.evr.openBatch = r :: l) (hr : s.evr.state = 1) :
    s.batchTimeout = (s.advance (r.time + 1000)).closeBatch := by
  simp only [State.batchTimeout, hl, List.head?_cons, hb, hr, beq_self_eq_true, Bool.and_self, if_true]

theorem State.batchTimeout_of_empty (h : s.evr.openBatch = []) : s.batchTimeout = s := by
  simp only [State.batchTimeout, h, List.head?_nil]

theorem State.freezeExpiry_of_frozen (hb : s.pwr.booted = true) (hf : s.evr.freezeEnd = some till) :
    s.freezeExpiry = ((s.advance till).endFreeze 3).raise 0 3 := by
  simp only [State.freezeExpiry, hf, hb, if_true]

theorem State.freezeExpiry_of_unfrozen (hf : s.evr.freezeEnd = none) : s.freezeExpiry = s := by
  simp only [State.freezeExpiry, hf]

end Expiry

/-- Settles O42: a row moves operating time to the end of the interval that it finds and then carries out that end; one that
finds no interval leaves the state as it is. -/
theorem expiries : Obligations.Expiries := by
  intro s
  exact ⟨fun _ _ h => next_settle_congr (State.tandemExpires_of_found h),
    fun _ h => next_settle_congr (State.tandemExpires_of_unknown h),
    fun _ _ h => next_settle_congr (State.sessionExpires_of_open h),
    fun _ h => next_settle_congr (State.sessionExpires_of_closed h),
    fun _ _ hb hl hr => next_settle_congr (State.batchTimeout_of_running hb hl hr),
    fun h => next_settle_congr (State.batchTimeout_of_empty h),
    fun _ hb hf => next_settle_congr (State.freezeExpiry_of_frozen hb hf),
    fun hf => next_settle_congr (State.freezeExpiry_of_unfrozen hf)⟩

end Sys2Proof.Machine
end

section
/-! Tandems (R309 to R311, R313): the tandem that TANDEM_BEGIN opens, with room for it and as the ninth of its domain, what
TANDEM_SIGN and TANDEM_STATUS answer, and the statement O56. -/

namespace Sys2Proof.Machine

section Act

variable {v u : State} {x : MsgRec} {t : Tandem} {w : Nat}

/-- R309: the tandem that a TANDEM_BEGIN opens in a domain, with its challenge. -/
def State.newTandem (u : State) (d : Nat) (x : MsgRec) : Tandem :=
  { Tandem.reset with
    tid := u.dom.nextTid, domain := d, act := x.m.field 40 1, digest := x.m.input, expires := u.opTime + 120000
    challenge := challengeOf d (x.m.field 40 1) u.dom.nextTid (u.opTime + 120000) x.random u.identDigest x.m.input }

/-- A tandem is kept, and the next number goes on from its own (R309). -/
def State.addTandem (u : State) (t : Tandem) : State :=
  { u with dom := { u.dom with tandems := u.dom.tandems ++ [t], nextTid := (u.dom.nextTid + 1) % 2 ^ 32 } }

theorem tandemBeginAct_of_room (h : (v.openTandems (v.dom' x)).length < 8) :
    tandemBeginAct v x = .ends (Final.good (v.newTandem (v.dom' x) x).challenge)
      (v.addTandem (v.newTandem (v.dom' x) x)) := by
  simp only [tandemBeginAct, ge_iff_le, Nat.not_le.mpr h, if_false, State.newTandem, State.addTandem]

/-- R310: the ninth tandem of a domain is opened with the one that it gives up gone. -/
theorem tandemBeginAct_of_ninth (h : 8 ≤ (v.openTandems (v.dom' x)).length) (hw : v.victim (v.dom' x) = some w)
    (hu : u = v.discardTandems (fun y => y.tid == w)) :
    tandemBeginAct v x = .ends (Final.good (u.newTandem (v.dom' x) x).challenge)
      (u.addTandem (u.newTandem (v.dom' x) x)) := by
  subst hu
  simp only [tandemBeginAct, ge_iff_le, h, if_true, hw, State.newTandem, State.addTandem]

/-- R311: a signature is answered with the status of its tandem once the officer is accepted. -/
theorem tandemSignAct_of_found
    (hu : u = v.modTandem (leAt x.m.input 8 4) (fun t => t.accept (byteAt x.m.input 4)
      ((v.dom.tandems.map (·.doneAt)).foldl max 0 + 1)))
    (ht : u.dom.tandems.find? (fun t => t.tid == leAt x.m.input 8 4) = some t) :
    tandemSignAct v x = .ends (Final.good (t.status v.opTime)) u := by
  subst hu
  simp only [tandemSignAct, ht, State.modTandem_opTime]

theorem tandemStatusAct_of_found (h : (v.openTandems (v.dom' x)).find? (fun t => t.tid == x.m.field 40 4) = some t) :
    tandemStatusAct v x = .ends (Final.good (t.status v.opTime)) v := by
  simp only [tandemStatusAct, h]

end Act

/-- Settles O56: the opcode selects the act, and a begin opens its tandem in the state that it finds or, as the ninth, in
that with an older one given up. -/
theorem tandemMessages : Obligations.TandemMessages := by
  intro s v m x
  exact ⟨fun h hn => ⟨_, _, rfl, rfl, exec_of_opEnds h nofun (tandemBeginAct_of_room hn)⟩,
    fun _ h hn hw => ⟨_, _, _, rfl, rfl, rfl, exec_of_opEnds h nofun (tandemBeginAct_of_ninth hn hw rfl)⟩,
    fun _ _ h hu ht => exec_of_opEnds h nofun (tandemSignAct_of_found hu ht),
    fun _ h ht => exec_of_opEnds h nofun (tandemStatusAct_of_found ht)⟩

end Sys2Proof.Machine
end

section
/-! Administration (R119, R304, R305, R380 to R384, R405, R451): acts that write PRF words, the bank that an IMAGE_WRITE
programs and what its chunk becomes, and the statement O58. -/

namespace Sys2Proof.Machine

/-- A message that goes on without the control pair leaves what its act leaves. -/
theorem exec_of_opEngine {s v t : State} {o : Op} {m : Msg} {x : MsgRec} (h : s.acting o m = some (v, x))
    (ho : o ≠ .lcTransition) (ha : v.controlAct { x with op := o } = .engine t) :
    exec (messageRow o m) s = .next (s.settle t) := by
  rw [exec_messageRow_of_controlAct h ho (State.controlAct_of_op (State.acting_op s o m _ h).2 ha), acted]

section Prf

variable {w : Bool × State} {a : Acted}

/-- R384: an act goes on once its PRF words are written. -/
theorem acted_of_prfWritten (h : w.1 = true) : (if !w.1 then .ends prfRefusal w.2 else a) = a := by
  rw [h]
  rfl

theorem refused_of_prfWorn (h : w.1 = false) : (if !w.1 then .ends prfRefusal w.2 else a) = .ends prfRefusal w.2 := by
  rw [h]
  rfl

end Prf

section Image

variable {v w : State} {x : MsgRec} {b : Bank} {k i : Nat} {l : Bytes}

/-- R380: the erase of the pending bank first clears its mark in the PRF. -/
theorem imageWriteAct_of_pending (he : x.m.field 41 1 = 1) (hp : v.prf.pend = some (x.m.field 40 1)) :
    imageWriteAct v x = if !(v.prfWrite prfBank).1 then .ends prfRefusal (v.prfWrite prfBank).2
      else State.writeChunk { (v.prfWrite prfBank).2 with prf := { (v.prfWrite prfBank).2.prf with pend := none } } x
        (x.m.field 40 1) Bank.reset := by
  cases hw : (v.prfWrite prfBank).1 <;>
    simp only [imageWriteAct, he, hp, hw, beq_self_eq_true, Bool.and_self, if_true, Bool.false_eq_true, if_false,
      Bool.not_true, Bool.not_false]

theorem imageWriteAct_of_erase (he : x.m.field 41 1 = 1) (hp : v.prf.pend ≠ some (x.m.field 40 1)) :
    imageWriteAct v x = v.writeChunk x (x.m.field 40 1) Bank.reset := by
  simp only [imageWriteAct, he, beq_false_of_ne hp, beq_self_eq_true, Bool.and_false, if_true, Bool.false_eq_true, if_false,
    Bool.not_true]

/-- R380: without an erase the chunk goes on where the bank stands. -/
theorem imageWriteAct_of_next (he : x.m.field 41 1 ≠ 1) :
    imageWriteAct v x = v.writeChunk x (x.m.field 40 1) (v.bank (x.m.field 40 1)) := by
  simp only [imageWriteAct, beq_false_of_ne he, Bool.false_and, Bool.false_eq_true, if_false, Bool.not_true]

/-- The state in which a chunk is programmed: the bank is the one written last. -/
def State.writingBank (w : State) (k : Nat) : State := { w with cfg := { w.cfg with writeBank := k } }

theorem State.writeChunk_of_same (h : x.m.nor = .kept ∨ ∃ l, x.m.nor = .reads l ∧ firstDiff x.m.input l 0 = none) :
    w.writeChunk x k b = .ends (Final.good []) ((w.writingBank k).setBank k (b.take x.m.input)) := by
  rcases h with h | ⟨l, h, hd⟩
  · simp only [State.writeChunk, h, State.writingBank]
  · simp only [State.writeChunk, h, hd, State.writingBank]

/-- R380: a chunk that reads back otherwise is in the bank as it was read (log 24). -/
theorem State.writeChunk_of_different (h : x.m.nor = .reads l) (hd : firstDiff x.m.input l 0 = some i) :
    w.writeChunk x k b = .ends (Final.refuse Status.verifyFailed (x.m.field 44 4 + i))
      ((w.writingBank k).setBank k { b with bytes := b.bytes ++ fit x.m.input.length l, dirty := true }) := by
  simp only [State.writeChunk, h, hd, State.writingBank]

theorem State.writeChunk_of_lasting (h : x.m.nor = .lasts) :
    w.writeChunk x k b = .engine (((w.writingBank k).setBank k { b with dirty := true }).modMsg x.id
      (fun y => { y with phase := .flash w.opTime })) := by
  simp only [State.writeChunk, h]
  rfl

theorem imageAcceptAct_of_pending (hp : v.prf.pend = some (x.m.field 40 1)) :
    imageAcceptAct v x = .ends (Final.good []) v :=
  if_pos (beq_iff_eq.mpr hp)

/-- R382, R384: an acceptance marks its bank pending in the PRF, if that can still be written. -/
theorem imageAcceptAct_of_other (hp : v.prf.pend ≠ some (x.m.field 40 1)) :
    imageAcceptAct v x = if (v.prfWrite prfBank).1 then .ends (Final.good []) { (v.prfWrite prfBank).2 with
        prf := { (v.prfWrite prfBank).2.prf with pend := some (x.m.field 40 1) } }
      else .ends prfRefusal (v.prfWrite prfBank).2 :=
  if_neg (mt beq_iff_eq.mp hp)

end Image

section Act

variable {v : State} {x : MsgRec}

theorem recorderFreezeAct_eq :
    recorderFreezeAct v x = .ends (Final.good []) (if x.m.field 40 1 = 1 then v.freeze else v.endFreeze 2) := by
  simp only [recorderFreezeAct, beq_iff_eq]

theorem debugAuthorizeAct_of_challenge (h : debugMode x.m = 0) :
    debugAuthorizeAct v x = .ends (Final.good (v.debugChallenge (x.m.field 41 1) (x.random.take 32)))
      { v with lcs := { v.lcs with challenge := some (v.debugChallenge (x.m.field 41 1) (x.random.take 32)) } } :=
  if_pos (beq_iff_eq.mpr h)

/-- R405: a response counts an authorization in the PRF before it opens the session. -/
theorem debugAuthorizeAct_of_response (h : debugMode x.m ≠ 0) :
    debugAuthorizeAct v x = if !(v.prfWrite prfReopen).1 then .ends prfRefusal (v.prfWrite prfReopen).2
      else .ends (Final.good []) (State.openDebug { (v.prfWrite prfReopen).2 with
        prf := { (v.prfWrite prfReopen).2.prf with dbgCount := (v.prfWrite prfReopen).2.prf.dbgCount + 1 }
        lcs := { (v.prfWrite prfReopen).2.lcs with challenge := none } } (byteAt x.m.input 4)) :=
  if_neg (mt beq_iff_eq.mp h)

end Act

/-- Settles O58: an act that writes PRF words goes on or is refused by that write, and the chunk of an image falls to its
read-back. -/
theorem administrationMessages : Obligations.AdministrationMessages := by
  intro s v m x
  refine ⟨fun h hw => exec_of_opEnds h nofun (acted_of_prfWritten hw),
    fun h hw => exec_of_opEnds h nofun (refused_of_prfWorn hw),
    fun h hw => exec_of_opEnds h nofun (acted_of_prfWritten hw),
    fun h hw => exec_of_opEnds h nofun (refused_of_prfWorn hw),
    fun h => exec_of_opEnds h nofun rfl,
    fun h he hp hw => exec_of_opEnds h nofun ((imageWriteAct_of_pending he hp).trans (refused_of_prfWorn hw)),
    ?chunk,
    fun h hp => exec_of_opEnds h nofun (imageAcceptAct_of_pending hp),
    fun h hp hw => ⟨_, rfl, exec_of_opEnds h nofun ((imageAcceptAct_of_other hp).trans (if_pos hw))⟩,
    fun h hp hw => exec_of_opEnds h nofun ((imageAcceptAct_of_other hp).trans (if_neg (ne_true_of_eq_false hw))),
    fun h => exec_of_opEnds h nofun recorderFreezeAct_eq,
    fun h hm => ⟨_, rfl, exec_of_opEnds h nofun (debugAuthorizeAct_of_challenge hm)⟩,
    fun h hm hw => ⟨_, rfl, exec_of_opEnds h nofun ((debugAuthorizeAct_of_response hm).trans (acted_of_prfWritten hw))⟩,
    fun h hm hw => exec_of_opEnds h nofun ((debugAuthorizeAct_of_response hm).trans (refused_of_prfWorn hw))⟩
  case chunk =>
    intro w t b h hbank ht
    obtain rfl : t = w.writingBank (x.m.field 40 1) := ht
    have chunk : v.controlAct { x with op := .imageWrite } = w.writeChunk x (x.m.field 40 1) b := by
      rcases hbank with ⟨he, hp, hw, rfl, rfl⟩ | ⟨he, hp, rfl, rfl⟩ | ⟨he, rfl, rfl⟩
      · exact (imageWriteAct_of_pending he hp).trans (acted_of_prfWritten hw)
      · exact imageWriteAct_of_erase he hp
      · exact imageWriteAct_of_next he
    exact ⟨fun hn => exec_of_opEnds h nofun (chunk.trans (State.writeChunk_of_same hn)),
      fun l i hn hd => exec_of_opEnds h nofun (chunk.trans (State.writeChunk_of_different hn hd)),
      fun hn => exec_of_opEngine h nofun (chunk.trans (State.writeChunk_of_lasting hn))⟩

end Sys2Proof.Machine
end

section
/-! The step and the antifuse rows (R11, R388, R389, R444, R479): what a step takes from the queue, what it keeps of the rows, and
the statements O1 to O9 on both. -/

namespace Sys2Proof.Machine

section Queue

variable {s t : State} {c : Instr} {rest : List Instr}

theorem step_of_empty (h : s.pending = []) : step s = .next s.tick := by
  simp only [step, h]

theorem step_of_front (h : s.pending = c :: rest) : step s = exec c { s with pending := rest } := by
  simp only [step, h]

theorem State.tick_of_off (h : s.pwr.booted = false) : s.tick = s := if_neg (ne_true_of_eq_false h)

theorem State.tick_of_on (h : s.pwr.booted = true) : s.tick = s.settle (s.advance (s.opTime + 1)) := if_pos h

@[simp] theorem State.tick_pending (s : State) : s.tick.pending = s.pending := by
  unfold State.tick
  split
  · exact State.settle_pending s _
  · rfl

theorem exec_pending (h : exec c s = .next t) : t.pending = s.pending := by
  obtain ⟨u, hu⟩ := exec_settles c s
  rw [hu] at h
  cases h
  exact State.settle_pending s u

theorem step_pending (h : step s = .next t) : t.pending = s.pending.tail := by
  cases hp : s.pending with
  | nil =>
    rw [step_of_empty hp] at h
    cases h
    rw [State.tick_pending, hp, List.tail_nil]
  | cons c rest =>
    rw [step_of_front hp] at h
    exact exec_pending h

/-- No command and no idle state stops the module. -/
theorem step_answers (s : State) : ∃ t, step s = .next t := by
  cases hp : s.pending with
  | nil => exact ⟨s.tick, step_of_empty hp⟩
  | cons c rest =>
    obtain ⟨u, hu⟩ := exec_settles c { s with pending := rest }
    exact ⟨_, (step_of_front hp).trans hu⟩

theorem State.advance_opTime_of_later {till : Nat} (h : s.opTime < till) : (s.advance till).opTime = till := by
  simp only [State.advance, Nat.not_le.mpr h, if_false]

end Queue

/-- Settles O1: a step takes the front of the queue, and its effect is settled on the rest. -/
theorem stepRunsFront : Obligations.StepRunsFront :=
  fun _ _ _ => ⟨rfl, fun _ h => exec_pending h, fun _ _ => rfl⟩

/-- Settles O2: an empty queue is a tick, which a module that is off does not make. -/
theorem emptyQueueTicks : Obligations.EmptyQueueTicks := by
  intro s hp
  refine ⟨fun hoff => ?_, fun hon => ⟨?_, State.advance_opTime_of_later (Nat.lt_succ_self s.opTime)⟩⟩
  · rw [step_of_empty hp, State.tick_of_off hoff]
  · rw [step_of_empty hp, State.tick_of_on hon]

/-- Settles O3: each field as State.reset gives it, and blank rows decode to OVUM. -/
theorem resetIsBlank : Obligations.ResetIsBlank := by
  have hrows : Otp.reset.lcState = 0 := by decide
  exact ⟨rfl, rfl, rfl, rfl, rfl, rfl, hrows, rfl, rfl, rfl, rfl, rfl⟩

/-- Settles O4, by induction on the number of steps. -/
theorem noRunStops : Obligations.NoRunStops := by
  intro n
  induction n with
  | zero => exact fun _ => rfl
  | succ n ih =>
    intro s
    obtain ⟨t, ht⟩ := step_answers s
    simp only [safeRun, ht, ih t]

/-- Settles O5: the rest of a queue of well-formed commands is well formed. -/
theorem queueStaysWellFormed : Obligations.QueueStaysWellFormed := by
  intro s t hwf h
  have hp := step_pending h
  simp only [State.queueWf, List.all_eq_true] at hwf ⊢
  exact ⟨fun c hc => hwf c (List.mem_of_mem_tail (hp ▸ hc)), hp⟩

/-! Nothing follows -/

section Quiet

variable {s old : State}

/-- R11: requests that the effect of a command took away are not carried out with it. -/
theorem State.carryOut_of_none (h : ∀ x ∈ old.setAgain, s.setAgain.contains x = false) : s.carryOut old = s := by
  unfold State.carryOut
  generalize old.setAgain = l at h
  induction l with
  | nil => rfl
  | cons x l ih =>
    rw [List.foldl_cons, if_neg (ne_true_of_eq_false (h x List.mem_cons_self))]
    exact ih fun y hy => h y (List.mem_cons_of_mem x hy)

theorem State.alertFrom_smbAlert (s old : State) :
    { (s.alertFrom old) with pwr := { (s.alertFrom old).pwr with smbAlert := s.pwr.smbAlert } } = s := by
  unfold State.alertFrom
  split <;> rfl

/-- R479: the line is driven for a word that changes while the rails are on. -/
theorem State.alertFrom_of_unchanged
    (h : old.pwr.rails = 0 ∨ s.pwr.rails = 0 ∨ (s.smbWord 1 = old.smbWord 1 ∧ s.smbWord 8 = old.smbWord 8)) :
    s.alertFrom old = s := by
  refine if_neg ?_
  obtain h | h | ⟨h1, h8⟩ := h
  · simp [h]
  · simp [h]
  · simp [h1, h8]

end Quiet

/-- Settles O6: no request is carried out, nothing is left to do, and the alert touches SMB_ALERT# alone. -/
theorem nothingFollowsQuiet : Obligations.NothingFollowsQuiet := by
  intro old t hq hset
  refine ⟨?_, State.alertFrom_smbAlert t old, State.alertFrom_of_unchanged⟩
  have hotp : (t.alertFrom old).otp = t.otp := by
    unfold State.alertFrom
    split <;> rfl
  simp only [State.settle, State.carryOut_of_none hset, State.pump_of_quiet t hq, hotp]

/-! Antifuse rows -/

section Rows

variable {new old : Otp}

theorem Otp.holds_refl (o : Otp) : o.holds o = true := by
  simp [Otp.holds]

theorem Otp.row_and_of_holds (h : new.holds old = true) {i : Nat} (hi : i < 20) : old.row i &&& new.row i = old.row i := by
  simp only [Otp.holds, Bool.and_eq_true, List.all_eq_true, List.mem_range, beq_iff_eq] at h
  exact h.1 i hi

theorem Otp.row_ne_zero_of_holds (h : new.holds old = true) {i : Nat} (hi : i < 20) (h0 : old.row i ≠ 0) : new.row i ≠ 0 := by
  intro hn
  have hand : old.row i &&& 0 = old.row i := hn ▸ Otp.row_and_of_holds h hi
  exact h0 (hand.symm.trans BitVec.and_zero)

/-- R389: a 1 bit in row LC19 says SPENT, whatever the other rows hold. -/
theorem Otp.lcState_of_spent (h : new.row 19 ≠ 0) : new.lcState = 5 := if_pos (bne_iff_ne.mpr h)

/-- A word with more bits has no fewer ones. -/
theorem bitDiff_zero_le_of_and {a b : BitVec 64} (h : a &&& b = a) : bitDiff a 0 ≤ bitDiff b 0 := by
  refine (List.monotone_filter_right (List.range 64) fun i hi => ?_).length_le
  have hxor (x : BitVec 64) : x ^^^ 0 = x := BitVec.xor_zero
  rw [hxor] at hi ⊢
  rw [← h, BitVec.getLsbD_and, Bool.and_eq_true] at hi
  exact hi.2

theorem rowBlank_eq_false_of_and {a b : BitVec 64} (h : a &&& b = a) (ha : rowBlank a = false) : rowBlank b = false := by
  have hle := bitDiff_zero_le_of_and h
  simp only [rowBlank, decide_eq_false_iff_not] at ha ⊢
  omega

/-- TRIPS counts rows that are not blank (R389), and such a row stays one. -/
theorem Otp.trips_le_of_holds (h : new.holds old = true) : old.trips ≤ new.trips := by
  have key : ∀ k ∈ List.range 8, (!rowBlank (old.row (3 + 2 * k))) = true → (!rowBlank (new.row (3 + 2 * k))) = true := by
    intro k hk hb
    have hrow : 3 + 2 * k < 20 := by have := List.mem_range.mp hk; omega
    simp only [Bool.not_eq_true'] at hb ⊢
    exact rowBlank_eq_false_of_and (Otp.row_and_of_holds h hrow) hb
  simp only [Otp.trips, ← List.countP_eq_length_filter]
  exact List.countP_mono_left key

end Rows

/-- Settles O7: a state is settled on the rows that stood before. -/
theorem antifuseRowsOnlyGainBits : Obligations.AntifuseRowsOnlyGainBits := by
  intro s t h
  obtain rfl | ⟨u, rfl⟩ := step_settles s t h
  · exact Otp.holds_refl _
  · rw [State.settle_otp]
    exact Otp.over_holds _ _

/-- Settles O8: row LC19 keeps its bits, and with one of them set the rows decode to SPENT. -/
theorem spentForever : Obligations.SpentForever := by
  intro s t h hs
  have hrow := Otp.row_ne_zero_of_holds (antifuseRowsOnlyGainBits s t hs) (by decide) h
  exact ⟨hrow, Otp.lcState_of_spent hrow⟩

/-- Settles O9: the trip rows keep their bits. -/
theorem tripsNeverFall : Obligations.TripsNeverFall :=
  fun s t h => Otp.trips_le_of_holds (antifuseRowsOnlyGainBits s t h)

end Sys2Proof.Machine
end

section
/-! Input power and its loss (R368, R370, R419, R463, R469, R472 to R475, R480): the rise of the input, the lockout, the bank and the
cell, the input-loss sequence, and the statements O10 and O12 on them. -/

namespace Sys2Proof.Machine

section Rise

variable {s : State} {e : BootEnv}

/-- The backup cell has kept the island through the time without input (R368): its tick and its count of power-ups go on. -/
def State.islandKept (s : State) : Bool := s.isl.cell && s.lc != 2

/-- The state in which the input has risen and the rails are on, before step 3 of Table 15.1. -/
def State.risen (s : State) : State :=
  let v := s.volatile
  { v with
    isl := { v.isl with main := true, tick := if s.islandKept then v.isl.tick else 0
                        powerUps := if s.islandKept then v.isl.powerUps else v.isl.powerUps + 1 }
    pwr := { v.pwr with inputOn := true, rails := 0x7F, charging := true, inputOk := true, state := 1 } }

theorem State.powerUp_of_off (h : s.pwr.inputOn = false) : s.powerUp e = s.risen.owedActions.start e false :=
  if_neg (ne_true_of_eq_false h)

theorem State.powerUp_of_on (h : s.pwr.inputOn = true) : s.powerUp e = s := if_pos h

theorem State.risen_isl_of_kept (hc : s.isl.cell = true) (hl : s.lc ≠ 2) :
    s.risen.isl.tick = s.isl.tick ∧ s.risen.isl.powerUps = s.isl.powerUps := by
  have hk : s.islandKept = true := by simp only [State.islandKept, hc, bne_iff_ne.mpr hl, Bool.and_self]
  exact ⟨if_pos hk, if_pos hk⟩

theorem State.risen_isl_of_lost (h : s.isl.cell = false ∨ s.lc = 2) :
    s.risen.isl.tick = 0 ∧ s.risen.isl.powerUps = s.isl.powerUps + 1 := by
  have hk : ¬ s.islandKept = true := by
    obtain h | h := h <;> simp [State.islandKept, h]
  exact ⟨if_neg hk, if_neg hk⟩

end Rise

section Supply

variable {s : State}

/-- What a start without power leaves, with the cause of a lost unit read from the rows, and the island off main power. -/
def State.unpowered (s : State) : State :=
  let v := s.volatile
  { v with lcs := { v.lcs with lostCause := v.lostCause }, isl := { v.isl with main := false } }

theorem State.powerOff_of_cell (h : s.isl.cell = true) : s.powerOff = s.unpowered := if_pos h

theorem State.powerOff_of_noCell (h : s.isl.cell = false) (hl : s.unpowered.lc ≠ 3) :
    s.powerOff = { s.unpowered with isl := s.unpowered.isl.clearBbram } :=
  (if_neg (ne_true_of_eq_false h)).trans (if_neg (mt beq_iff_eq.mp hl))

theorem State.lockout_of_unarmed (hi : s.pwr.inputOn = true) (ha : s.pwr.armed = false) : s.lockout = s.powerOff := by
  simp only [State.lockout, hi, ha, Bool.not_false, Bool.and_self, if_true]

theorem State.undervoltage_of_on (h : s.pwr.inputOn = true) :
    s.undervoltage = { s with pwr := { s.pwr with inputOk := false }, lcs := { s.lcs with unstableAt := s.opTime } } := if_pos h

theorem State.bankCharged_of_charging (hi : s.pwr.inputOn = true) (hc : s.pwr.charging = true) :
    s.bankCharged = { s with pwr := { s.pwr with charged := true, bankVolt := 7000, state := 2 } }.armCharged := by
  simp only [State.bankCharged, hi, hc, Bool.and_self, if_true]

end Supply

section Cell

variable {s : State}

@[simp] theorem State.readsNormal_isl (s : State) (m : Nat) : (s.readsNormal m).isl = s.isl := by
  unfold State.readsNormal
  dsimp only
  split
  · rfl
  · split <;> rfl

@[simp] theorem State.readsNormal_lc (s : State) (m : Nat) : (s.readsNormal m).lc = s.lc := by
  unfold State.readsNormal
  dsimp only
  split
  · rfl
  · split <;> rfl

/-- The state in which a cell has been fitted and its presence monitor reads normal. -/
def State.withCell (s : State) : State := State.readsNormal { s with isl := { s.isl with cell := true } } 114

theorem State.withCell_main (s : State) : s.withCell.isl.main = s.isl.main := by
  unfold State.withCell
  rw [State.readsNormal_isl]

theorem State.withCell_lc (s : State) : s.withCell.lc = s.lc := State.readsNormal_lc _ 114

theorem State.cellFitted_of_main (hc : s.isl.cell = false) (hm : s.isl.main = true) : s.cellFitted = s.withCell := by
  refine (if_neg (ne_true_of_eq_false hc)).trans (if_pos ?_)
  exact Bool.or_eq_true_iff.mpr (.inl ((State.withCell_main s).trans hm))

/-- An island without supply starts with the cell (log 41). -/
theorem State.cellFitted_of_backup (hc : s.isl.cell = false) (hm : s.isl.main = false) (hl : s.lc ≠ 2) :
    s.cellFitted = { s.withCell with isl := { s.withCell.isl with tick := 0, powerUps := s.withCell.isl.powerUps + 1 } } := by
  refine (if_neg (ne_true_of_eq_false hc)).trans (if_neg ?_)
  have hstart : (s.withCell.isl.main || s.withCell.lc == 2) = false := by
    rw [State.withCell_main, State.withCell_lc, hm, beq_false_of_ne hl, Bool.or_self]
  exact ne_true_of_eq_false hstart

end Cell

/-- Settles O10: each clause is the law of its event, with the input off or on and the cell there or not. -/
theorem powerSupplies : Obligations.PowerSupplies := by
  intro s e
  refine ⟨?rise, ?again, ?lockoutOnCell, ?lockoutOff, fun i => ⟨rfl, rfl⟩, ?range, ?charged, ?cellOnMain, ?cellAlone⟩
  case rise =>
    intro h
    exact ⟨s.risen, next_settle_congr (State.powerUp_of_off h), rfl, rfl, rfl, rfl, rfl, State.risen_isl_of_kept,
      State.risen_isl_of_lost, rfl, rfl, rfl, rfl, rfl⟩
  case again => exact fun h => next_settle_congr (State.powerUp_of_on h)
  case lockoutOnCell =>
    exact fun hi ha hc => next_settle_congr ((State.lockout_of_unarmed hi ha).trans (State.powerOff_of_cell hc))
  case lockoutOff =>
    exact fun hi ha hc hl => next_settle_congr ((State.lockout_of_unarmed hi ha).trans (State.powerOff_of_noCell hc hl))
  case range => exact fun h => next_settle_congr (State.undervoltage_of_on h)
  case charged => exact fun hi hc => next_settle_congr (State.bankCharged_of_charging hi hc)
  case cellOnMain => exact fun hc hm => next_settle_congr (State.cellFitted_of_main hc hm)
  case cellAlone => exact fun hc hm hl => ⟨s.withCell, rfl, next_settle_congr (State.cellFitted_of_backup hc hm hl)⟩

/-! Input loss -/

section Loss

variable {s : State} {done : HoldUp} {time : Nat}

theorem State.inputLoss_of_unarmed (hi : s.pwr.inputOn = true) (hh : s.pwr.holdup = false) (ha : s.pwr.armed = false) :
    s.inputLoss done time = s.undervoltage := by
  simp only [State.inputLoss, hi, hh, ha, Bool.not_true, Bool.or_self, Bool.not_false, Bool.false_eq_true, if_false, if_true]

/-- Whether a life-cycle transition is under way: its row is written, or its message has passed step 1 (R395). -/
def State.moveUnderWay (s : State) : Bool := s.lcs.moving.isSome || s.sch.msgs.any MsgRec.transits

theorem State.inputLoss_of_armed (hi : s.pwr.inputOn = true) (hh : s.pwr.holdup = false) (ha : s.pwr.armed = true) :
    s.inputLoss done time = match done with
      | .whole => (s.lossSteps.moveThrough none).lossEnd (if s.moveUnderWay then 2 else 1) time
      | .short => s.lossSteps.powerOff
      | .inRow bits => (s.lossSteps.moveThrough (some bits)).powerOff := by
  simp only [State.inputLoss, hi, hh, ha, Bool.not_true, Bool.or_self, Bool.false_eq_true, if_false]
  rfl

theorem State.lossEnd_eq {outcome : Nat} :
    s.lossEnd outcome time =
      let v := s.stopWork.finishCommits.saveVault.saveAll 4 3 outcome
      { v with pwr := { v.pwr with lossSeqs := satAdd 16 v.pwr.lossSeqs 1, lastOutcome := outcome
                                   lastTime := time } }.powerOff := rfl

theorem State.moveThrough_of_none (h : s.sch.msgs.any MsgRec.transits = false) (cut : Option (BitVec 64)) :
    s.moveThrough cut = s := by
  have hnone : s.sch.msgs.find? MsgRec.transits = none := by
    rw [List.find?_eq_none]
    exact List.any_eq_false.mp h
  simp only [State.moveThrough, hnone]

end Loss

/-- Settles O12: the sequence that is not armed is the event of the input, and one that is runs as far as the hold-up does. -/
theorem inputLoss : Obligations.InputLoss := by
  intro s done time hi hh
  refine ⟨?unarmed, ?short, ?inRow, fun t h cut => State.moveThrough_of_none h cut, ?whole⟩
  case unarmed =>
    exact fun ha => next_settle_congr ((State.inputLoss_of_unarmed hi hh ha).trans (State.undervoltage_of_on hi))
  case short => exact fun ha => next_settle_congr (State.inputLoss_of_armed hi hh ha)
  case inRow => exact fun bits ha => next_settle_congr (State.inputLoss_of_armed hi hh ha)
  case whole =>
    intro ha outcome v
    refine next_settle_congr ((State.inputLoss_of_armed (done := .whole) hi hh ha).trans ?_)
    have houtcome : (if s.moveUnderWay then 2 else 1) = outcome := rfl
    dsimp only
    rw [houtcome, State.lossEnd_eq]

end Sys2Proof.Machine
end

section
/-! The supply is no part of what a stop saves (R369, R384, R444): records, ends of messages, commits and PRF writes leave the part of
the state that holds it, by one lemma per operation in the order of the model. -/

namespace Sys2Proof.Machine

section Frames

variable {s t : State}

theorem State.pwr_of_keeps (h : s.keeps t) : t.pwr = s.pwr := by
  obtain ⟨_, _, _, _, _, _, _, _, _, _, _, hpwr, _⟩ := h
  exact hpwr

theorem State.pwr_foldl {α : Type} {f : State → α → State} (hf : ∀ t a, (f t a).pwr = t.pwr) (l : List α) (s : State) :
    (l.foldl f s).pwr = s.pwr := by
  induction l generalizing s with
  | nil => rfl
  | cons a l ih => exact (ih (f s a)).trans (hf s a)

/-! Records -/

@[simp] theorem State.raise_pwr (s : State) (n v : Nat) : (s.raise n v).pwr = s.pwr := State.pwr_of_keeps (s.keeps_raise n v)

@[simp] theorem State.record_pwr (s : State) (t c v : Nat) (p : Bytes) : (s.record t c v p).pwr = s.pwr :=
  State.pwr_of_keeps (s.keeps_record t c v p)

@[simp] theorem State.appendRecord_pwr (s : State) (r : EvRecord) : (s.appendRecord r).pwr = s.pwr :=
  State.pwr_of_keeps (s.keeps_appendRecord r)

@[simp] theorem State.closeBatch_pwr (s : State) : s.closeBatch.pwr = s.pwr := State.pwr_of_keeps s.keeps_closeBatch

@[simp] theorem State.captureRecord_pwr (s : State) (u : Nat) : (s.captureRecord u).pwr = s.pwr := by
  unfold State.captureRecord
  dsimp only
  split
  · exact s.record_pwr _ _ _ _
  · rfl

@[simp] theorem State.resumeRecording_pwr (s : State) : s.resumeRecording.pwr = s.pwr := by
  unfold State.resumeRecording
  dsimp only
  split
  · exact s.closeBatch_pwr
  · rw [State.pwr_foldl State.captureRecord_pwr]
    split <;> simp [State.pwr_foldl State.appendRecord_pwr]

@[simp] theorem State.endFreeze_pwr (s : State) (cause : Nat) : (s.endFreeze cause).pwr = s.pwr := by
  unfold State.endFreeze
  dsimp only
  split
  · rfl
  · rw [State.record_pwr]
    split <;> simp

@[simp] theorem State.clearCopied_pwr (s : State) : s.clearCopied.pwr = s.pwr := by
  unfold State.clearCopied
  split <;> rfl

@[simp] theorem State.tandemRecord_pwr (s : State) (d : Nat) (st : BitVec 16) (i o : Nat) : (s.tandemRecord d st i o).pwr = s.pwr :=
  s.record_pwr _ _ _ _

@[simp] theorem State.domainRecord_pwr (s : State) (o : Op) (d n : Nat) : (s.domainRecord o d n).pwr = s.pwr := s.record_pwr _ _ _ _

@[simp] theorem State.discardTandems_pwr (s : State) (p : Tandem → Bool) : (s.discardTandems p).pwr = s.pwr :=
  State.pwr_foldl (fun t _ => t.tandemRecord_pwr _ _ _ _) _ _

/-! PRF writes and checkpoints -/

@[simp] theorem State.prfCount_pwr (s : State) (w : Nat) : (s.prfCount w).pwr = s.pwr := by
  unfold State.prfCount
  dsimp only
  split <;> simp

@[simp] theorem State.prfWrite_pwr (s : State) (words : List Nat) : (s.prfWrite words).2.pwr = s.pwr := by
  unfold State.prfWrite
  split
  · exact s.record_pwr _ _ _ _
  · exact State.pwr_foldl State.prfCount_pwr words s

@[simp] theorem State.tryPrf_pwr (s : State) (words : List Nat) (f : Prf → Prf) : (s.tryPrf words f).pwr = s.pwr := by
  unfold State.tryPrf
  dsimp only
  split <;> exact s.prfWrite_pwr words

@[simp] theorem State.checkEndurance_pwr (s : State) : s.checkEndurance.pwr = s.pwr := by
  unfold State.checkEndurance State.vaultReadOnly
  split
  · split <;> simp
  · rfl

@[simp] theorem State.checkpoint_pwr (s : State) : s.checkpoint.pwr = s.pwr := by
  unfold State.checkpoint
  dsimp only
  split <;> simp

@[simp] theorem State.countCommits_pwr (s : State) (n : Nat) : (s.countCommits n).pwr = s.pwr := by
  unfold State.countCommits
  dsimp only
  split <;> simp

@[simp] theorem State.saveVault_pwr (s : State) : s.saveVault.pwr = s.pwr := by
  unfold State.saveVault
  split
  · exact State.checkpoint_pwr _
  · rfl

@[simp] theorem State.saveAll_pwr (s : State) (type severity code : Nat) : (s.saveAll type severity code).pwr = s.pwr := by
  simp [State.saveAll]

/-! The end of messages -/

@[simp] theorem State.release_pwr (s : State) (r : MsgRec) (b : Bytes) : (s.release r b).1.pwr = s.pwr :=
  State.pwr_of_keeps (s.keeps_release r b)

@[simp] theorem State.hostWrite_pwr (s : State) (w : HostWrite) : (s.hostWrite w).pwr = s.pwr :=
  State.pwr_of_keeps (s.keeps_hostWrite w)

@[simp] theorem State.releaseHeld_pwr (s : State) (r : MsgRec) : (s.releaseHeld r).pwr = s.pwr :=
  State.pwr_of_keeps (s.keeps_releaseHeld r)

@[simp] theorem State.stopEngine_pwr (s : State) (id : Nat) : (s.stopEngine id).pwr = s.pwr := rfl

@[simp] theorem State.closeStream_pwr (s : State) (n f : Nat) : (s.closeStream n f).pwr = s.pwr :=
  State.pwr_of_keeps (s.keeps_closeStream n f)

@[simp] theorem State.writeCell_pwr (s : State) (r : MsgRec) (f : Final) (refused : Bool) : (s.writeCell r f refused).pwr = s.pwr := by
  have hout (b : Bool) : (if b then (s.dropMsg r.id, r) else (s.dropMsg r.id).release r f.output).1.pwr = s.pwr := by
    split <;> simp
  have hwait (t : State) : (if refused then (0, t) else t.drawWait).2.pwr = t.pwr := by
    split <;> rfl
  have hnotify (b : Bool) (t : State) : (if b then t.raise r.inst 0 else t).pwr = t.pwr := by
    split <;> simp
  unfold State.writeCell
  dsimp only
  split
  · rfl
  split
  · rfl
  split
  · exact hout _
  · rw [hnotify, State.modInst_pwr, State.hostWrite_pwr, hwait]
    exact hout _

@[simp] theorem State.closeSession_pwr (s : State) (r : MsgRec) : (s.closeSession r).pwr = s.pwr := by
  unfold State.closeSession
  split <;> rfl

@[simp] theorem State.complete_pwr (s : State) (r : MsgRec) (f : Final) (refused : Bool) : (s.complete r f refused).pwr = s.pwr := by
  unfold State.complete
  dsimp only
  split <;> simp

@[simp] theorem State.violation_pwr (s : State) (n k a : Nat) : (s.violation n k a).pwr = s.pwr :=
  State.pwr_of_keeps (s.keeps_violation n k a)

@[simp] theorem State.countRefusal_pwr (s : State) (n a : Nat) (st : BitVec 16) : (s.countRefusal n a st).pwr = s.pwr :=
  State.pwr_of_keeps (s.keeps_countRefusal n a st)

@[simp] theorem State.refuse_pwr (s : State) (r : MsgRec) (f : Final) : (s.refuse r f).pwr = s.pwr := by
  unfold State.refuse
  dsimp only
  split
  · exact s.complete_pwr r f true
  · split <;> split <;> simp

@[simp] theorem State.failStream_pwr (s : State) (n fid : Nat) : (s.failStream n fid).pwr = s.pwr := by
  unfold State.failStream
  dsimp only
  rw [State.pwr_foldl fun t r => by simp]
  simp

@[simp] theorem State.failMsg_pwr (s : State) (r : MsgRec) (f : Final) : (s.failMsg r f).pwr = s.pwr := by
  unfold State.failMsg
  dsimp only
  split <;> simp

@[simp] theorem State.abortAll_pwr (s : State) (p : MsgRec → Bool) : (s.abortAll p).pwr = s.pwr := by
  refine State.pwr_foldl (fun t r => ?_) _ s
  split
  · exact State.failMsg_pwr _ _ _
  · rfl

@[simp] theorem State.squash_pwr (s : State) (p : MsgRec → Bool) : (s.squash p).pwr = s.pwr := by
  refine State.pwr_foldl (fun t r => ?_) _ s
  split
  · rfl
  split
  · rfl
  split <;> simp

@[simp] theorem State.stopWork_pwr (s : State) : s.stopWork.pwr = s.pwr := by
  simp [State.stopWork]

/-! Keys that go, and flows on them -/

@[simp] theorem State.unpin_pwr (s : State) (f : Flow) : (s.unpin f).pwr = s.pwr := by
  unfold State.unpin
  split <;> rfl

@[simp] theorem State.markStale_pwr (s : State) (h : Nat) (deleted : Bool) : (s.markStale h deleted).pwr = s.pwr :=
  State.pwr_foldl State.unpin_pwr _ s

@[simp] theorem State.forgetKey_pwr (s : State) (h : Nat) : (s.forgetKey h).pwr = s.pwr := rfl

@[simp] theorem State.dropFlows_pwr (s : State) (p : Flow → Bool) : (s.dropFlows p).pwr = s.pwr :=
  State.pwr_foldl State.unpin_pwr _ s

@[simp] theorem State.unbind_pwr (s : State) (n : Nat) : (s.unbind n).pwr = s.pwr := by
  simp [State.unbind]

@[simp] theorem State.dropBinding_pwr (s : State) (n : Nat) : (s.dropBinding n).pwr = s.pwr := by
  unfold State.dropBinding
  dsimp only
  split <;> simp

/-! Changes of the vault -/

@[simp] theorem State.setDomRec_pwr (s : State) (d : Nat) (r : DomRec) : (s.setDomRec d r).pwr = s.pwr := by
  unfold State.setDomRec
  split <;> rfl

@[simp] theorem State.modChain_pwr (s : State) (d c : Nat) (f : Chain → Chain) : (s.modChain d c f).pwr = s.pwr := by
  unfold State.modChain
  split <;> simp

@[simp] theorem State.advanceEpoch_pwr (s : State) (d : Nat) : (s.advanceEpoch d).pwr = s.pwr := by
  unfold State.advanceEpoch
  dsimp only
  split <;> simp [State.pwr_foldl (f := fun t h => (t.markStale h true).forgetKey h) (fun t h => by simp)]

theorem State.sealOver_pwr {o : Obj} {seq index old : Nat} (h : s.sealOver o seq index old = .inr t) : t.pwr = s.pwr := by
  unfold State.sealOver at h
  dsimp only at h
  split at h
  · cases h
  split at h
  · cases h
  · cases h
    rfl

theorem State.sealInternals_pwr {d seq : Nat} {old : List Obj} {l : List (Nat × Bytes)} {i : Nat}
    (h : s.sealInternals d seq old l i = .inr t) : t.pwr = s.pwr := by
  induction l generalizing s i with
  | nil =>
    cases h
    rfl
  | cons a l ih =>
    rw [State.sealInternals] at h
    split at h
    · exact ih h
    split at h
    · cases h
    next u hu => exact (ih h).trans (State.sealOver_pwr hu)

theorem State.storeDomain_pwr {d seq index : Nat} {old : List Obj} (h : s.storeDomain d seq index old = .inr t) : t.pwr = s.pwr := by
  unfold State.storeDomain at h
  dsimp only at h
  have hseal := State.sealInternals_pwr h
  exact hseal

theorem State.seal_pwr {o : Obj} {seq index : Nat} (h : s.seal o seq index = .inr t) : t.pwr = s.pwr := State.sealOver_pwr h

/-- One change of a commit that applies leaves the supply. -/
theorem State.applyChange_pwr {c : Change} {seq index : Nat} {out : Option Bytes} (h : s.applyChange c seq index = .inr (t, out)) :
    t.pwr = s.pwr := by
  have hstored {d : Nat} {u : State} {x : Option Bytes}
      (hs : (match u.storeDomain d seq index s.vlt.objs with
        | .inl f => .inl f
        | .inr v => .inr (v, x) : Applied) = .inr (t, out)) : t.pwr = u.pwr := by
    split at hs
    · cases hs
    next v hv =>
      cases hs
      exact State.storeDomain_pwr hv
  have hrec {d : Nat} {g : DomRec → DomRec}
      (hr : (match s.domRec d with
        | some r => (match (s.setDomRec d (g r)).storeDomain d seq index s.vlt.objs with
          | .inl f => .inl f
          | .inr v => .inr (v, none) : Applied)
        | none => .inl (Final.refuse Status.paramRange 40)) = .inr (t, out)) : t.pwr = s.pwr := by
    split at hr
    · exact (hstored hr).trans (s.setDomRec_pwr _ _)
    · cases hr
  cases c with
  | create o =>
    simp only [State.applyChange] at h
    split at h
    · cases h
    split at h
    · cases h
    next u hu =>
      cases h
      refine Eq.trans ?_ (State.seal_pwr hu)
      dsimp only
      split <;> simp
  | replace o expect =>
    simp only [State.applyChange] at h
    split at h
    · cases h
    split at h
    · cases h
    split at h
    · cases h
    next u hu =>
      cases h
      exact (u.markStale_pwr _ _).trans (State.seal_pwr hu)
  | delete n expect =>
    simp only [State.applyChange] at h
    split at h
    · cases h
    split at h
    · cases h
    · cases h
      simp
  | restrict n expect block =>
    simp only [State.applyChange] at h
    split at h
    · cases h
    split at h
    · cases h
    split at h
    · cases h
    split at h
    · cases h
    next u hu =>
      cases h
      exact (u.markStale_pwr _ _).trans (State.seal_pwr hu)
  | domPut d r =>
    simp only [State.applyChange] at h
    split at h
    · cases h
    · exact (hstored h).trans (s.setDomRec_pwr _ _)
  | domDelete d =>
    simp only [State.applyChange] at h
    split at h
    · cases h
    · cases h
      exact s.advanceEpoch_pwr d
  | roster d r => exact hrec h
  | policy d p k key => exact hrec h
  | quota d u f => exact hrec h
  | purge d => exact (hstored h).trans (s.advanceEpoch_pwr d)
  | label d name n inst replace =>
    cases n with
    | none =>
      simp only [State.applyChange] at h
      split at h
      · exact hrec h
      · cases h
    | some n =>
      simp only [State.applyChange] at h
      split at h
      · cases h
      split at h
      · cases h
      split at h
      · cases h
      split at h
      · cases h
      · exact hrec h
  | chain d c => exact hrec h
  | chainClose d n => exact hrec h
  | collect a b =>
    cases h
    rfl
  | store d => exact hrec (g := id) h

theorem State.applyEach_pwr {seq : Nat} {l : List Change} {i : Nat} {x out : Option Bytes}
    (h : s.applyEach seq l i x = .inr (t, out)) : t.pwr = s.pwr := by
  induction l generalizing s i x with
  | nil =>
    cases h
    rfl
  | cons c l ih =>
    rw [State.applyEach] at h
    split at h
    · cases h
    next u o hu => exact (ih h).trans (State.applyChange_pwr hu)

theorem State.applyChanges_pwr {seq : Nat} {l : List Change} {out : Option Bytes} (h : s.applyChanges seq l = .inr (t, out)) :
    t.pwr = s.pwr := by
  unfold State.applyChanges at h
  split at h
  · cases h
  next u o hu =>
    cases h
    have heach := State.applyEach_pwr hu
    exact heach

@[simp] theorem State.afterChange_pwr (s : State) (c : Change) (n : Nat) : (s.afterChange c n).pwr = s.pwr := by
  cases c with
  | domDelete d => simp [State.afterChange, State.pwr_foldl State.dropBinding_pwr]
  | _ => simp [State.afterChange]

/-! Commits -/

@[simp] theorem State.batchClose_pwr (s : State) : s.batchClose.pwr = s.pwr := State.pwr_of_keeps s.keeps_batchClose

@[simp] theorem State.accept_pwr (s : State) (id : Option Nat) (l : List Change) (f : Final) : (s.accept id l f).pwr = s.pwr := by
  unfold State.accept
  cases id <;> dsimp only <;> split <;> simp

/-- The state that an act leaves, whatever becomes of its message. -/
def Acted.state : Acted → State
  | .ends _ t => t
  | .commit _ _ t => t
  | .engine t => t
  | .custody t => t

theorem keyRestoreAct_pwr (s : State) (r : MsgRec) : (keyRestoreAct s r).state.pwr = s.pwr := by
  unfold keyRestoreAct
  split
  · rfl
  split
  · rfl
  · unfold restoreNext
    dsimp only
    split <;> rfl

@[simp] theorem State.restoreGoesOn_pwr (s : State) (r : MsgRec) : (s.restoreGoesOn r).pwr = s.pwr := by
  have hact := keyRestoreAct_pwr (s.modMsg r.id MsgRec.restored) r.restored
  unfold State.restoreGoesOn
  split
  all_goals
    rename_i h
    rw [h] at hact
  · exact (State.accept_pwr _ _ _ _).trans hact
  · exact (State.complete_pwr _ _ _ _).trans hact
  · exact hact
  · exact hact

@[simp] theorem State.endCommit_pwr (s : State) (r : MsgRec) (x : HeldEnd) : (s.endCommit r x).pwr = s.pwr := by
  unfold State.endCommit
  split
  · exact s.complete_pwr _ _ _
  · exact s.failMsg_pwr _ _
  · split
    · exact s.failMsg_pwr _ _
    · dsimp only
      split <;> simp
  · exact s.restoreGoesOn_pwr r

@[simp] theorem State.endOrHold_pwr (s : State) (r : MsgRec) (x : HeldEnd) : (s.endOrHold r x).pwr = s.pwr := by
  unfold State.endOrHold
  split
  · rfl
  · exact s.endCommit_pwr r x

@[simp] theorem State.dropCommit_pwr (s : State) (p : PendCommit) (st : BitVec 16) : (s.dropCommit p st).pwr = s.pwr := by
  unfold State.dropCommit State.ledgerCommitFailed
  dsimp only
  split
  · rfl
  · refine State.pwr_foldl (fun t c => ?_) _ _
    split <;> simp

@[simp] theorem State.finishCommit_pwr (s : State) (p : PendCommit) : (s.finishCommit p).pwr = s.pwr := by
  unfold State.finishCommit
  split
  · dsimp only
    split <;> simp
  next t out ht =>
    have hall : (p.changes.foldl (fun t c => t.afterChange c p.inst) t).pwr = s.pwr :=
      (State.pwr_foldl (fun u c => u.afterChange_pwr c p.inst) _ _).trans (State.applyChanges_pwr ht)
    dsimp only
    split
    · split
      · exact (State.endOrHold_pwr _ _ _).trans hall
      · rw [State.endOrHold_pwr]
        split <;> exact hall
    · exact hall

@[simp] theorem State.switchBatch_pwr (s : State) (l : List PendCommit) (failed : List Nat) : (s.switchBatch l failed).pwr = s.pwr := rfl

@[simp] theorem State.finishBatch_pwr (s : State) (failed : List Nat) (l : List PendCommit) : (s.finishBatch failed l).pwr = s.pwr := by
  simp [State.finishBatch, State.pwr_foldl State.finishCommit_pwr]

@[simp] theorem State.finishCommits_pwr (s : State) : s.finishCommits.pwr = s.pwr :=
  State.pwr_foldl (fun t b => t.finishBatch_pwr [] b) _ _

end Frames

end Sys2Proof.Machine
end

section
/-! Cold resets and PERST# (R369, R385, R431, R476, R477): what a cold reset leaves until its start, when each reset comes about, and
the statement O11 on them. -/

namespace Sys2Proof.Machine

section Cold

variable {s : State} {v : BitVec 32} {e : BootEnv} {ms us : Nat}

/-- What a cold reset saves before anything returns to its reset value. -/
def State.savedFor (s : State) (cause : Nat) : State :=
  (s.stopWork.finishCommits.endFreeze 5).saveVault.saveAll 5 1 cause

/-- What a cold reset makes of a state whose work is saved. -/
def State.restarting (u : State) (cause : Nat) : State :=
  let t := u.volatile.counted u
  { t with
    lcs := { t.lcs with unstableAt := u.lcs.unstableAt }
    ident := u.ident
    evr := { t.evr with state := u.evr.state, stopCause := u.evr.stopCause }
    pwr := { t.pwr with inputOn := true, armed := u.pwr.armed, state := u.pwr.state, charged := u.pwr.charged, charging := true
                        inputOk := u.pwr.inputOk, rails := u.pwr.rails, bankVolt := u.pwr.bankVolt
                        current := u.pwr.current, voltage := u.pwr.voltage, avg1Min := u.pwr.avg1Min
                        avg1S := u.pwr.avg1S, powers := u.pwr.powers, conv := u.pwr.conv
                        coldCount := satAdd 16 u.pwr.coldCount 1, coldWait := some cause } }

theorem State.coldReset_eq (s : State) (cause : Nat) : s.coldReset cause = (s.savedFor cause).restarting cause := by
  unfold State.coldReset State.restarting State.savedFor
  dsimp only

theorem State.savedFor_pwr (s : State) (cause : Nat) : (s.savedFor cause).pwr = s.pwr := by
  simp [State.savedFor]

/-- R475: the input-loss sequence stays armed until the start that the reset waits for. -/
theorem State.coldReset_leaves (s : State) (cause : Nat) :
    (s.coldReset cause).pwr.coldWait = some cause ∧ (s.coldReset cause).pwr.booted = false ∧ (s.coldReset cause).sch.msgs = []
    ∧ (s.coldReset cause).lnk = { Lnk.reset with
        lossHot := (s.coldReset cause).lnk.lossHot, lossSurprise := (s.coldReset cause).lnk.lossSurprise }
    ∧ (s.coldReset cause).glb.phase = 0 ∧ (s.coldReset cause).pwr.armed = s.pwr.armed := by
  rw [State.coldReset_eq, ← State.savedFor_pwr s cause]
  generalize s.savedFor cause = u
  exact ⟨rfl, rfl, rfl, rfl, rfl, rfl⟩

theorem State.cfgCtl_of_key (hh : s.pwr.holdup = false) (hk : v.toNat / 65536 = 0xA5C3) (hb : v.getLsbD 0 = true) :
    s.cfgCtl v e = (s.coldReset 1).coldStart e := by
  simp only [State.cfgCtl, hk, hb, hh, beq_self_eq_true, Bool.not_false, Bool.and_self, if_true]

theorem State.cfgCtl_of_other (h : v.toNat / 65536 ≠ 0xA5C3 ∨ v.getLsbD 0 = false) : s.cfgCtl v e = s := by
  refine if_neg ?_
  obtain h | h := h
  · simp [beq_false_of_ne h]
  · simp only [h, Bool.and_false, Bool.false_and, Bool.false_eq_true, not_false_eq_true]

theorem State.coldPin_of_long (hb : s.pwr.booted = true) (hh : s.pwr.holdup = false) (hms : 100 ≤ ms) :
    s.coldPin ms = s.coldReset 2 := by
  simp only [State.coldPin, hb, hh, hms, decide_true, Bool.not_false, Bool.and_self, if_true]

theorem State.coldPin_of_short (hms : ms < 100) : s.coldPin ms = s := by
  refine if_neg ?_
  simp [Nat.not_le.mpr hms]

theorem State.coldStart_of_waiting {c : Nat} (h : s.pwr.coldWait = some c) :
    s.coldStart e = { s with
      ident := { s.ident with present := false }, evr := { s.evr with state := 0, stopCause := 0 }
      pwr := { s.pwr with coldWait := none, armed := false } }.start e true := by
  simp only [State.coldStart, h, Option.isNone_some, Bool.false_eq_true, if_false]

theorem State.perst_of_short (hus : us < 100) : s.perst us = s := if_pos hus

/-- R476: a PERST# that is long enough is counted and takes the link down. -/
theorem State.perst_of_linkUp (hus : 100 ≤ us) (hb : s.pwr.booted = true) (hh : s.pwr.holdup = false) (hm : s.lnk.mode ≠ 0) :
    s.perst us =
      { s with pwr := { s.pwr with perstLow := true, perstCount := satAdd 16 s.pwr.perstCount 1 } }.linkDown := by
  simp only [State.perst, Nat.not_lt.mpr hus, hb, hh, beq_false_of_ne hm, Bool.not_true, Bool.or_self, Bool.false_eq_true, if_false]

end Cold

/-- Settles O11: a write of CFG_CTL is let through or not, and each reset comes about with its key or in its time. -/
theorem resets : Obligations.Resets := by
  intro s e
  refine ⟨?left, ?command, ?otherKey, ?refused, ?down, ?pin, ?shortPin, ?release, ?shortPerst, ?perst, rfl⟩
  case left => exact s.coldReset_leaves
  case command =>
    intro v hup hr hh hk hb
    have hw : s.writable 0x1001C = true := by simp only [State.writable, hup, hr, Option.isNone_none, Bool.and_self]
    exact next_settle_congr ((State.atManager_of_writable hw).trans (State.cfgCtl_of_key hh hk hb))
  case otherKey =>
    intro v hup hr h
    have hw : s.writable 0x1001C = true := by simp only [State.writable, hup, hr, Option.isNone_none, Bool.and_self]
    exact next_settle_congr ((State.atManager_of_writable hw).trans (State.cfgCtl_of_other h))
  case refused => exact fun v t hup hr => next_settle_congr (State.atManager_of_refused hup hr)
  case down => exact fun v hup => next_settle_congr (State.atManager_of_down hup)
  case pin => exact fun ms hb hh hms => next_settle_congr (State.coldPin_of_long hb hh hms)
  case shortPin => exact fun ms hms => next_settle_congr (State.coldPin_of_short hms)
  case release => exact fun c hc => next_settle_congr (State.coldStart_of_waiting hc)
  case shortPerst => exact fun us hus => next_settle_congr (State.perst_of_short hus)
  case perst => exact fun us hus hb hh hm => next_settle_congr (State.perst_of_linkUp hus hb hh hm)

end Sys2Proof.Machine
end

section
/-! The ledger seal (R344 to R351): the act of each opcode in the cases its chapter tells apart, the head update of a posting, and the
statements O57 and O27 on them. -/

namespace Sys2Proof.Machine

section Open

variable {v : State} {x : MsgRec} {o : Obj}

/-- The chain record with which a chain is opened (R345). -/
def openedChain (v : State) (x : MsgRec) (o : Obj) : Chain :=
  v.ledgerSeal (v.dom' x) (v.ledgerStart x) 0 o ((x.random.drop (if linkedPart x.m = [] then 32 else 0)).take (sealRandom o))

/-- What an opcode returns of a chain's last checkpoint: with its identity signature, drawn last (R347). -/
def checkpointAnswer (v : State) (x : MsgRec) (c : Chain) : Bytes :=
  v.ledgerCheckpoint c.body c.sealVal (x.random.drop (x.random.length - 56))

theorem ledgerChainOpenAct_of_badLink (hb : linkedPart x.m ≠ [])
    (hl : v.linkOk (v.dom' x) (ledgerChain x.m) (linkedPart x.m) = false) :
    ledgerChainOpenAct v x = .ends (Final.plain Status.verifyFailed) v := by
  simp only [ledgerChainOpenAct, List.isEmpty_eq_false_iff.mpr hb, hl, Bool.not_false, Bool.and_self, if_true]

theorem ledgerChainOpenAct_of_found (hl : linkedPart x.m = [] ∨ v.linkOk (v.dom' x) (ledgerChain x.m) (linkedPart x.m) = true)
    (ho : v.readObj x.m.keyA = .inr o) :
    ledgerChainOpenAct v x =
      .commit [.chain (v.dom' x) (openedChain v x o)] (Final.good (checkpointAnswer v x (openedChain v x o))) v := by
  have hlink : (!(linkedPart x.m).isEmpty && !v.linkOk (v.dom' x) (ledgerChain x.m) (linkedPart x.m)) = false := by
    obtain h | h := hl <;> simp [h]
  simp only [ledgerChainOpenAct, hlink, ho, List.isEmpty_iff, Bool.false_eq_true, if_false]
  rfl

end Open

section Control

variable {v : State} {x : MsgRec} {c : Chain} {o : Obj}

theorem ledgerCheckpointAct_of_found (hc : v.ledgerFind x = .inr c) (ho : v.sealKeyOf c = .inr o) :
    ledgerCheckpointAct v x =
      let y := v.ledgerSeal (v.dom' x) c 2 o (x.random.take (sealRandom o))
      .commit [.chain (v.dom' x) y] (Final.good (checkpointAnswer v x y)) v := by
  simp only [ledgerCheckpointAct, hc, ho]
  rfl

theorem ledgerStatusAct_of_found (hc : v.ledgerFind x = .inr c) : ledgerStatusAct v x = .ends (Final.good c.status) v := by
  simp only [ledgerStatusAct, hc]

theorem ledgerCheckpointGetAct_of_found (hc : v.ledgerFind x = .inr c) :
    ledgerCheckpointGetAct v x = .ends (Final.good (v.ledgerCheckpoint c.body c.sealVal x.random)) v := by
  simp only [ledgerCheckpointGetAct, hc]

/-- R349: the final checkpoint of a chain, unsealed where no key may seal it. -/
def finalChain (v : State) (x : MsgRec) (c : Chain) : Chain :=
  match v.closeKey c with
  | some o => v.ledgerSeal (v.dom' x) c 4 o (x.random.take (sealRandom o))
  | none => c.checkpointed (v.ledgerBody (v.dom' x) c 4 none) []

theorem finalChain_of_key (h : v.closeKey c = some o) :
    finalChain v x c = v.ledgerSeal (v.dom' x) c 4 o (x.random.take (sealRandom o)) := by
  simp only [finalChain, h]

theorem finalChain_of_noKey (h : v.closeKey c = none) :
    finalChain v x c = c.checkpointed (v.ledgerBody (v.dom' x) c 4 none) [] := by
  simp only [finalChain, h]

theorem ledgerChainCloseAct_of_found (hc : v.ledgerFind x = .inr c) :
    ledgerChainCloseAct v x =
      if v.vlt.state == 3 then .ends (Final.good (checkpointAnswer v x (finalChain v x c))) v
      else .commit [.chainClose (v.dom' x) c.num] (Final.good (checkpointAnswer v x (finalChain v x c))) v := by
  simp only [ledgerChainCloseAct, hc]
  rfl

theorem ledgerChainCloseAct_of_writable (hs : v.vlt.state ≠ 3) (hc : v.ledgerFind x = .inr c) :
    ledgerChainCloseAct v x =
      .commit [.chainClose (v.dom' x) c.num] (Final.good (checkpointAnswer v x (finalChain v x c))) v :=
  (ledgerChainCloseAct_of_found hc).trans (if_neg (mt beq_iff_eq.mp hs))

/-- Log 75: a read-only vault commits nothing. -/
theorem ledgerChainCloseAct_of_readOnly (hs : v.vlt.state = 3) (hc : v.ledgerFind x = .inr c) :
    ledgerChainCloseAct v x = .ends (Final.good (checkpointAnswer v x (finalChain v x c))) v :=
  (ledgerChainCloseAct_of_found hc).trans (if_pos (beq_iff_eq.mpr hs))

/-- R349: no key seals in a read-only vault. -/
theorem State.closeKey_of_readOnly (h : v.vlt.state = 3) (c : Chain) : v.closeKey c = none := by
  have hkey : v.sealKeyOf c = .inl (Final.plain Status.vaultReadOnly) := if_pos (beq_iff_eq.mpr h)
  simp only [State.closeKey, hkey]

end Control

/-- Settles O57: the opcode selects the act, and a close seals its last checkpoint or not and commits or not by the vault's state. -/
theorem ledgerMessages : Obligations.LedgerMessages := by
  intro s v m x
  refine ⟨fun h hb hl => exec_of_opEnds h nofun (ledgerChainOpenAct_of_badLink hb hl),
    fun o h hl ho => exec_of_opCommits h nofun (ledgerChainOpenAct_of_found hl ho),
    fun c o h hc ho => exec_of_opCommits h nofun (ledgerCheckpointAct_of_found hc ho),
    fun c h hc => exec_of_opEnds h nofun (ledgerStatusAct_of_found hc),
    fun c h hc => exec_of_opEnds h nofun (ledgerCheckpointGetAct_of_found hc), ?sealed, ?readOnly,
    fun c hs => State.closeKey_of_readOnly hs c, ?unsealed⟩
  case sealed =>
    intro c o h hs hc hk
    rw [← finalChain_of_key hk]
    exact exec_of_opCommits h nofun (ledgerChainCloseAct_of_writable hs hc)
  case readOnly =>
    intro c h hs hc hk
    rw [← finalChain_of_noKey hk]
    exact exec_of_opEnds h nofun (ledgerChainCloseAct_of_readOnly hs hc)
  case unsealed =>
    intro c h hs hc hk
    rw [← finalChain_of_noKey hk]
    exact exec_of_opCommits h nofun (ledgerChainCloseAct_of_writable hs hc)

/-! The head update -/

section Post

variable {s t : State} {e : Nat} {r : MsgRec} {c : Chain} {f : Final}

theorem State.lapComplete_of_posting (hw : s.workOf e = some r) (hk : engKind e ≠ 2) (hl : r.op = .ledgerPost) :
    s.lapComplete e = ((s.lapOff e r).ledgerLapEnd r).boundary e := by
  simp only [State.lapComplete, beq_iff_eq, hk, hw, hl, if_true, if_false]
  rfl

/-- The chain after a posting at an operating time (R346). -/
def MsgRec.posted (r : MsgRec) (c : Chain) (time : Nat) : Chain :=
  c.post time (if r.m.field 41 1 = 0 then sha384 r.m.input else r.m.input)

/-- What a posting answers: count, time and head. -/
def MsgRec.postAnswer (r : MsgRec) (x : Chain) : Bytes :=
  leBytes 8 x.count ++ leBytes 8 x.time ++ (if r.m.field 42 1 = 1 then x.head.take 24 else x.head)

theorem ledgerApply_of_missing (hc : t.ledgerFind r = .inl f) : ledgerApply t r = (false, f, t) := by
  simp only [ledgerApply, hc]

theorem ledgerApply_of_found (hc : t.ledgerFind r = .inr c) :
    ledgerApply t r =
      let x := r.posted c t.opTime
      if r.m.field 48 8 ≠ 0 ∧ r.m.field 48 8 ≠ x.count then
        (true, { Final.plain Status.keyVersion with info := leBytes 8 c.count }, t)
      else (false, Final.good (r.postAnswer x), t.modChain (t.dom' r) c.num (fun _ => x)) := by
  simp only [ledgerApply, hc, Bool.and_eq_true, bne_iff_ne, beq_iff_eq]
  rfl

theorem ledgerApply_of_unexpected (hc : t.ledgerFind r = .inr c) (hw : r.m.field 48 8 ≠ 0)
    (hn : r.m.field 48 8 ≠ (r.posted c t.opTime).count) :
    ledgerApply t r = (true, { Final.plain Status.keyVersion with info := leBytes 8 c.count }, t) :=
  (ledgerApply_of_found hc).trans (if_pos ⟨hw, hn⟩)

theorem ledgerApply_of_expected (hc : t.ledgerFind r = .inr c)
    (hw : r.m.field 48 8 = 0 ∨ r.m.field 48 8 = (r.posted c t.opTime).count) :
    ledgerApply t r = (false, Final.good (r.postAnswer (r.posted c t.opTime)),
      t.modChain (t.dom' r) c.num (fun _ => r.posted c t.opTime)) :=
  (ledgerApply_of_found hc).trans (if_neg fun h => hw.elim h.1 h.2)

theorem State.ledgerLapEnd_of_held (h : t.ledgerHeld r = true) : t.ledgerLapEnd r = t.setMsg { r with phase := .between } :=
  if_pos h

theorem State.ledgerLapEnd_of_free (h : t.ledgerHeld r = false) : t.ledgerLapEnd r = t.ledgerEnd r :=
  if_neg (ne_true_of_eq_false h)

theorem State.ledgerEnd_of_refused {u : State} (h : ledgerApply t r = (true, f, u)) : t.ledgerEnd r = u.refuse r f := by
  simp only [State.ledgerEnd, h, if_true]

theorem State.ledgerEnd_of_good {u : State} (h : ledgerApply t r = (false, f, u)) (hf : f.status = Status.ok) :
    t.ledgerEnd r = u.complete r f false := by
  simp only [State.ledgerEnd, h, hf, Bool.false_eq_true, beq_self_eq_true, if_false, if_true]

theorem State.ledgerEnd_of_failed {u : State} (h : ledgerApply t r = (false, f, u)) (hf : f.status ≠ Status.ok) :
    t.ledgerEnd r = u.failMsg r f := by
  simp only [State.ledgerEnd, h, beq_false_of_ne hf, Bool.false_eq_true, if_false]

end Post

/-- Settles O27: the lap of a posting ends, and the posting is held, refused for the count it expects, applied or without a chain. -/
theorem ledgerHeadUpdate : Obligations.LedgerHeadUpdate := by
  intro s e r c hw hk hl t ht x
  obtain rfl : t = s.lapOff e.val r := ht
  have ends {u : State} (h : (s.lapOff e.val r).ledgerLapEnd r = u) :
      exec (.lapComplete e) s = .next (s.settle (u.boundary e.val)) :=
    exec_lapComplete_of (h ▸ State.lapComplete_of_posting hw hk hl)
  have applied {u : State} (hh : (s.lapOff e.val r).ledgerHeld r = false) (h : (s.lapOff e.val r).ledgerEnd r = u) :
      exec (.lapComplete e) s = .next (s.settle (u.boundary e.val)) :=
    ends ((State.ledgerLapEnd_of_free hh).trans h)
  exact ⟨rfl, rfl, rfl, fun hh => ends (State.ledgerLapEnd_of_held hh),
    fun hh hc hn hne => applied hh (State.ledgerEnd_of_refused (ledgerApply_of_unexpected hc hn hne)),
    fun hh hc hn => applied hh (State.ledgerEnd_of_good (ledgerApply_of_expected hc hn) rfl),
    fun f hh hc hf => applied hh (State.ledgerEnd_of_failed (ledgerApply_of_missing hc) hf)⟩

end Sys2Proof.Machine
end

section
/-! The transaction functions (R326, R331, R332, R335 to R337, R339): what a PIN opcode makes of the block that it opens, a DUKPT MAC
of its data, and a key block that does not open, and the statement O35 on them. -/

namespace Sys2Proof.Machine

/-- A verification answers OK for a match alone. -/
theorem verdict_ok_iff {b : Bool} {st : BitVec 16} (h : st ≠ Status.ok) : (if b then Status.ok else st) = Status.ok ↔ b = true := by
  cases b <;> simp [h]

section Pin

variable {m : Msg} {a b : KeyRef} {rnd : Bytes} {o : Op} {p : List Nat}

/-- The key under which the PIN block of a message stands: its first key, or the PIN key that DUKPT derives from it (R335). -/
def pinKey (m : Msg) (a : KeyRef) : Bytes :=
  if a.usage.getLsbD 14 then dukptWorking a.material (slice m.input 16 12) (txP m 3) 0x1000 else a.material

/-- The digits of the account number of a message. -/
def pinPan (m : Msg) : List Nat := panOf m.input (txP m 2)

/-- The PIN in the block of a message, if the block decodes. -/
def pinIn (m : Msg) (a : KeyRef) : Option (List Nat) := pinDecode (txP m 0) (pinKey m a) (m.input.take 16) (pinPan m)

/-- A PIN matches what PIN_VERIFY compares it with: the stored PIN, or the reference value of the message (R332). -/
def pinMatches (m : Msg) (b : KeyRef) (p : List Nat) : Bool :=
  if b.alg == 0x0600 then pinString p (pinPan m) == b.material
  else pinReferenceValue b.alg b.material (pinString p (pinPan m)) == slice m.input 56 8

theorem pinMatches_iff : pinMatches m b p = true ↔
    if b.alg = 0x0600 then pinString p (pinPan m) = b.material
    else pinReferenceValue b.alg b.material (pinString p (pinPan m)) = slice m.input 56 8 := by
  unfold pinMatches
  by_cases h : b.alg = 0x0600
  · rw [if_pos h, if_pos (beq_iff_eq.mpr h), beq_iff_eq]
  · rw [if_neg h, if_neg (mt beq_iff_eq.mp h), beq_iff_eq]

theorem txRun_pinTranslate : txRun .pinTranslate m a b rnd = match pinIn m a with
    | none => (Status.verifyFailed, [])
    | some p => (Status.ok, pinEncode (txP m 1) b.material p (pinPan m) rnd) := rfl

theorem txRun_pinVerify : txRun .pinVerify m a b rnd = match pinIn m a with
    | none => (Status.verifyFailed, [])
    | some p => (if pinMatches m b p then Status.ok else Status.pinMismatch, []) := rfl

theorem txRun_pinReference : txRun .pinReference m a b rnd = match pinIn m a with
    | none => (Status.verifyFailed, [])
    | some p => (Status.ok, pinReferenceValue b.alg b.material (pinString p (pinPan m))) := rfl

theorem txRun_of_noPin (h : pinIn m a = none) (ho : o = .pinTranslate ∨ o = .pinVerify ∨ o = .pinReference) :
    txRun o m a b rnd = (Status.verifyFailed, []) := by
  obtain rfl | rfl | rfl := ho
  · rw [txRun_pinTranslate, h]
  · rw [txRun_pinVerify, h]
  · rw [txRun_pinReference, h]

theorem txRun_pinVerify_of_some (h : pinIn m a = some p) :
    txRun .pinVerify m a b rnd = (if pinMatches m b p then Status.ok else Status.pinMismatch, []) := by
  rw [txRun_pinVerify, h]

end Pin

section Mac

variable {m : Msg} {a b : KeyRef} {rnd d g : Bytes}

/-- The MAC key that DUKPT derives for a direction (R336). -/
def macKey (m : Msg) (a : KeyRef) : Bytes := dukptWorking a.material (m.input.take 12) (txP m 3) (0x2000 + txP m 4)

/-- The MAC of a message over data, of the length that it asks for (R337). -/
def dataMac (m : Msg) (a : KeyRef) (d : Bytes) : Bytes := (cmac (macKey m a) d).take (macTag m)

theorem txRun_dukptMac_of_generate (h : txP m 4 = 0) :
    txRun .dukptMac m a b rnd = (Status.ok, dataMac m a (m.input.drop 16)) := if_pos (beq_iff_eq.mpr h)

/-- What follows the first 16 bytes is the data and then the MAC. -/
theorem split_of_drop {x : Bytes} (h : x.drop 16 = d ++ g) :
    slice x 16 (x.length - 16 - g.length) = d ∧ x.drop (x.length - g.length) = g := by
  have hlen : x.length - 16 = d.length + g.length := by rw [← List.length_drop, h, List.length_append]
  refine ⟨?_, ?_⟩
  · rw [slice, h, hlen, Nat.add_sub_cancel, List.take_left]
  · obtain hx | hx := Nat.lt_or_ge x.length 16
    · have hg : g = [] := List.eq_nil_of_length_eq_zero (by omega)
      rw [hg, List.length_nil, Nat.sub_zero, List.drop_length]
    · rw [show x.length - g.length = 16 + d.length by omega, ← List.drop_drop, h, List.drop_left]

theorem txRun_dukptMac_of_verify (h : txP m 4 ≠ 0) (hd : m.input.drop 16 = d ++ g) (hg : g.length = macTag m) :
    txRun .dukptMac m a b rnd = (if dataMac m a d == g then Status.ok else Status.verifyFailed, []) := by
  obtain ⟨hdata, hmac⟩ := split_of_drop hd
  rw [hg] at hdata hmac
  have hval : txRun .dukptMac m a b rnd =
      (if dataMac m a (slice m.input 16 (m.input.length - 16 - macTag m)) == m.input.drop (m.input.length - macTag m)
        then Status.ok else Status.verifyFailed, []) := if_neg (mt beq_iff_eq.mp h)
  rw [hval, hdata, hmac]

end Mac

section Block

variable {m : Msg} {a b : KeyRef} {rnd : Bytes} {l : List Bytes} {off : Nat}

theorem txRun_keyBlockCheck_of_closed (hp : parseBlock m.input (isTdea a.alg) = .inr (l, off))
    (ho : openBlock a.alg a.material m.input off = none) : txRun .keyBlockCheck m a b rnd = (Status.unwrapFailed, []) := by
  unfold txRun
  dsimp only
  rw [hp]
  dsimp only
  rw [ho]

theorem txRun_keyBlockTranslate_of_closed (hp : parseBlock m.input (isTdea a.alg) = .inr (l, off))
    (ho : openBlock a.alg a.material m.input off = none) :
    txRun .keyBlockTranslate m a b rnd = (Status.unwrapFailed, []) := by
  unfold txRun
  dsimp only
  rw [hp]
  dsimp only
  rw [ho]

end Block

/-- Settles O35: a PIN opcode by the block that it opens, a MAC by its direction, a key block that does not open. -/
theorem transactionResults : Obligations.TransactionResults := by
  intro m a b rnd key pan pin
  refine ⟨fun h o ho => txRun_of_noPin h ho, ?pin, ?generate, ?verify,
    fun l off hp ho => ⟨txRun_keyBlockCheck_of_closed hp ho, txRun_keyBlockTranslate_of_closed hp ho⟩⟩
  case pin =>
    intro p hp
    have hpin : pinIn m a = some p := hp
    have hmismatch : Status.pinMismatch ≠ Status.ok := by decide
    refine ⟨?_, ?_, ?_, ?_, ?_⟩
    · rw [txRun_pinTranslate, hpin]
      rfl
    · rw [txRun_pinReference, hpin]
      rfl
    · rw [txRun_pinVerify_of_some hpin]
    · rw [txRun_pinVerify_of_some hpin]
      exact (verdict_ok_iff hmismatch).trans pinMatches_iff
    · rw [txRun_pinVerify_of_some hpin]
      exact (ite_eq_or_eq _ _ _)
  case generate =>
    intro h
    rw [txRun_dukptMac_of_generate h, dataMac, macKey, h]
  case verify =>
    intro d g h hd hg
    have hfailed : Status.verifyFailed ≠ Status.ok := by decide
    rw [txRun_dukptMac_of_verify h hd hg]
    exact ⟨rfl, (verdict_ok_iff hfailed).trans beq_iff_eq⟩

end Sys2Proof.Machine
end

section
/-! Tamper events (R410, R412, R413, R417, R422, R423): what a sampled monitor does, when a monitor reads normal again, the end of an
incident, and the statement O43 on them. -/

namespace Sys2Proof.Machine

section Alarm

variable {s : State} {a : Alarm} {m : Nat}

theorem State.tamperAlarm_of_unsampled (h : s.samples a.monitor.val = false) : s.tamperAlarm a = s := by
  simp only [State.tamperAlarm, h, Bool.not_false, if_true]

theorem State.tamperAlarm_of_sampled (h : s.samples a.monitor.val = true) :
    s.tamperAlarm a =
      if a.atlas || a.luna then ((s.pass a.after).alarmActs a).cellGone a.monitor.val
      else (s.pass a.after).readsNormal a.monitor.val := by
  simp only [State.tamperAlarm, h, Bool.not_true, Bool.false_eq_true, if_false]

theorem State.readsNormal_of_alarming (h : s.stillAlarms m = true) : s.readsNormal m = s := if_pos h

/-- R422: the clear time of an incident runs from the last of its monitors to read normal. -/
theorem State.readsNormal_of_clear (h : s.stillAlarms m = false) :
    s.readsNormal m =
      let t := s.modMon m MonRec.normal
      if s.tmp.open_ && s.tmp.incMons.contains m then { t with tmp := { t.tmp with clearFrom := s.opTime } } else t :=
  if_neg (ne_true_of_eq_false h)

/-- R412: a disagreement is counted for its monitor and for the module, and is an alarm of class LOG. -/
theorem State.monitorDisagreement_of_sampled (h : s.samples m = true) (atlas : Bool) :
    s.monitorDisagreement m atlas =
      let t := s.modMon m (fun r => { r with disagree := satAdd 8 r.disagree 1 })
      { t with tmp := { t.tmp with disagree := satAdd 16 t.tmp.disagree 1 } }.noteAlarm m 0 (if atlas then 1 else 2)
        (if t.tmp.open_ then 1 else 0) := by
  simp only [State.monitorDisagreement, h, Bool.not_true, Bool.false_eq_true, if_false]

end Alarm

section Incident

variable {s : State}

/-- The state in which the clear time of the open incident has passed. -/
def State.cleared (s : State) : State := if s.pwr.booted then s.advance (s.tmp.clearFrom + clearTime s.tmp.cls) else s

/-- The state in which the open incident is closed, its monitors normal (log 78), and vector 2 sent. -/
def State.incidentClosed (s : State) : State :=
  let t := s.tmp.incMons.foldl (fun t m => t.modMon m MonRec.normal) s
  State.raise { t with tmp := { t.tmp with open_ := false, incMons := [] } } 0 2

/-- R423: an incident of class SPEND never ends, nor one whose monitors cannot be normal. -/
theorem State.incidentEnd_of_standing
    (h : s.tmp.open_ = false ∨ s.pwr.inputOn = false ∨ 4 ≤ s.tmp.cls ∨ s.tmp.incMons.any s.stillAlarms = true) :
    s.incidentEnd = s := by
  refine if_pos ?_
  obtain h | h | h | h := h <;> simp [h]

theorem State.incidentEnd_of_clear (ho : s.tmp.open_ = true) (hi : s.pwr.inputOn = true) (hc : s.tmp.cls < 4)
    (hm : s.tmp.incMons.any s.stillAlarms = false) :
    s.incidentEnd =
      let u := s.cleared.incidentClosed
      if u.tmp.owed then { u with tmp := { u.tmp with state := 3 } }
      else State.endResponse { u with tmp := { u.tmp with
        recomNeeded := u.tmp.recomNeeded || (u.tmp.zeroized && u.lc == 3 && !u.bbramValid), zeroized := false } } := by
  have hends : (!s.tmp.open_ || decide (s.tmp.cls ≥ 4) || !s.pwr.inputOn || s.tmp.incMons.any s.stillAlarms) = false := by
    simp only [ho, hi, hm, ge_iff_le, Nat.not_le.mpr hc, decide_false, Bool.not_true, Bool.or_self]
  exact if_neg (ne_true_of_eq_false hends)

end Incident

/-- Settles O43: a sampled monitor by what its detectors say, and an incident by whether it can end. -/
theorem tamperEvents : Obligations.TamperEvents := by
  intro s
  refine ⟨?alarm, ?normal, fun a h => next_settle_congr (State.tamperAlarm_of_unsampled h),
    fun ms => ⟨fun hb => if_pos hb, fun hb => if_neg (ne_true_of_eq_false hb)⟩, ?reads, ?disagreement, ?ends,
    fun h => next_settle_congr (State.incidentEnd_of_standing h), fun _ => rfl⟩
  case alarm =>
    intro a h hd
    exact next_settle_congr ((State.tamperAlarm_of_sampled h).trans (if_pos (Bool.or_eq_true_iff.mpr hd)))
  case normal =>
    intro a h ha hl
    have hnone : ¬ (a.atlas || a.luna) = true := by simp [ha, hl]
    exact next_settle_congr ((State.tamperAlarm_of_sampled h).trans (if_neg hnone))
  case reads =>
    refine fun m => ⟨State.readsNormal_of_alarming, fun h => ⟨_, rfl, fun ⟨ho, hm⟩ => ?_, fun hn => ?_⟩⟩
    · exact (State.readsNormal_of_clear h).trans (if_pos (Bool.and_eq_true_iff.mpr ⟨ho, hm⟩))
    · refine (State.readsNormal_of_clear h).trans (if_neg ?_)
      obtain h | h := hn <;> simp only [h, Bool.false_and, Bool.and_false, Bool.false_eq_true, not_false_eq_true]
  case disagreement =>
    exact fun m b h => ⟨_, rfl, next_settle_congr (State.monitorDisagreement_of_sampled h b)⟩
  case ends =>
    intro ho hi hc hm
    have hend := State.incidentEnd_of_clear ho hi hc hm
    exact ⟨s.cleared, _, s.cleared.incidentClosed, rfl, rfl, rfl,
      fun howed => next_settle_congr (hend.trans (if_pos howed)),
      fun howed => next_settle_congr (hend.trans (if_neg (ne_true_of_eq_false howed)))⟩

end Sys2Proof.Machine
end

section
/-! Health and hours (R384, R444, R456, R457, R459, R462, R470): the commands of the health block and of the bank, what passes with an
operating hour and with the save of the counts, and the statement O24 on them. -/

namespace Sys2Proof.Machine

section Measure

variable {s : State} {mv : Nat} {v : BitVec 16}

theorem State.measure_of_drop (hh : s.pwr.holdup = false) (hm : mv ≠ 0) :
    s.measure mv v =
      ({ s with pwr := { s.pwr with bankVolt := v, bankDrop := mv } }).measured (bankEnergy s.pwr.charged mv v.toNat) := by
  simp only [State.measure, hh, beq_false_of_ne hm, Bool.or_self, Bool.false_eq_true, if_false]

/-- A bank that does not drop shows no capacitance (R470). -/
theorem State.measure_of_noDrop : s.measure 0 v = s := by
  simp only [State.measure, beq_self_eq_true, Bool.or_true, if_true]

theorem State.keepEnergy_of_charged (h : s.pwr.charged = true) :
    s.keepEnergy = { s with hlt := { s.hlt with
      energies := (s.hours, s.pwr.energy) :: s.hlt.energies.filter (fun p => s.hours < p.1 + 8760) } } := by
  simp only [State.keepEnergy, h, Bool.not_true, Bool.false_eq_true, if_false]

theorem State.keepEnergy_of_low (h : s.pwr.charged = false) : s.keepEnergy = s := by
  simp only [State.keepEnergy, h, Bool.not_false, if_true]

end Measure

section Hour

variable {s : State} {r : HourReport}

/-- The state at the end of the running operating hour, its time written to the PRF (R444). -/
def State.hourWritten (s : State) : State :=
  (s.advance ((s.hours + 1) * 3600000)).tryPrf prfTime
    (fun p => { p with opTime := (s.advance ((s.hours + 1) * 3600000)).opTime })

/-- The histories of the vault, the recorder and the indicators each take the hour that ends (R456). -/
def State.hourEnded (t : State) (r : HourReport) : State :=
  { t with vlt := t.vlt.endHour, evr := t.evr.endHour
           hlt := t.hlt.endHour t.prf.counts (hourWeight r.hottest) }.eraseDue

theorem State.operatingHour_of_running (hb : s.pwr.booted = true) (hh : s.pwr.holdup = false) :
    s.operatingHour r =
      (((s.hourWritten.hourEnded r).measure r.dropMv r.volt).keepEnergy.takeReport r).recomputeAll := by
  simp only [State.operatingHour, hb, hh, Bool.not_true, Bool.or_self, Bool.false_eq_true, if_false]
  rfl

theorem State.countSave_of_running (hb : s.pwr.booted = true) (hh : s.pwr.holdup = false) :
    s.countSave =
      let t := s.advance (ceilDiv s.opTime 86400000 * 86400000)
      { t with nor := { t.nor with prfCounts := t.prf.counts } } := by
  simp only [State.countSave, hb, hh, Bool.not_true, Bool.or_self, Bool.false_eq_true, if_false]

end Hour

/-- Settles O24: a write of the block by its command, a measurement by its drop, and the hour and the save while the module runs. -/
theorem healthAndHours : Obligations.HealthAndHours := by
  intro s r
  refine ⟨fun hw => next_settle_congr (State.atManager_of_writable hw), fun hw => next_settle_congr (State.atManager_of_writable hw),
    ?measure, ?noDrop, ?hour, fun h counts w => ⟨rfl, rfl, rfl⟩, ?charged, State.keepEnergy_of_low, ?save⟩
  case measure =>
    exact fun mv v hw hh hm => next_settle_congr ((State.atManager_of_writable hw).trans (State.measure_of_drop hh hm))
  case noDrop =>
    exact fun v hw => next_settle_congr ((State.atManager_of_writable hw).trans State.measure_of_noDrop)
  case hour => exact fun hb hh => ⟨s.hourWritten, _, rfl, rfl, next_settle_congr (State.operatingHour_of_running hb hh)⟩
  case charged =>
    intro h
    rw [State.keepEnergy_of_charged h]
    rfl
  case save => exact fun hb hh => ⟨_, rfl, next_settle_congr (State.countSave_of_running hb hh)⟩

end Sys2Proof.Machine
end

section
/-! Access control (R404, R431 to R442): who activates and closes a unit, what an access of an internal master does and returns, the
clear of a capture, the debug master, and the statement O22 on them. -/

namespace Sys2Proof.Machine

section Unit

variable {s : State} {u : Nat} {m : Master}

/-- R435: the masters of the custody world, past their own unit, may write the guarded registers of a unit. -/
def State.mayControl (s : State) (u : Nat) (m : Master) : Bool := isCustody m && !s.custodyRefused m (uctlOffset u)

theorem State.mayControl_of_custody (hc : isCustody m = true) (hr : s.custodyRefused m (uctlOffset u) = false) :
    s.mayControl u m = true := by
  rw [State.mayControl, hc, hr]
  rfl

theorem State.mayControl_of_other (h : isCustody m = false ∨ s.custodyRefused m (uctlOffset u) = true) :
    s.mayControl u m = false := by
  obtain h | h := h <;> simp [State.mayControl, h]

theorem State.closeBy_of_allowed (h : s.mayControl u m = true) : s.closeBy u m = s.closeUnit u := if_pos h

theorem State.closeBy_of_refused (h : s.mayControl u m = false) : s.closeBy u m = s.guardedWrite m (uctlOffset u) :=
  if_neg (ne_true_of_eq_false h)

theorem State.activateBy_of_allowed (h : s.mayControl u m = true) : s.activateBy u m = s.activate u := if_pos h

theorem State.activateBy_of_refused (h : s.mayControl u m = false) : s.activateBy u m = s.guardedWrite m (uctlOffset u) :=
  if_neg (ne_true_of_eq_false h)

theorem State.activate_of_sound (h : regionsBad (s.getAcu u).staged.toList = none) :
    s.activate u = s.modAcu u (fun a => { a with
      active := a.staged.map Triple.all, gen := satAdd 16 a.gen 1, closed := false, check := 0, checkRegion := 0 }) := by
  simp only [State.activate, h]

theorem State.activate_of_bad {code i : Nat} (h : regionsBad (s.getAcu u).staged.toList = some (code, i)) :
    s.activate u = (s.modAcu u (fun a => { a with check := code, checkRegion := i, fail := true })).record 0x0603 (src 4 u) 2
      (leBytes 1 u ++ leBytes 1 code ++ leBytes 1 i ++ zeros 13) := by
  simp only [State.activate, h]

end Unit

section Access

variable {s t : State} {u level kind start len : Nat}

theorem State.refusedReply_reply (hk : kind ≠ 1) : (t.refusedReply u kind).reply = some 0 := by
  unfold State.refusedReply
  rw [if_neg (mt beq_iff_eq.mp hk)]
  dsimp only
  split <;> rfl

theorem State.refusedReply_write : t.refusedReply u 1 = t := rfl

theorem State.access_of_unissued (h : issues u level kind = false) : s.access u level kind start len = s := by
  simp only [State.access, h, Bool.not_false, if_true]

/-- R431: the unit of the master refuses. -/
theorem State.access_of_refused {x y : Nat} (hi : issues u level kind = true)
    (hr : (s.getAcu u).refuses u level kind start len = some (x, y)) :
    s.access u level kind start len = (s.acuViolation 0x0601 u x kind level y len start).refusedReply u kind := by
  simp only [State.access, hi, hr, Bool.not_true, Bool.false_eq_true, if_false]

/-- R435: the unit lets it through and a guard refuses. -/
theorem State.access_of_guarded {x : Nat} (hi : issues u level kind = true)
    (hr : (s.getAcu u).refuses u level kind start len = none) (hg : guardedByte u level kind start len = some x) :
    s.access u level kind start len =
      (s.acuViolation 0x0602 u x kind level (((s.getAcu u).regionOf x).getD 0xFF) len start).refusedReply u kind := by
  simp only [State.access, hi, hr, hg, Bool.not_true, Bool.false_eq_true, if_false]

theorem State.accessAllowed_iff : s.accessAllowed u level kind start len = true ↔
    issues u level kind = true ∧ (s.getAcu u).refuses u level kind start len = none
      ∧ guardedByte u level kind start len = none := by
  simp [State.accessAllowed, guardRefuses, and_assoc]

theorem State.access_of_allowed (h : s.accessAllowed u level kind start len = true) : s.access u level kind start len = s := by
  obtain ⟨hi, hr, hg⟩ := State.accessAllowed_iff.mp h
  simp only [State.access, hi, hr, hg, Bool.not_true, Bool.false_eq_true, if_false]

theorem State.accessAllowed_of_unissued (h : issues u level kind = false) : s.accessAllowed u level kind start len = false := by
  simp only [State.accessAllowed, h, Bool.false_and]

theorem State.accessAllowed_of_refused {p : Nat × Nat} (h : (s.getAcu u).refuses u level kind start len = some p) :
    s.accessAllowed u level kind start len = false := by
  simp only [State.accessAllowed, h, Option.isNone_some, Bool.and_false, Bool.false_and]

theorem State.accessAllowed_of_guarded {x : Nat} (h : guardedByte u level kind start len = some x) :
    s.accessAllowed u level kind start len = false := by
  simp only [State.accessAllowed, guardRefuses, h, Option.isSome_some, Bool.not_true, Bool.and_false]

@[simp] theorem State.acuViolation_lcs (s : State) (type u addr kind level region len start : Nat) :
    (s.acuViolation type u addr kind level region len start).lcs = s.lcs := by
  unfold State.acuViolation
  dsimp only
  split
  · obtain ⟨_, _, _, _, _, _, _, _, hlcs, _⟩ := State.keeps_record
      (s.modAcu u (fun a => { a with viol := satAdd 32 a.viol 1 })) type (src 4 u) 2
      (violPayload addr kind level u region len start)
    exact hlcs
  · rfl

@[simp] theorem State.refusedReply_lcs (s : State) (u kind : Nat) : (s.refusedReply u kind).lcs = s.lcs := by
  unfold State.refusedReply
  dsimp only
  split <;> split <;> rfl

@[simp] theorem State.access_lcs (s : State) (u level kind start len : Nat) : (s.access u level kind start len).lcs = s.lcs := by
  unfold State.access
  split
  · rfl
  split
  · simp
  split
  · simp
  · rfl

end Access

section Reply

variable {s : State} {u level kind start len : Nat}

/-- R433: what an allowed read returns, a word of the registers or a free value of another memory (log 86). -/
def State.readBy (s : State) (start len : Nat) : State :=
  { s with reply := some (s.internalRead start len), draw := s.draw + bit (start ≥ 0x4000000) }

theorem State.internalReply_of_denied (h : s.accessAllowed u level kind start len = false) :
    s.internalReply u level kind start len = s := by
  simp only [State.internalReply, h, Bool.not_false, Bool.or_true, if_true]

theorem State.internalReply_of_silent (h : kind = 1 ∨ 8 < len) : s.internalReply u level kind start len = s := by
  refine if_pos ?_
  obtain h | h := h <;> simp [h]

theorem State.internalReply_of_read (h : s.accessAllowed u level kind start len = true) (hk : kind ≠ 1) (hl : len ≤ 8) :
    s.internalReply u level kind start len = s.readBy start len := by
  simp only [State.internalReply, h, beq_false_of_ne hk, gt_iff_lt, Nat.not_lt.mpr hl, decide_false, Bool.not_true, Bool.or_self,
    Bool.false_eq_true, if_false]
  rfl

/-- What a master reads changes none of the units. -/
theorem State.readBy_accessAllowed (s : State) (a n : Nat) :
    (s.readBy a n).accessAllowed u level kind start len = s.accessAllowed u level kind start len := rfl

end Reply

section Master

variable {s : State} {a : Access}

theorem State.internalAccess_of_denied (h : s.accessAllowed a.unit.val a.level.val (accCode a.kind) a.start.toNat a.len = false) :
    s.internalAccess a = s.access a.unit.val a.level.val (accCode a.kind) a.start.toNat a.len :=
  congrArg (fun t : State => t.access a.unit.val a.level.val (accCode a.kind) a.start.toNat a.len)
    (State.internalReply_of_denied h)

theorem State.internalAccess_of_read (h : s.accessAllowed a.unit.val a.level.val (accCode a.kind) a.start.toNat a.len = true)
    (hk : accCode a.kind ≠ 1) (hl : a.len ≤ 8) : s.internalAccess a = s.readBy a.start.toNat a.len := by
  rw [State.internalAccess, State.internalReply_of_read h hk hl]
  exact State.access_of_allowed ((State.readBy_accessAllowed s _ _).trans h)

theorem State.internalAccess_of_silent (h : s.accessAllowed a.unit.val a.level.val (accCode a.kind) a.start.toNat a.len = true)
    (hs : accCode a.kind = 1 ∨ 8 < a.len) : s.internalAccess a = s := by
  rw [State.internalAccess, State.internalReply_of_silent hs]
  exact State.access_of_allowed h

end Master

section Debug

variable {s : State} {k : AccKind} {start len : Nat}

theorem State.debugLevel_eq (s : State) : s.debugLevel = if s.lcs.debug = 2 then 1 else 2 := by
  simp only [State.debugLevel, beq_iff_eq]

/-- The access of the debug master is one that its unit or a guard lets through. -/
def State.debugAllowed (s : State) (k : AccKind) (start len : Nat) : Bool :=
  s.accessAllowed 20 s.debugLevel (accCode k) start len

/-- The state after the access of the debug master itself, before its session counts a refusal. -/
def State.debugTried (s : State) (k : AccKind) (start len : Nat) : State := s.access 20 s.debugLevel (accCode k) start len

theorem State.debugTried_lcs : (s.debugTried k start len).lcs = s.lcs := s.access_lcs _ _ _ _ _

/-- The refusals of the last second, with one that falls now (R404). -/
def State.violationsNow (s : State) : List Nat := s.lcs.violTimes.filter (fun w => s.opTime < w + 1000) ++ [s.opTime]

/-- A refusal of the open session is counted. -/
def State.debugCounted (s : State) : State :=
  { s with lcs := { s.lcs with viol := satAdd 16 s.lcs.viol 1, violTimes := s.violationsNow } }

/-- R434: the debug master issues reads and writes at either of its levels, and no fetch. -/
theorem issues_debug (s : State) (k : AccKind) : issues 20 s.debugLevel (accCode k) = (accCode k != 2) := by
  rw [State.debugLevel_eq]
  split <;> cases k <;> rfl

theorem State.debugAccess_of_unrefused (hb : s.pwr.booted = true)
    (h : issues 20 s.debugLevel (accCode k) = false ∨ s.debugAllowed k start len = true) :
    s.debugAccess k start len = s.debugTried k start len := by
  have hr : (issues 20 s.debugLevel (accCode k) && !s.accessAllowed 20 s.debugLevel (accCode k) start len) = false := by
    obtain h | h := h
    · rw [h, Bool.false_and]
    · rw [State.debugAllowed] at h
      rw [h, Bool.not_true, Bool.and_false]
  simp only [State.debugAccess, hb, hr, Bool.not_true, Bool.not_false, Bool.true_or, Bool.false_eq_true, if_false, if_true]
  rfl

theorem State.debugAccess_of_refused (hb : s.pwr.booted = true) (hi : issues 20 s.debugLevel (accCode k) = true)
    (h : s.debugAllowed k start len = false) :
    s.debugAccess k start len =
      let t := s.debugTried k start len
      if t.lcs.debug = 0 then t
      else if 64 ≤ t.violationsNow.length then
        State.closeDebug { t.debugCounted with lcs := { t.debugCounted.lcs with closedViol := true } } 4
      else t.debugCounted := by
  rw [State.debugAllowed] at h
  simp only [State.debugAccess, hb, hi, h, Bool.not_true, Bool.not_false, Bool.and_self, Bool.false_or,
    Bool.false_eq_true, if_false, beq_iff_eq, ge_iff_le]
  rfl

theorem State.debugRead_of_booted (hb : s.pwr.booted = true) :
    s.debugRead k start len = (s.internalReply 20 s.debugLevel (accCode k) start len).debugAccess k start len := if_pos hb

theorem State.debugRead_of_denied (hb : s.pwr.booted = true) (h : s.debugAllowed k start len = false) :
    s.debugRead k start len = s.debugAccess k start len := by
  rw [State.debugRead_of_booted hb, State.internalReply_of_denied h]

theorem State.debugRead_fetch (hb : s.pwr.booted = true) : s.debugRead .fetch start len = s := by
  have hi : issues 20 s.debugLevel (accCode .fetch) = false := issues_debug s .fetch
  rw [State.debugRead_of_denied hb (State.accessAllowed_of_unissued hi), State.debugAccess_of_unrefused hb (.inl hi)]
  exact State.access_of_unissued hi

theorem State.debugRead_of_read (hb : s.pwr.booted = true) (h : s.debugAllowed k start len = true) (hk : accCode k ≠ 1)
    (hl : len ≤ 8) : s.debugRead k start len = s.readBy start len := by
  have hsame : (s.readBy start len).debugAllowed k start len = true := h
  rw [State.debugRead_of_booted hb, State.internalReply_of_read h hk hl]
  exact (State.debugAccess_of_unrefused (s := s.readBy start len) hb (.inr hsame)).trans (State.access_of_allowed hsame)

theorem State.debugRead_of_silent (hb : s.pwr.booted = true) (h : s.debugAllowed k start len = true)
    (hs : accCode k = 1 ∨ 8 < len) : s.debugRead k start len = s := by
  rw [State.debugRead_of_booted hb, State.internalReply_of_silent hs, State.debugAccess_of_unrefused hb (.inr h)]
  exact State.access_of_allowed h

end Debug

/-- Settles O22: a write of ACU_UCTL by its master, an access by what refuses it, and the debug master by its session. -/
theorem accessControl : Obligations.AccessControl := by
  intro s u hb
  refine ⟨?close, ?refusedControl, ?activate, ?badSet, ?access,
    fun t k => ⟨State.refusedReply_reply, State.refusedReply_write⟩,
    fun hw => next_settle_congr (State.atManager_of_writable hw), ?capture,
    fun start len => next_settle_congr (State.debugRead_fetch hb), ?debug⟩
  case close =>
    exact fun m hc hr => next_settle_congr
      ((if_pos hb).trans (State.closeBy_of_allowed (State.mayControl_of_custody hc hr)))
  case refusedControl =>
    exact fun m h => ⟨next_settle_congr ((if_pos hb).trans (State.closeBy_of_refused (State.mayControl_of_other h))),
      next_settle_congr ((if_pos hb).trans (State.activateBy_of_refused (State.mayControl_of_other h)))⟩
  case activate =>
    exact fun m hc hr hs => next_settle_congr ((if_pos hb).trans
      ((State.activateBy_of_allowed (State.mayControl_of_custody hc hr)).trans (State.activate_of_sound hs)))
  case badSet =>
    exact fun m code i hc hr hs => next_settle_congr ((if_pos hb).trans
      ((State.activateBy_of_allowed (State.mayControl_of_custody hc hr)).trans (State.activate_of_bad hs)))
  case access =>
    rintro a rfl
    have acts {t : State} (h : s.internalAccess a = t) : exec (.accessViolation a) s = .next (s.settle t) :=
      next_settle_congr ((if_pos hb).trans h)
    refine ⟨fun hi => acts ?_, fun x y hi hr => acts ?_, fun x hi hr hg => acts ?_,
      fun h => ⟨fun hk hl => acts (State.internalAccess_of_read h hk hl), fun hs => acts (State.internalAccess_of_silent h hs)⟩⟩
    · exact (State.internalAccess_of_denied (State.accessAllowed_of_unissued hi)).trans (State.access_of_unissued hi)
    · exact (State.internalAccess_of_denied (State.accessAllowed_of_refused hr)).trans (State.access_of_refused hi hr)
    · exact (State.internalAccess_of_denied (State.accessAllowed_of_guarded hg)).trans (State.access_of_guarded hi hr hg)
  case capture =>
    rintro a hw rfl
    exact next_settle_congr ((State.atManager_of_writable hw).trans (if_pos (beq_self_eq_true _)))
  case debug =>
    intro k start len hk level
    have hlevel : level = s.debugLevel := (State.debugLevel_eq s).symm
    have hi : issues 20 s.debugLevel (accCode k) = true := by
      rw [issues_debug]
      cases k with
      | fetch => exact absurd rfl hk
      | _ => rfl
    rw [hlevel]
    refine ⟨fun h => ⟨fun hc hl => next_settle_congr (State.debugRead_of_read hb h hc hl),
      fun hs => next_settle_congr (State.debugRead_of_silent hb h hs)⟩, fun h => ?_⟩
    have hdenied := (State.debugRead_of_denied hb h).trans (State.debugAccess_of_refused hb hi h)
    rw [← State.debugTried_lcs (k := k) (start := start.toNat) (len := len)]
    refine ⟨s.debugTried k start.toNat len, rfl, fun hd => next_settle_congr (hdenied.trans (if_pos hd)), fun hd => ?_⟩
    exact ⟨_, (s.debugTried k start.toNat len).debugCounted, rfl, rfl,
      fun hw => next_settle_congr ((hdenied.trans (if_neg hd)).trans (if_neg (Nat.not_le.mpr hw))),
      fun hw => next_settle_congr ((hdenied.trans (if_neg hd)).trans (if_pos hw))⟩

end Sys2Proof.Machine
end

section
/-! Life-cycle transitions (R391, R393, R394, R396, R398): the act of LC_TRANSITION on the custody pair, by the state that it leaves and
its target, and the statement O59. -/

namespace Sys2Proof.Machine

section Act

variable {u : State} {r : MsgRec} {row : Nat}

/-- The envelope and placement keys that a move draws to format the vault with (R281). -/
def MsgRec.drawnKeys (r : MsgRec) : Bytes × Bytes := (r.random.take 32, slice r.random 32 32)

/-- The state in which an entry writes its transport record: commits ended, the vault's checkpoint and the ledger journal written
(R396). -/
def State.entryReady (u : State) : State := u.finishCommits.checkpoint.writeLedgerJournal

/-- An entry goes on with its statement as output. -/
def State.entryOn (t : State) (r : MsgRec) (row : Nat) (statement : Bytes) : State :=
  (t.modMsg r.id (fun x => { x with output := statement })).moveOn row 4 none none

theorem lcTransitionAct_of_early (hrow : moveRow u.lc (lcTarget r.m) u.otp.trips = some row) (h2 : u.lc ≠ 2) (h3 : u.lc ≠ 3)
    (h4 : u.lc ≠ 4) : lcTransitionAct u r = .custody (u.moveOn row (lcTarget r.m) none none) := by
  unfold lcTransitionAct
  simp only [hrow]
  split
  · contradiction
  · contradiction
  · contradiction
  · rfl

theorem lcTransitionAct_to_spent (hrow : moveRow u.lc (lcTarget r.m) u.otp.trips = some row) (ht : lcTarget r.m = 5) :
    lcTransitionAct u r = .custody (u.moveOn row 5 none none) := by
  unfold lcTransitionAct
  simp only [hrow]
  split
  · omega
  · omega
  · omega
  · rw [ht]
    rfl

theorem lcTransitionAct_to_imago (hrow : moveRow u.lc (lcTarget r.m) u.otp.trips = some row) (hl : u.lc = 2)
    (ht : lcTarget r.m = 3) : lcTransitionAct u r = .custody (u.moveOn row 3 (some r.drawnKeys) none) := by
  unfold lcTransitionAct
  simp only [hrow]
  simp only [hl, ht]
  rfl

/-- R396: an entry writes its transport record where there is an envelope key to write one of. -/
theorem lcTransitionAct_of_entry (hrow : moveRow u.lc (lcTarget r.m) u.otp.trips = some row) (hl : u.lc = 3)
    (ht : lcTarget r.m = 4) :
    lcTransitionAct u r =
      let t := u.entryReady
      let e := t.buildEntry r.m.input r.random
      let w := t.prfWrite prfTransport
      if !t.bbramValid then .custody (t.entryOn r row e.2)
      else if !w.1 then .ends prfRefusal (w.2.lcFail 3 4 prfRefusal.status)
      else .custody (State.entryOn { w.2 with prf := { w.2.prf with transport := some e.1 } } r row e.2) := by
  unfold lcTransitionAct
  simp only [hrow]
  simp only [hl, ht]
  rfl

/-- R398: an exit formats the vault, or recovers the envelope key from the shares that it brings. -/
theorem lcTransitionAct_of_exit (hrow : moveRow u.lc (lcTarget r.m) u.otp.trips = some row) (hl : u.lc = 4)
    (ht : lcTarget r.m = 3) :
    lcTransitionAct u r =
      if r.m.inLen = 0 then .custody (u.moveOn row 3 (some r.drawnKeys) none)
      else match u.openTransport r.m.input with
        | .inl f => .ends f (u.lcFail 4 3 f.status)
        | .inr e => .custody (u.moveOn row 3 none (some e)) := by
  unfold lcTransitionAct
  simp only [hrow]
  simp only [hl, ht, beq_iff_eq]
  rfl

end Act

section Row

variable {s v : State} {m : Msg} {x : MsgRec} {a : Acted}

/-- A transition whose draws are served, with its message on the custody pair (R394). -/
def State.onCustody (v : State) (x : MsgRec) : State := v.modMsg x.id (fun r => { r with phase := .custody })

theorem exec_lcTransition_of_act (h : s.acting .lcTransition m = some (v, x))
    (ha : lcTransitionAct (v.onCustody x) { x with phase := .custody } = a) :
    exec (.lcTransition m) s = .next (s.settle (acted x a)) := by
  have hop : x.op = .lcTransition := (State.acting_op s _ m _ h).2
  have hact : (v.onCustody x).controlAct { x with phase := .custody } = a := by
    simp only [State.controlAct, hop]
    exact ha
  have hmsg := State.message_of_acting s _ m _ (State.op_ne_zrmRecord_of_acting h) h
  rw [State.actNow, if_pos (beq_iff_eq.mpr hop)] at hmsg
  refine (exec_messageRow_of_message (o := .lcTransition) hmsg).trans (next_settle_congr ?_)
  exact congrArg (acted x) hact

theorem exec_lcTransition_of_custody {t : State} (h : s.acting .lcTransition m = some (v, x))
    (ha : lcTransitionAct (v.onCustody x) { x with phase := .custody } = .custody t) :
    exec (.lcTransition m) s = .next (s.settle t) := by
  rw [exec_lcTransition_of_act h ha, acted]

theorem exec_lcTransition_of_ends {t : State} {f : Final} (h : s.acting .lcTransition m = some (v, x))
    (ha : lcTransitionAct (v.onCustody x) { x with phase := .custody } = .ends f t) :
    exec (.lcTransition m) s = .next (s.settle (t.endAct x f)) := by
  rw [exec_lcTransition_of_act h ha, acted]

end Row

/-- Settles O59: a transition by the state that it leaves and its target, an entry by its transport record and an exit by its input. -/
theorem lifeCycleMoves : Obligations.LifeCycleMoves := by
  intro s v u m x h hu row hrow
  obtain rfl : u = v.onCustody x := hu
  refine ⟨fun h2 h3 h4 => exec_lcTransition_of_custody h (lcTransitionAct_of_early hrow h2 h3 h4),
    fun ht => exec_lcTransition_of_custody h (lcTransitionAct_to_spent hrow ht),
    fun hl ht => exec_lcTransition_of_custody h (lcTransitionAct_to_imago hrow hl ht), ?entry, ?exit⟩
  case entry =>
    rintro hl ht t w e hready rfl rfl
    obtain rfl : t = (v.onCustody x).entryReady := hready
    have hact := lcTransitionAct_of_entry (r := { x with phase := .custody }) hrow hl ht
    refine ⟨fun hv hw => exec_lcTransition_of_custody h (hact.trans ?_), fun hv hw => exec_lcTransition_of_ends h (hact.trans ?_),
      fun hv => exec_lcTransition_of_custody h (hact.trans ?_)⟩
    · exact (if_neg (by rw [hv]; decide)).trans (if_neg (by rw [hw]; decide))
    · exact (if_neg (by rw [hv]; decide)).trans (if_pos (by rw [hw]; decide))
    · exact if_pos (by rw [hv]; decide)
  case exit =>
    intro hl ht
    have hact := lcTransitionAct_of_exit (r := { x with phase := .custody }) hrow hl ht
    refine ⟨fun hn => exec_lcTransition_of_custody h (hact.trans (if_pos hn)),
      fun e hn he => exec_lcTransition_of_custody h (hact.trans ((if_neg hn).trans ?_)),
      fun f hn hf => exec_lcTransition_of_ends h (hact.trans ((if_neg hn).trans ?_))⟩
    · dsimp only
      rw [he]
    · dsimp only
      rw [hf]

end Sys2Proof.Machine
end
